-- ==== Sys2Proof/Word.lean ====
section
/-! DEFINITION. The word types of the GZN-9600 (spec 00 R9, R10, R18) and nothing else. -/

namespace Sys2Proof

/-- One byte. -/
abbrev Byte := BitVec 8
/-- A register: every register is 32 bits wide (R10). -/
abbrev Word := BitVec 32
/-- A logic-core `w` register. -/
abbrev DWord := BitVec 64
/-- An instant of device time or a duration, counted in units of 2^-32 s (R18):
seconds are the quotient by 2^32, the fraction is the remainder. -/
abbrev Instant := Nat

end Sys2Proof
end

