-- ==== Sys2Proof/Machine/Util.lean ====
section
/-! DEFINITION. Byte-order, bit-field, saturation, table and CRC helpers that the meanings share (R9, R13, R565). -/

namespace Sys2Proof.Machine

/-- The bits `[hi:lo]` of a register as a number. -/
def field {n : Nat} (w : BitVec n) (hi lo : Nat) : Nat := (w.toNat >>> lo) % 2 ^ (hi + 1 - lo)

/-- Bit `i` of a register. -/
def bit {n : Nat} (w : BitVec n) (i : Nat) : Bool := w.getLsbD i

/-- A register with its bits `[hi:lo]` replaced by the low bits of `v`. -/
def setField {n : Nat} (w : BitVec n) (hi lo v : Nat) : BitVec n :=
  let m : BitVec n := (BitVec.ofNat n (2 ^ (hi + 1 - lo) - 1)) <<< lo
  (w &&& ~~~m) ||| ((BitVec.ofNat n v <<< lo) &&& m)

/-- A register with bit `i` set or cleared. -/
def setBit {n : Nat} (w : BitVec n) (i : Nat) (b : Bool) : BitVec n :=
  setField w i i (if b then 1 else 0)

/-- Adds `k` to a counter that saturates at all ones (the saturating counters of every block). -/
def satAdd {n : Nat} (w : BitVec n) (k : Nat) : BitVec n :=
  if w.toNat + k < 2 ^ n then BitVec.ofNat n (w.toNat + k) else BitVec.allOnes n

/-- The smaller of a number and the largest that `bits` bits hold. -/
def satTo (bits v : Nat) : Nat := if v < 2 ^ bits then v else 2 ^ bits - 1

/-- The number that bytes spell, lowest address first (R9). -/
def leNat : List Byte → Nat
  | [] => 0
  | b :: bs => b.toNat + 256 * leNat bs

/-- The `n` bytes of a number, lowest address first (R9). -/
def leBytes : Nat → Nat → List Byte
  | 0, _ => []
  | n + 1, v => BitVec.ofNat 8 v :: leBytes n (v / 256)

/-- The `n` bytes of a number, highest address last byte first (network order). -/
def beBytes (n v : Nat) : List Byte := (leBytes n v).reverse

/-- `len` bytes from offset `off`. -/
def slice (bs : List Byte) (off len : Nat) : List Byte := (bs.drop off).take len

/-- The little-endian field of `len` bytes at offset `off`. -/
def fieldAt (bs : List Byte) (off len : Nat) : Nat := leNat (slice bs off len)

/-- Whether all of some bytes are zero. -/
def allZero (bs : List Byte) : Bool := bs.all (· == 0)

/-- `n` zero bytes. -/
def zeros (n : Nat) : List Byte := List.replicate n 0

/-- Bytes cut or padded with zeros to exactly `n`. -/
def padTo (n : Nat) (bs : List Byte) : List Byte := (bs ++ zeros (n - bs.length)).take n

/-- A number read as two's complement of `bits` bits. -/
def toSigned (bits v : Nat) : Int :=
  let m := v % 2 ^ bits
  if m < 2 ^ (bits - 1) then (m : Int) else (m : Int) - (2 ^ bits : Nat)

/-- The `bits`-bit two's complement of an integer, as a number. -/
def ofSigned (bits : Nat) (i : Int) : Nat := (i % ((2 ^ bits : Nat) : Int)).toNat

/-- An integer held between two limits. -/
def clampInt (lo hi i : Int) : Int := if i < lo then lo else if hi < i then hi else i

/-- Rounds `n / d` to the nearest whole number, ties to even (R21). -/
def roundDiv (n d : Nat) : Nat :=
  let q := n / d
  let r := n % d
  if 2 * r < d then q else if d < 2 * r then q + 1 else if q % 2 = 0 then q else q + 1

/-- A duration in microseconds in device-time units (R21). -/
def usToUnits (us : Nat) : Instant := roundDiv (us * 2 ^ 32) 1000000

/-- A duration in nanoseconds in device-time units (R21). -/
def nsToUnits (ns : Nat) : Instant := roundDiv (ns * 2 ^ 32) 1000000000

/-- The 12 bytes of an instant in memory: seconds, then fraction (R18). -/
def instantBytes (t : Instant) : List Byte := leBytes 8 (t / 2 ^ 32) ++ leBytes 4 (t % 2 ^ 32)

/-- The instant that 12 bytes spell (R18). -/
def instantOf (bs : List Byte) : Instant := fieldAt bs 0 8 * 2 ^ 32 + fieldAt bs 8 4

/-! ### Tables: lists of key and value with strictly rising keys -/

/-- The value of a key. -/
def tget {α : Type} : List (Nat × α) → Nat → Option α
  | [], _ => none
  | (k, v) :: rest, x => if x = k then some v else tget rest x

/-- Sets the value of a key, keeping the keys rising. -/
def tput {α : Type} : List (Nat × α) → Nat → α → List (Nat × α)
  | [], x, v => [(x, v)]
  | (k, w) :: rest, x, v =>
    if x < k then (x, v) :: (k, w) :: rest
    else if x = k then (k, v) :: rest
    else (k, w) :: tput rest x v

/-- Removes a key. -/
def tdel {α : Type} : List (Nat × α) → Nat → List (Nat × α)
  | [], _ => []
  | (k, w) :: rest, x => if x = k then tdel rest x else (k, w) :: tdel rest x

/-- Changes the value of a key that the table holds. -/
def tmod {α : Type} (f : α → α) : List (Nat × α) → Nat → List (Nat × α)
  | [], _ => []
  | (k, w) :: rest, x => if x = k then (k, f w) :: rest else (k, w) :: tmod f rest x

/-- The keys rise strictly and no entry holds the value `dflt k` that an unlisted key reads as: the canonical form. -/
def tcanon {α : Type} [DecidableEq α] (dflt : Nat → α) : List (Nat × α) → Bool
  | [] => true
  | [(k, v)] => decide (v ≠ dflt k)
  | (k, v) :: (k', v') :: rest =>
    decide (v ≠ dflt k) && decide (k < k') && tcanon dflt ((k', v') :: rest)

/-- Reads a table in canonical form: an unlisted key reads as `dflt`. -/
def cget {α : Type} (dflt : Nat → α) (t : List (Nat × α)) (k : Nat) : α := (tget t k).getD (dflt k)

/-- Writes a table in canonical form: writing what an unlisted key reads as removes the entry. -/
def cput {α : Type} [DecidableEq α] (dflt : Nat → α) (t : List (Nat × α)) (k : Nat) (v : α) : List (Nat × α) :=
  if v = dflt k then tdel t k else tput t k v

/-- Element `i` of a list, or the default. -/
def nth {α : Type} (d : α) (l : List α) (i : Nat) : α := (l[i]?).getD d

/-- Changes element `i` of a list. -/
def modNth {α : Type} (f : α → α) : List α → Nat → List α
  | [], _ => []
  | x :: xs, 0 => f x :: xs
  | x :: xs, i + 1 => x :: modNth f xs i

/-- The last `n` elements. -/
def lastN {α : Type} (n : Nat) (l : List α) : List α := l.drop (l.length - n)

/-- Applies `f` to the numbers below `n` in rising order, threading a value. -/
def forNat {σ : Type} : Nat → (Nat → σ → σ) → σ → σ
  | 0, _, s => s
  | n + 1, f, s => f n (forNat n f s)

/-! ### Checks of the record formats -/

/-- Shifts one CRC-16/CCITT register by one bit. -/
def crc16Bit (c : BitVec 16) : BitVec 16 :=
  if c.getLsbD 15 then (c <<< 1) ^^^ 0x1021#16 else c <<< 1

/-- One byte of CRC-16/CCITT. -/
def crc16Byte (c : BitVec 16) (b : Byte) : BitVec 16 :=
  crc16Bit (crc16Bit (crc16Bit (crc16Bit (crc16Bit (crc16Bit (crc16Bit (crc16Bit
    (c ^^^ (b.zeroExtend 16 <<< 8)))))))))

/-- CRC-16/CCITT, initial value 0xFFFF, no reflection, no final XOR (R565). -/
def crc16 (bs : List Byte) : BitVec 16 := bs.foldl crc16Byte 0xFFFF#16

/-- Shifts one reflected CRC-32 register by one bit. -/
def crc32Bit (c : Word) : Word :=
  if c.getLsbD 0 then (c >>> 1) ^^^ 0xEDB88320#32 else c >>> 1

/-- One byte of CRC-32. -/
def crc32Byte (c : Word) (b : Byte) : Word :=
  crc32Bit (crc32Bit (crc32Bit (crc32Bit (crc32Bit (crc32Bit (crc32Bit (crc32Bit
    (c ^^^ b.zeroExtend 32))))))))

/-- CRC-32 of IEEE 802.3: reflected, initial value and final XOR all ones. -/
def crc32 (bs : List Byte) : Word := ~~~ (bs.foldl crc32Byte 0xFFFFFFFF#32)

end Sys2Proof.Machine
end

