-- ==== Sys2Proof/Machine/Fp.lean ====
section
/-! DEFINITION. IEEE 754-2019 binary32 and binary64 arithmetic with the rounding modes and flags of FCSR (R166, R167):
every result is computed exactly as an integer times a power of two and rounded once. -/

namespace Sys2Proof.Machine

/-- A binary format: precision in bits and width of the exponent field. -/
structure Fmt where
  p : Nat
  ew : Nat
  deriving DecidableEq, Repr

/-- FP32 and FP64. -/
def fp32 : Fmt := ⟨24, 8⟩
def fp64 : Fmt := ⟨53, 11⟩

/-- The format that bit P of FUNC selects (R167). -/
def fmtOf (dbl : Bool) : Fmt := if dbl then fp64 else fp32

namespace Fmt

def bias (f : Fmt) : Int := 2 ^ (f.ew - 1) - 1
def emax (f : Fmt) : Int := f.bias
def emin (f : Fmt) : Int := 1 - f.bias
def width (f : Fmt) : Nat := f.p + f.ew
/-- The canonical quiet NaN (R166). -/
def nan (f : Fmt) : Nat := (2 ^ f.ew - 1) * 2 ^ (f.p - 1) + 2 ^ (f.p - 2)
def inf (f : Fmt) (neg : Bool) : Nat := (if neg then 2 ^ (f.width - 1) else 0) + (2 ^ f.ew - 1) * 2 ^ (f.p - 1)
def zero (f : Fmt) (neg : Bool) : Nat := if neg then 2 ^ (f.width - 1) else 0
/-- The largest finite number. -/
def maxFinite (f : Fmt) (neg : Bool) : Nat := f.inf neg - 1

end Fmt

/-- What an encoding stands for: a NaN (signalling or not), an infinity, or (−1)^neg × m × 2^e. -/
inductive Fpv where
  | nan (signalling : Bool)
  | inf (neg : Bool)
  | fin (neg : Bool) (m : Nat) (e : Int)
  deriving DecidableEq, Repr

/-- Decodes the low bits of a register (R154). -/
def fpDecode (f : Fmt) (x : Nat) : Fpv :=
  let frac := x % 2 ^ (f.p - 1)
  let ex := x / 2 ^ (f.p - 1) % 2 ^ f.ew
  let neg := x / 2 ^ (f.width - 1) % 2 == 1
  if ex = 2 ^ f.ew - 1 then
    if frac = 0 then .inf neg else .nan (decide (frac < 2 ^ (f.p - 2)))
  else if ex = 0 then .fin neg frac (f.emin - (f.p - 1))
  else .fin neg (frac + 2 ^ (f.p - 1)) ((ex : Int) - f.bias - (f.p - 1))

/-- A result with the FCSR flags it sets: bit 4 NV, 5 DZ, 6 OF, 7 UF, 8 NX. -/
structure FpRes where
  bits : Nat
  flags : Nat
  deriving DecidableEq, Repr

abbrev flagNV : Nat := 0x10
abbrev flagDZ : Nat := 0x20
abbrev flagOF : Nat := 0x40
abbrev flagUF : Nat := 0x80
abbrev flagNX : Nat := 0x100

/-- How many bits a number has. -/
def bitLen (n : Nat) : Nat := if n = 0 then 0 else Nat.log2 n + 1

/-- Rounds `m / 2^k` to a whole number in rounding mode `rm` (R166): 0 nearest even, 1 toward zero, 2 toward −∞,
3 toward +∞. -/
def roundShift (rm : Nat) (neg : Bool) (m k : Nat) : Nat :=
  let q := m / 2 ^ k
  let r := m % 2 ^ k
  if r = 0 then q
  else
    let up := match rm with
      | 0 => decide (2 ^ k < 2 * r) || (2 * r == 2 ^ k && q % 2 == 1)
      | 1 => false
      | 2 => neg
      | _ => !neg
    if up then q + 1 else q

/-- Rounds (−1)^neg × m × 2^e, with m not 0, to a format: tininess is detected after rounding, and UF is set only for
a tiny inexact result (R166). -/
def fpRound (f : Fmt) (rm : Nat) (neg : Bool) (m : Nat) (e : Int) : FpRes :=
  let top := e + (bitLen m : Int) - 1
  let q := max (top - (f.p - 1)) (f.emin - (f.p - 1))
  let k := (q - e).toNat
  let sig := if q ≤ e then m * 2 ^ (e - q).toNat else roundShift rm neg m k
  let inexact := decide (e < q) && m % 2 ^ k != 0
  let q' := if sig = 2 ^ f.p then q + 1 else q
  let sig' := if sig = 2 ^ f.p then 2 ^ (f.p - 1) else sig
  let ku := (top - (f.p - 1) - e).toNat
  let sigU := if top - (f.p - 1) ≤ e then 2 ^ (f.p - 1) else roundShift rm neg m ku
  let tiny := decide (top < f.emin) && !(top + 1 == f.emin && sigU == 2 ^ f.p)
  let nx := if inexact then flagNX else 0
  let sign := if neg then 2 ^ (f.width - 1) else 0
  if sig' < 2 ^ (f.p - 1) then
    ⟨sign + sig', nx + (if tiny && inexact then flagUF else 0)⟩
  else
    let ex := q' + (f.p - 1) + f.bias
    if f.emax < q' + (f.p - 1) then
      let toInf := match rm with | 0 => true | 1 => false | 2 => neg | _ => !neg
      ⟨if toInf then f.inf neg else f.maxFinite neg, flagOF + flagNX⟩
    else
      ⟨sign + ex.toNat * 2 ^ (f.p - 1) + (sig' - 2 ^ (f.p - 1)), nx + (if tiny && inexact then flagUF else 0)⟩

/-- An exact signed sum m × 2^e; an exact zero takes `zeroNeg`. -/
def fpPack (f : Fmt) (rm : Nat) (m : Int) (e : Int) (zeroNeg : Bool) : FpRes :=
  if m = 0 then ⟨f.zero zeroNeg, 0⟩ else fpRound f rm (decide (m < 0)) m.natAbs e

/-- The signed significand of a finite number. -/
def signedSig (neg : Bool) (m : Nat) : Int := if neg then -(m : Int) else m

/-- The result that a NaN operand gives: the canonical quiet NaN, with NV for a signalling operand. -/
def fpNan (f : Fmt) (nv : Bool) : FpRes := ⟨f.nan, if nv then flagNV else 0⟩

/-- Whether a value is a signalling NaN. -/
def Fpv.isSnan : Fpv → Bool | .nan s => s | _ => false
/-- Whether a value is a NaN. -/
def Fpv.isNan : Fpv → Bool | .nan _ => true | _ => false

/-- Changes the sign of a value. -/
def Fpv.negate : Fpv → Fpv
  | .nan s => .nan s
  | .inf n => .inf (!n)
  | .fin n m e => .fin (!n) m e

/-- The sum of two values, rounded once. -/
def fpAddV (f : Fmt) (rm : Nat) (a b : Fpv) : FpRes :=
  match a, b with
  | .nan s, y => fpNan f (s || y.isSnan)
  | _, .nan s => fpNan f s
  | .inf x, .inf y => if x = y then ⟨f.inf x, 0⟩ else fpNan f true
  | .inf x, .fin .. => ⟨f.inf x, 0⟩
  | .fin .., .inf y => ⟨f.inf y, 0⟩
  | .fin na ma ea, .fin nb mb eb =>
    let e := min ea eb
    let m := signedSig na ma * 2 ^ (ea - e).toNat + signedSig nb mb * 2 ^ (eb - e).toNat
    let zeroNeg := if ma = 0 ∧ mb = 0 ∧ na = nb then na else rm == 2
    fpPack f rm m e zeroNeg

def fpAdd (f : Fmt) (rm a b : Nat) : FpRes := fpAddV f rm (fpDecode f a) (fpDecode f b)
def fpSub (f : Fmt) (rm a b : Nat) : FpRes := fpAddV f rm (fpDecode f a) (fpDecode f b).negate

/-- The product of two values, rounded once. -/
def fpMul (f : Fmt) (rm a b : Nat) : FpRes :=
  match fpDecode f a, fpDecode f b with
  | .nan s, y => fpNan f (s || y.isSnan)
  | _, .nan s => fpNan f s
  | .inf x, .inf y => ⟨f.inf (x != y), 0⟩
  | .inf x, .fin y m _ => if m = 0 then fpNan f true else ⟨f.inf (x != y), 0⟩
  | .fin x m _, .inf y => if m = 0 then fpNan f true else ⟨f.inf (x != y), 0⟩
  | .fin x ma ea, .fin y mb eb =>
    if ma * mb = 0 then ⟨f.zero (x != y), 0⟩ else fpRound f rm (x != y) (ma * mb) (ea + eb)

/-- The quotient: enough bits and a sticky bit stand for the exact value. -/
def fpDiv (f : Fmt) (rm a b : Nat) : FpRes :=
  match fpDecode f a, fpDecode f b with
  | .nan s, y => fpNan f (s || y.isSnan)
  | _, .nan s => fpNan f s
  | .inf _, .inf _ => fpNan f true
  | .inf x, .fin y _ _ => ⟨f.inf (x != y), 0⟩
  | .fin x _ _, .inf y => ⟨f.zero (x != y), 0⟩
  | .fin x ma ea, .fin y mb eb =>
    if mb = 0 then (if ma = 0 then fpNan f true else ⟨f.inf (x != y), flagDZ⟩)
    else if ma = 0 then ⟨f.zero (x != y), 0⟩
    else
      let k := 2 * f.p + 4 + bitLen mb
      let q := ma * 2 ^ k / mb
      let sticky := if ma * 2 ^ k % mb = 0 then 0 else 1
      fpRound f rm (x != y) (2 * q + sticky) (ea - eb - k - 1)

/-- The whole square root by bisection: the largest r below `2^n` with r² ≤ m. -/
def isqrt (m : Nat) : Nat → Nat
  | 0 => 0
  | n + 1 =>
    let r := 2 * isqrt (m / 4) n
    if (r + 1) * (r + 1) ≤ m then r + 1 else r

/-- The square root. -/
def fpSqrt (f : Fmt) (rm a : Nat) : FpRes :=
  match fpDecode f a with
  | .nan s => fpNan f s
  | .inf false => ⟨f.inf false, 0⟩
  | .inf true => fpNan f true
  | .fin x m e =>
    if m = 0 then ⟨f.zero x, 0⟩
    else if x then fpNan f true
    else
      let e' := if e % 2 = 0 then e else e - 1
      let m' := if e % 2 = 0 then m else 2 * m
      let k := f.p + 4
      let mm := m' * 2 ^ (2 * k)
      let r := isqrt mm (bitLen mm)
      let sticky := if r * r = mm then 0 else 1
      fpRound f rm false (2 * r + sticky) (e' / 2 - k - 1)

/-- ±(a × b) ± c with one rounding; 0 × ∞ sets NV even beside a quiet NaN (R167). -/
def fpFma (f : Fmt) (rm : Nat) (negP negC : Bool) (a b c : Nat) : FpRes :=
  let vc := if negC then (fpDecode f c).negate else fpDecode f c
  match fpDecode f a, fpDecode f b with
  | .nan s, y => fpNan f (s || y.isSnan || vc.isSnan)
  | x, .nan s => fpNan f (s || x.isSnan || vc.isSnan)
  | .inf x, .inf y => addInf ((x != y) != negP) vc
  | .inf x, .fin y m _ => if m = 0 then fpNan f true else addInf ((x != y) != negP) vc
  | .fin x m _, .inf y => if m = 0 then fpNan f true else addInf ((x != y) != negP) vc
  | .fin x ma ea, .fin y mb eb =>
    match vc with
    | .nan s => fpNan f s
    | .inf z => ⟨f.inf z, 0⟩
    | .fin z mc ec => fpAddV f rm (.fin ((x != y) != negP) (ma * mb) (ea + eb)) (.fin z mc ec)
where
  /-- An infinite product plus the third operand. -/
  addInf (n : Bool) : Fpv → FpRes
    | .nan s => fpNan f s
    | .inf z => if z = n then ⟨f.inf n, 0⟩ else fpNan f true
    | .fin .. => ⟨f.inf n, 0⟩

/-- The order of two values that are no NaN: −1, 0 or 1. -/
def fpOrder (a b : Fpv) : Int :=
  match a, b with
  | .inf x, .inf y => if x = y then 0 else if x then -1 else 1
  | .inf x, _ => if x then -1 else 1
  | _, .inf y => if y then 1 else -1
  | .fin na ma ea, .fin nb mb eb =>
    let e := min ea eb
    let x := signedSig na ma * 2 ^ (ea - e).toNat
    let y := signedSig nb mb * 2 ^ (eb - e).toNat
    if x < y then -1 else if y < x then 1 else 0
  | .nan _, _ => 0
  | _, .nan _ => 0

/-- Minimum or maximum; a NaN operand is ignored unless both are NaN; −0 lies below +0. -/
def fpMinMax (f : Fmt) (wantMax : Bool) (a b : Nat) : FpRes :=
  let va := fpDecode f a
  let vb := fpDecode f b
  let nv := if va.isSnan || vb.isSnan then flagNV else 0
  if va.isNan && vb.isNan then ⟨f.nan, nv⟩
  else if va.isNan then ⟨b % 2 ^ f.width, nv⟩
  else if vb.isNan then ⟨a % 2 ^ f.width, nv⟩
  else
    let o := fpOrder va vb
    let aNeg := a / 2 ^ (f.width - 1) % 2 == 1
    let aLow := decide (o < 0) || (o == 0 && aNeg)
    ⟨(if aLow != wantMax then a else b) % 2 ^ f.width, nv⟩

/-- Conversion to another format. -/
def fpConvert (src dst : Fmt) (rm a : Nat) : FpRes :=
  match fpDecode src a with
  | .nan s => fpNan dst s
  | .inf n => ⟨dst.inf n, 0⟩
  | .fin n m e => if m = 0 then ⟨dst.zero n, 0⟩ else fpRound dst rm n m e

/-- Rounded toward zero to a signed 64-bit integer, saturating (R167, FTOI): the value and the flags. -/
def fpToInt (f : Fmt) (a : Nat) : Int × Nat :=
  match fpDecode f a with
  | .nan _ => (0, flagNV)
  | .inf n => (if n then -2 ^ 63 else 2 ^ 63 - 1, flagNV)
  | .fin n m e =>
    let mag := if 0 ≤ e then m * 2 ^ e.toNat else m / 2 ^ (-e).toNat
    let exact := decide (0 ≤ e) || m % 2 ^ (-e).toNat == 0
    let v := signedSig n mag
    if v < -2 ^ 63 then (-2 ^ 63, flagNV)
    else if (2 : Int) ^ 63 - 1 < v then (2 ^ 63 - 1, flagNV)
    else (v, if exact then 0 else flagNX)

/-- An integer rounded to a format. -/
def fpOfInt (f : Fmt) (rm : Nat) (i : Int) : FpRes := fpPack f rm i 0 false

/-- The compares of R167: 0 EQ, 1 LT, 2 LE, 3 UN; the condition and the flags. -/
def fpCompare (f : Fmt) (kind a b : Nat) : Bool × Nat :=
  let va := fpDecode f a
  let vb := fpDecode f b
  if va.isNan || vb.isNan then
    let nv := kind == 1 || kind == 2 || va.isSnan || vb.isSnan
    (kind == 3, if nv then flagNV else 0)
  else
    let o := fpOrder va vb
    (match kind with | 0 => o == 0 | 1 => decide (o < 0) | 2 => decide (o ≤ 0) | _ => false, 0)

end Sys2Proof.Machine
end

