-- ==== Sys2Proof/Config.lean ====
section
/-! DEFINITION. What an implementation fixes and what the spec leaves open: free values without a body, and the
cryptographic and numeric primitives that the spec takes from cited standards. Nothing in Lean can evaluate them, so a
claim holds whatever they are. -/

namespace Sys2Proof.Config

/-- A fresh value that the spec leaves open, by the place it is drawn for and the count of draws.
[DESIGN CHOICE, log entry 13] -/
opaque freeValue : Nat → Nat → Nat

/-- AES-CMAC of a message under a key (R107): 16 bytes. [DESIGN CHOICE, log entry 15] -/
opaque aesCmac : List Byte → List Byte → List Byte

/-- SHA-384 of a message (R133, R137): 48 bytes. [DESIGN CHOICE, log entry 15] -/
opaque sha384 : List Byte → List Byte

/-- Whether an ECDSA P-384 signature verifies: public key, digest, signature (R133). [DESIGN CHOICE, log entry 15] -/
opaque ecdsaVerify : List Byte → List Byte → List Byte → Bool

/-- The fused SHA-384 hash of firmware key `i` (R133). [DESIGN CHOICE, log entry 8] -/
opaque fuseKeyHash : Nat → List Byte

/-- Revoked firmware keys and the minimum security version as the fuses were made (R133, R151).
[DESIGN CHOICE, log entry 8] -/
opaque fuseRevoked : Nat
opaque fuseMinSvn : Nat

/-- The fuse record that M0 is extended by (R137). [DESIGN CHOICE, log entry 8] -/
opaque fuseRecord : List Byte

/-- HMAC-SHA-384 and HMAC-SHA-256: key, message (R534, R538). [DESIGN CHOICE, log entry 15] -/
opaque hmac384 : List Byte → List Byte → List Byte
opaque hmac256 : List Byte → List Byte → List Byte

/-- The P-384 public key of a private key, 96 bytes (R533). [DESIGN CHOICE, log entry 15] -/
opaque p384Pub : List Byte → List Byte

/-- The x-coordinate of the ECDH of a private and a public P-384 key, 48 bytes (R536).
[DESIGN CHOICE, log entry 15] -/
opaque ecdh : List Byte → List Byte → List Byte

/-- The device identity private key of a 512-bit KDF output (R533). [DESIGN CHOICE, log entry 15] -/
opaque identityKey : List Byte → List Byte

/-- An ECDSA P-384 signature: private key, message, and the random value of the signature (R264, R538).
[DESIGN CHOICE, log entry 15] -/
opaque ecdsaSign : List Byte → List Byte → Nat → List Byte

/-- AES-256-GCM: key, nonce, associated data, plain text; the cipher text followed by the 16-byte tag (R264, R538).
[DESIGN CHOICE, log entry 15] -/
opaque gcmSeal : List Byte → List Byte → List Byte → List Byte → List Byte

/-- AES-256-GCM open of cipher text and tag: the plain text, or none where the tag does not verify.
[DESIGN CHOICE, log entry 15] -/
opaque gcmOpen : List Byte → List Byte → List Byte → List Byte → Option (List Byte)

/-- A point given as x then y lies on P-384 (R548). [DESIGN CHOICE, log entry 15] -/
opaque p384OnCurve : List Byte → Bool

/-- The export wrap of R545 under
RFC 3394: wrapping key, attribute word bound in as associated data, key. The spec does not say how RFC 3394 binds it.
[DESIGN CHOICE, log entry 15; DEDUCED, log entry 115] -/
opaque wrap3394 : List Byte → List Byte → List Byte → List Byte

/-- AES key wrap with padding of RFC 5649: key, data. [DESIGN CHOICE, log entry 15] -/
opaque wrap5649 : List Byte → List Byte → List Byte
opaque unwrap5649 : List Byte → List Byte → Option (List Byte)

/-- Density in kg/m³ and specific enthalpy in kJ/kg of water by IAPWS-IF97 region 1, FP64, of a pressure in MPa and a
temperature in °C, both FP64 (R382). [DESIGN CHOICE, log entry 16] -/
opaque waterDensity : Nat → Nat → Nat
opaque waterEnthalpy : Nat → Nat → Nat

/-- The equivalent time of one second at a junction temperature in 0.1 °C, in units of 2^-32 s: the Arrhenius
acceleration of R587, whose exponential the spec gives no precision. [DESIGN CHOICE, log entry 16] -/
opaque accel : Int → Nat

/-- The fused base MAC address divided by 32 (R414). [DESIGN CHOICE, log entry 8] -/
opaque fuseMac : Nat

/-- The UNIT_SEL strap is high: the part is unit B (R499). [DESIGN CHOICE, log entry 8] -/
opaque strapB : Bool

end Sys2Proof.Config
end

