-- ==== Sys2Proof/Machine/Regs.lean ====
section
/-! DEFINITION. The register map: the address of every register and what its access code, reset value,
lock, privilege and power domain are (R5 to R17, R33, R47, R87, and the register table of every chapter). -/

namespace Sys2Proof.Machine

namespace R

/-- `SYS.ID`. -/
abbrev SYS_ID : Nat := 0x4000000
/-- `SYS.LOCK`. -/
abbrev SYS_LOCK : Nat := 0x400000C
/-- `SYS.MEMCFG`. -/
abbrev SYS_MEMCFG : Nat := 0x4000010
/-- `SYS.RESET_CAUSE`. -/
abbrev SYS_RESET_CAUSE : Nat := 0x4000020
/-- `SYS.BOOT_STATUS`. -/
abbrev SYS_BOOT_STATUS : Nat := 0x4000024
/-- `SYS.START_CFG`. -/
abbrev SYS_START_CFG : Nat := 0x4000028
/-- `SYS.DOMAIN_STATE`. -/
abbrev SYS_DOMAIN_STATE : Nat := 0x4000030
/-- `SYS.DOMAIN_PENDING`. -/
abbrev SYS_DOMAIN_PENDING : Nat := 0x4000034
/-- `SYS.DOMAIN_FAULT`. -/
abbrev SYS_DOMAIN_FAULT : Nat := 0x4000038
/-- `SYS.FUSE_FW`. -/
abbrev SYS_FUSE_FW : Nat := 0x4000040
/-- `SYS.FW_VERSION`. -/
abbrev SYS_FW_VERSION : Nat := 0x4000044
/-- `SYS.CAPS[i]`. -/
abbrev SYS_CAPS (i : Nat) : Nat := 0x4000100 + 0x4 * i
/-- `SYS.MEAS[i]`, word or sub-index `j`. -/
abbrev SYS_MEAS (i j : Nat) : Nat := 0x4000200 + 0x30 * i + 0x4 * j
/-- `CMD.SESSION`. -/
abbrev CMD_SESSION : Nat := 0x4100000
/-- `CMD.INFLIGHT`. -/
abbrev CMD_INFLIGHT : Nat := 0x4100004
/-- `CMD.INFLIGHT_PEAK`. -/
abbrev CMD_INFLIGHT_PEAK : Nat := 0x4100008
/-- `CMD.BUSY_COUNT`. -/
abbrev CMD_BUSY_COUNT : Nat := 0x410000C
/-- `CMD.ETH_CFG`. -/
abbrev CMD_ETH_CFG : Nat := 0x4100010
/-- `CMD.ETH_DROPS`. -/
abbrev CMD_ETH_DROPS : Nat := 0x4100014
/-- `CMD.AUTH_FAILS`. -/
abbrev CMD_AUTH_FAILS : Nat := 0x4100018
/-- `CMD.AUTH_LOCK`. -/
abbrev CMD_AUTH_LOCK : Nat := 0x410001C
/-- `CMD.NOTIFY_ENABLE`. -/
abbrev CMD_NOTIFY_ENABLE : Nat := 0x4100020
/-- `CMD.NOTIFY_STATUS`. -/
abbrev CMD_NOTIFY_STATUS : Nat := 0x4100024
/-- `CMD.RING_SQ_BASE_LO[i]`. -/
abbrev CMD_RING_SQ_BASE_LO (i : Nat) : Nat := 0x4100100 + 0x40 * i
/-- `CMD.RING_SQ_BASE_HI[i]`. -/
abbrev CMD_RING_SQ_BASE_HI (i : Nat) : Nat := 0x4100104 + 0x40 * i
/-- `CMD.RING_CQ_BASE_LO[i]`. -/
abbrev CMD_RING_CQ_BASE_LO (i : Nat) : Nat := 0x4100108 + 0x40 * i
/-- `CMD.RING_CQ_BASE_HI[i]`. -/
abbrev CMD_RING_CQ_BASE_HI (i : Nat) : Nat := 0x410010C + 0x40 * i
/-- `CMD.RING_SHADOW_LO[i]`. -/
abbrev CMD_RING_SHADOW_LO (i : Nat) : Nat := 0x4100110 + 0x40 * i
/-- `CMD.RING_SHADOW_HI[i]`. -/
abbrev CMD_RING_SHADOW_HI (i : Nat) : Nat := 0x4100114 + 0x40 * i
/-- `CMD.RING_CFG[i]`. -/
abbrev CMD_RING_CFG (i : Nat) : Nat := 0x4100118 + 0x40 * i
/-- `CMD.RING_STATUS[i]`. -/
abbrev CMD_RING_STATUS (i : Nat) : Nat := 0x410011C + 0x40 * i
/-- `CMD.RING_SQ_HEAD[i]`. -/
abbrev CMD_RING_SQ_HEAD (i : Nat) : Nat := 0x4100120 + 0x40 * i
/-- `CMD.RING_SQ_TAIL[i]`. -/
abbrev CMD_RING_SQ_TAIL (i : Nat) : Nat := 0x4100124 + 0x40 * i
/-- `CMD.RING_CQ_HEAD[i]`. -/
abbrev CMD_RING_CQ_HEAD (i : Nat) : Nat := 0x4100128 + 0x40 * i
/-- `CMD.RING_CQ_TAIL[i]`. -/
abbrev CMD_RING_CQ_TAIL (i : Nat) : Nat := 0x410012C + 0x40 * i
/-- `CMD.RING_INFLIGHT[i]`. -/
abbrev CMD_RING_INFLIGHT (i : Nat) : Nat := 0x4100130 + 0x40 * i
/-- `SPINE.INFLIGHT`. -/
abbrev SPINE_INFLIGHT : Nat := 0x4200000
/-- `SPINE.INFLIGHT_PEAK`. -/
abbrev SPINE_INFLIGHT_PEAK : Nat := 0x4200004
/-- `SPINE.INIT_INFLIGHT[i]`. -/
abbrev SPINE_INIT_INFLIGHT (i : Nat) : Nat := 0x4200100 + 0x4 * i
/-- `SPINE.INIT_PEAK[i]`. -/
abbrev SPINE_INIT_PEAK (i : Nat) : Nat := 0x4200200 + 0x4 * i
/-- `SPINE.INIT_STALLS[i]`. -/
abbrev SPINE_INIT_STALLS (i : Nat) : Nat := 0x4200300 + 0x4 * i
/-- `XING.RESYNC_STATUS`. -/
abbrev XING_RESYNC_STATUS : Nat := 0x4F00000
/-- `XING.BLOCKED`. -/
abbrev XING_BLOCKED : Nat := 0x4F00004
/-- `XING.BLOCK_TIMEOUT`. -/
abbrev XING_BLOCK_TIMEOUT : Nat := 0x4F00008
/-- `XING.COMPAT`. -/
abbrev XING_COMPAT : Nat := 0x4F00010
/-- `XING.EVT_STATUS`. -/
abbrev XING_EVT_STATUS : Nat := 0x4F00014
/-- `XING.EVT_EDGES[i]`. -/
abbrev XING_EVT_EDGES (i : Nat) : Nat := 0x4F00080 + 0x4 * i
/-- `XING.DISCARDS[i]`. -/
abbrev XING_DISCARDS (i : Nat) : Nat := 0x4F00100 + 0x4 * i
/-- `XING.RESYNCS[i]`. -/
abbrev XING_RESYNCS (i : Nat) : Nat := 0x4F00200 + 0x4 * i
/-- `LC.STATE[i]`. -/
abbrev LC_STATE (i : Nat) : Nat := 0x5001000 + 0x40 * i
/-- `LC.DEBUG[i]`. -/
abbrev LC_DEBUG (i : Nat) : Nat := 0x5001004 + 0x40 * i
/-- `LC.TRAPS[i]`. -/
abbrev LC_TRAPS (i : Nat) : Nat := 0x5001008 + 0x40 * i
/-- `LC.LAST_CAUSE[i]`. -/
abbrev LC_LAST_CAUSE (i : Nat) : Nat := 0x500100C + 0x40 * i
/-- `LC.LAST_PC_LO[i]`. -/
abbrev LC_LAST_PC_LO (i : Nat) : Nat := 0x5001010 + 0x40 * i
/-- `LC.LAST_PC_HI[i]`. -/
abbrev LC_LAST_PC_HI (i : Nat) : Nat := 0x5001014 + 0x40 * i
/-- `LC.LAST_VAL_LO[i]`. -/
abbrev LC_LAST_VAL_LO (i : Nat) : Nat := 0x5001018 + 0x40 * i
/-- `LC.LAST_VAL_HI[i]`. -/
abbrev LC_LAST_VAL_HI (i : Nat) : Nat := 0x500101C + 0x40 * i
/-- `LC.HOLDPT_SKIPS[i]`. -/
abbrev LC_HOLDPT_SKIPS (i : Nat) : Nat := 0x5001020 + 0x40 * i
/-- `LC.PARITY_REFETCH[i]`. -/
abbrev LC_PARITY_REFETCH (i : Nat) : Nat := 0x5001024 + 0x40 * i
/-- `CYC.MODE`. -/
abbrev CYC_MODE : Nat := 0x4300000
/-- `CYC.CTRL`. -/
abbrev CYC_CTRL : Nat := 0x4300004
/-- `CYC.CHANGE_WAIT_MAX`. -/
abbrev CYC_CHANGE_WAIT_MAX : Nat := 0x4300008
/-- `CYC.CHANGE_STATUS`. -/
abbrev CYC_CHANGE_STATUS : Nat := 0x430000C
/-- `CYC.LAST_SWITCH`. -/
abbrev CYC_LAST_SWITCH : Nat := 0x4300010
/-- `CYC.FORCE_COUNT`. -/
abbrev CYC_FORCE_COUNT : Nat := 0x4300014
/-- `CYC.SCHED_FAULTS`. -/
abbrev CYC_SCHED_FAULTS : Nat := 0x4300018
/-- `CYC.FRAME`. -/
abbrev CYC_FRAME : Nat := 0x430001C
/-- `CYC.IMAGE_BASE`. -/
abbrev CYC_IMAGE_BASE : Nat := 0x4300020
/-- `CYC.SIGNALS`. -/
abbrev CYC_SIGNALS : Nat := 0x4300024
/-- `CYC.PROGRAM_ID`. -/
abbrev CYC_PROGRAM_ID : Nat := 0x4300028
/-- `CYC.BUILD_ID_LO`. -/
abbrev CYC_BUILD_ID_LO : Nat := 0x430002C
/-- `CYC.BUILD_ID_HI`. -/
abbrev CYC_BUILD_ID_HI : Nat := 0x4300030
/-- `CYC.TASK_CFG[i]`. -/
abbrev CYC_TASK_CFG (i : Nat) : Nat := 0x4301000 + 0x40 * i
/-- `CYC.PERIOD[i]`. -/
abbrev CYC_PERIOD (i : Nat) : Nat := 0x4301004 + 0x40 * i
/-- `CYC.PHASE[i]`. -/
abbrev CYC_PHASE (i : Nat) : Nat := 0x4301008 + 0x40 * i
/-- `CYC.WDOG[i]`. -/
abbrev CYC_WDOG (i : Nat) : Nat := 0x430100C + 0x40 * i
/-- `CYC.ENTRY[i]`. -/
abbrev CYC_ENTRY (i : Nat) : Nat := 0x4301010 + 0x40 * i
/-- `CYC.DATA_BASE_LO[i]`. -/
abbrev CYC_DATA_BASE_LO (i : Nat) : Nat := 0x4301014 + 0x40 * i
/-- `CYC.DATA_BASE_HI[i]`. -/
abbrev CYC_DATA_BASE_HI (i : Nat) : Nat := 0x4301018 + 0x40 * i
/-- `CYC.BUF_OFF[i]`. -/
abbrev CYC_BUF_OFF (i : Nat) : Nat := 0x430101C + 0x40 * i
/-- `CYC.SAVE_OFF[i]`. -/
abbrev CYC_SAVE_OFF (i : Nat) : Nat := 0x4301020 + 0x40 * i
/-- `CYC.IN_MAP_OFF[i]`. -/
abbrev CYC_IN_MAP_OFF (i : Nat) : Nat := 0x4301024 + 0x40 * i
/-- `CYC.IN_RUNS[i]`. -/
abbrev CYC_IN_RUNS (i : Nat) : Nat := 0x4301028 + 0x40 * i
/-- `CYC.OUT_MAP_OFF[i]`. -/
abbrev CYC_OUT_MAP_OFF (i : Nat) : Nat := 0x430102C + 0x40 * i
/-- `CYC.OUT_RUNS[i]`. -/
abbrev CYC_OUT_RUNS (i : Nat) : Nat := 0x4301030 + 0x40 * i
/-- `CYC.SEG_MASK[i]`. -/
abbrev CYC_SEG_MASK (i : Nat) : Nat := 0x4301034 + 0x40 * i
/-- `CYC.IN_COUNT[i]`. -/
abbrev CYC_IN_COUNT (i : Nat) : Nat := 0x4301038 + 0x40 * i
/-- `CYC.OUT_COUNT[i]`. -/
abbrev CYC_OUT_COUNT (i : Nat) : Nat := 0x430103C + 0x40 * i
/-- `CYC.TASK_STATE[i]`. -/
abbrev CYC_TASK_STATE (i : Nat) : Nat := 0x4302000 + 0x20 * i
/-- `CYC.OVERRUNS[i]`. -/
abbrev CYC_OVERRUNS (i : Nat) : Nat := 0x4302004 + 0x20 * i
/-- `CYC.SKIPPED[i]`. -/
abbrev CYC_SKIPPED (i : Nat) : Nat := 0x4302008 + 0x20 * i
/-- `CYC.EXEC_LAST[i]`. -/
abbrev CYC_EXEC_LAST (i : Nat) : Nat := 0x430200C + 0x20 * i
/-- `CYC.EXEC_MAX[i]`. -/
abbrev CYC_EXEC_MAX (i : Nat) : Nat := 0x4302010 + 0x20 * i
/-- `CYC.STAGE_LEAD[i]`. -/
abbrev CYC_STAGE_LEAD (i : Nat) : Nat := 0x4302014 + 0x20 * i
/-- `CYC.CYCLE_LO[i]`. -/
abbrev CYC_CYCLE_LO (i : Nat) : Nat := 0x4302018 + 0x20 * i
/-- `CYC.CYCLE_HI[i]`. -/
abbrev CYC_CYCLE_HI (i : Nat) : Nat := 0x430201C + 0x20 * i
/-- `STN.ETHERTYPE`. -/
abbrev STN_ETHERTYPE : Nat := 0x4400000
/-- `STN.CONTEXTS_USED`. -/
abbrev STN_CONTEXTS_USED : Nat := 0x4400004
/-- `STN.TAG_FAILS`. -/
abbrev STN_TAG_FAILS : Nat := 0x4400008
/-- `STN.BAD_FRAMES`. -/
abbrev STN_BAD_FRAMES : Nat := 0x440000C
/-- `STN.APPLY_DELAY[i]`. -/
abbrev STN_APPLY_DELAY (i : Nat) : Nat := 0x4400800 + 0x4 * i
/-- `STN.SEG_STATE[i]`. -/
abbrev STN_SEG_STATE (i : Nat) : Nat := 0x4401000 + 0x40 * i
/-- `STN.SEG_MIN_CYCLE[i]`. -/
abbrev STN_SEG_MIN_CYCLE (i : Nat) : Nat := 0x4401004 + 0x40 * i
/-- `STN.SEG_STAGE_WIN[i]`. -/
abbrev STN_SEG_STAGE_WIN (i : Nat) : Nat := 0x4401008 + 0x40 * i
/-- `STN.SEG_DMAX[i]`. -/
abbrev STN_SEG_DMAX (i : Nat) : Nat := 0x440100C + 0x40 * i
/-- `STN.SEG_DMEAS[i]`. -/
abbrev STN_SEG_DMEAS (i : Nat) : Nat := 0x4401010 + 0x40 * i
/-- `STN.SEG_JOIN_WINDOW[i]`. -/
abbrev STN_SEG_JOIN_WINDOW (i : Nat) : Nat := 0x4401014 + 0x40 * i
/-- `STN.SEG_ABSENT[i]`. -/
abbrev STN_SEG_ABSENT (i : Nat) : Nat := 0x4401018 + 0x40 * i
/-- `STN.SEG_COMMIT_MISSED[i]`. -/
abbrev STN_SEG_COMMIT_MISSED (i : Nat) : Nat := 0x440101C + 0x40 * i
/-- `STN.SEG_JOINS_DEFERRED[i]`. -/
abbrev STN_SEG_JOINS_DEFERRED (i : Nat) : Nat := 0x4401020 + 0x40 * i
/-- `STN.QCLASS[i]`, word or sub-index `j`. -/
abbrev STN_QCLASS (i j : Nat) : Nat := 0x4404000 + 0x20 * i + 0x4 * j
/-- `SOLV.PSUBMIT_LO`. -/
abbrev SOLV_PSUBMIT_LO : Nat := 0x4500000
/-- `SOLV.PSUBMIT_HI`. -/
abbrev SOLV_PSUBMIT_HI : Nat := 0x4500004
/-- `SOLV.PSUBMIT_RESULT`. -/
abbrev SOLV_PSUBMIT_RESULT : Nat := 0x4500008
/-- `SOLV.QUEUE`. -/
abbrev SOLV_QUEUE : Nat := 0x450000C
/-- `SOLV.QUEUE_PEAK`. -/
abbrev SOLV_QUEUE_PEAK : Nat := 0x4500010
/-- `SOLV.SUBMIT_REFUSED`. -/
abbrev SOLV_SUBMIT_REFUSED : Nat := 0x4500014
/-- `SOLV.RA_CONTINUED`. -/
abbrev SOLV_RA_CONTINUED : Nat := 0x4500018
/-- `SOLV.RA_SQUASHED`. -/
abbrev SOLV_RA_SQUASHED : Nat := 0x450001C
/-- `SOLV.LATE_ENDS`. -/
abbrev SOLV_LATE_ENDS : Nat := 0x4500020
/-- `SOLV.NUMERIC_ENDS`. -/
abbrev SOLV_NUMERIC_ENDS : Nat := 0x4500024
/-- `SOLV.PIVOT_REPLACED`. -/
abbrev SOLV_PIVOT_REPLACED : Nat := 0x4500028
/-- `SOLV.DESC_STATE[i]`. -/
abbrev SOLV_DESC_STATE (i : Nat) : Nat := 0x4500040 + 0x4 * i
/-- `SOLV.BANK_USE[i]`. -/
abbrev SOLV_BANK_USE (i : Nat) : Nat := 0x4500080 + 0x4 * i
/-- `SOLV.ENG_STATE[i]`. -/
abbrev SOLV_ENG_STATE (i : Nat) : Nat := 0x4500100 + 0x40 * i
/-- `SOLV.ENG_LANES[i]`. -/
abbrev SOLV_ENG_LANES (i : Nat) : Nat := 0x4500104 + 0x40 * i
/-- `SOLV.ENG_FAULT_MAP0[i]`. -/
abbrev SOLV_ENG_FAULT_MAP0 (i : Nat) : Nat := 0x4500108 + 0x40 * i
/-- `SOLV.ENG_FAULT_MAP1[i]`. -/
abbrev SOLV_ENG_FAULT_MAP1 (i : Nat) : Nat := 0x450010C + 0x40 * i
/-- `SOLV.ENG_FAULT_MAP2[i]`. -/
abbrev SOLV_ENG_FAULT_MAP2 (i : Nat) : Nat := 0x4500110 + 0x40 * i
/-- `SOLV.ENG_JOBS[i]`. -/
abbrev SOLV_ENG_JOBS (i : Nat) : Nat := 0x4500114 + 0x40 * i
/-- `SOLV.ENG_RESIDUE_ERR[i]`. -/
abbrev SOLV_ENG_RESIDUE_ERR (i : Nat) : Nat := 0x4500118 + 0x40 * i
/-- `SOLV.ENG_BUSY_US[i]`. -/
abbrev SOLV_ENG_BUSY_US (i : Nat) : Nat := 0x450011C + 0x40 * i
/-- `SOLV.ENG_SPEC_US[i]`. -/
abbrev SOLV_ENG_SPEC_US (i : Nat) : Nat := 0x4500120 + 0x40 * i
/-- `MET.STATUS`. -/
abbrev MET_STATUS : Nat := 0x4600000
/-- `MET.SAVE_SEQ`. -/
abbrev MET_SAVE_SEQ : Nat := 0x4600004
/-- `MET.SAVE_US`. -/
abbrev MET_SAVE_US : Nat := 0x4600008
/-- `MET.RESTORE`. -/
abbrev MET_RESTORE : Nat := 0x460000C
/-- `MET.SPILL_WRITES`. -/
abbrev MET_SPILL_WRITES : Nat := 0x4600010
/-- `MET.CLOSE_QUEUE`. -/
abbrev MET_CLOSE_QUEUE : Nat := 0x4600014
/-- `MET.COUNTER_JUMPS`. -/
abbrev MET_COUNTER_JUMPS : Nat := 0x4600018
/-- `MET.PULSE_OVERFLOW`. -/
abbrev MET_PULSE_OVERFLOW : Nat := 0x460001C
/-- `MET.WINDOW_END_LO`. -/
abbrev MET_WINDOW_END_LO : Nat := 0x4600020
/-- `MET.WINDOW_END_HI`. -/
abbrev MET_WINDOW_END_HI : Nat := 0x4600024
/-- `MET.CH_STATUS[i]`. -/
abbrev MET_CH_STATUS (i : Nat) : Nat := 0x4600100 + 0x10 * i
/-- `MET.CH_PEAK[i]`. -/
abbrev MET_CH_PEAK (i : Nat) : Nat := 0x4600104 + 0x10 * i
/-- `MET.CH_RMS[i]`. -/
abbrev MET_CH_RMS (i : Nat) : Nat := 0x4600108 + 0x10 * i
/-- `MET.CH_HCRMS[i]`. -/
abbrev MET_CH_HCRMS (i : Nat) : Nat := 0x460010C + 0x10 * i
/-- `MET.FCAL_GAIN[i]`. -/
abbrev MET_FCAL_GAIN (i : Nat) : Nat := 0x4600400 + 0x10 * i
/-- `MET.FCAL_OFFSET[i]`. -/
abbrev MET_FCAL_OFFSET (i : Nat) : Nat := 0x4600404 + 0x10 * i
/-- `MET.FCAL_DELAY[i]`. -/
abbrev MET_FCAL_DELAY (i : Nat) : Nat := 0x4600408 + 0x10 * i
/-- `MET.SET_P[i]`. -/
abbrev MET_SET_P (i : Nat) : Nat := 0x4600800 + 0x20 * i
/-- `MET.SET_Q[i]`. -/
abbrev MET_SET_Q (i : Nat) : Nat := 0x4600804 + 0x20 * i
/-- `MET.SET_S[i]`. -/
abbrev MET_SET_S (i : Nat) : Nat := 0x4600808 + 0x20 * i
/-- `MET.SET_VRMS[i]`. -/
abbrev MET_SET_VRMS (i : Nat) : Nat := 0x460080C + 0x20 * i
/-- `MET.SET_IRMS[i]`. -/
abbrev MET_SET_IRMS (i : Nat) : Nat := 0x4600810 + 0x20 * i
/-- `MET.SET_FREQ[i]`. -/
abbrev MET_SET_FREQ (i : Nat) : Nat := 0x4600814 + 0x20 * i
/-- `MET.SET_PF[i]`. -/
abbrev MET_SET_PF (i : Nat) : Nat := 0x4600818 + 0x20 * i
/-- `MET.SET_STATE[i]`. -/
abbrev MET_SET_STATE (i : Nat) : Nat := 0x460081C + 0x20 * i
/-- `NET.SWITCH_CFG`. -/
abbrev NET_SWITCH_CFG : Nat := 0x4700000
/-- `NET.FDB_COUNT`. -/
abbrev NET_FDB_COUNT : Nat := 0x4700004
/-- `NET.SA_COUNT`. -/
abbrev NET_SA_COUNT : Nat := 0x4700008
/-- `NET.MACSEC_DROPS`. -/
abbrev NET_MACSEC_DROPS : Nat := 0x470000C
/-- `NET.PCP_MAP`. -/
abbrev NET_PCP_MAP : Nat := 0x4700010
/-- `NET.IPV4_ADDR`. -/
abbrev NET_IPV4_ADDR : Nat := 0x4700014
/-- `NET.MAC_BASE_LO`. -/
abbrev NET_MAC_BASE_LO : Nat := 0x4700018
/-- `NET.MAC_BASE_HI`. -/
abbrev NET_MAC_BASE_HI : Nat := 0x470001C
/-- `NET.PORT_CFG[i]`. -/
abbrev NET_PORT_CFG (i : Nat) : Nat := 0x4701000 + 0x40 * i
/-- `NET.PORT_STATE[i]`. -/
abbrev NET_PORT_STATE (i : Nat) : Nat := 0x4701004 + 0x40 * i
/-- `NET.PORT_RX[i]`. -/
abbrev NET_PORT_RX (i : Nat) : Nat := 0x4701008 + 0x40 * i
/-- `NET.PORT_TX[i]`. -/
abbrev NET_PORT_TX (i : Nat) : Nat := 0x470100C + 0x40 * i
/-- `NET.PORT_DROPS[i]`. -/
abbrev NET_PORT_DROPS (i : Nat) : Nat := 0x4701010 + 0x40 * i
/-- `NET.PORT_FCS_ERR[i]`. -/
abbrev NET_PORT_FCS_ERR (i : Nat) : Nat := 0x4701014 + 0x40 * i
/-- `NET.PORT_LAT[i]`. -/
abbrev NET_PORT_LAT (i : Nat) : Nat := 0x4701018 + 0x40 * i
/-- `NET.PORT_LINK_DOWNS[i]`. -/
abbrev NET_PORT_LINK_DOWNS (i : Nat) : Nat := 0x470101C + 0x40 * i
/-- `TIME.NOW_FRAC`. -/
abbrev TIME_NOW_FRAC : Nat := 0x4800000
/-- `TIME.NOW_SEC_LO`. -/
abbrev TIME_NOW_SEC_LO : Nat := 0x4800004
/-- `TIME.NOW_SEC_HI`. -/
abbrev TIME_NOW_SEC_HI : Nat := 0x4800008
/-- `TIME.RAW_W0`. -/
abbrev TIME_RAW_W0 : Nat := 0x4800010
/-- `TIME.RAW_W1`. -/
abbrev TIME_RAW_W1 : Nat := 0x4800014
/-- `TIME.RAW_W2`. -/
abbrev TIME_RAW_W2 : Nat := 0x4800018
/-- `TIME.CFG`. -/
abbrev TIME_CFG : Nat := 0x4800020
/-- `TIME.GAINS`. -/
abbrev TIME_GAINS : Nat := 0x4800024
/-- `TIME.STEP_THRESH`. -/
abbrev TIME_STEP_THRESH : Nat := 0x4800028
/-- `TIME.LOCK_THRESH`. -/
abbrev TIME_LOCK_THRESH : Nat := 0x480002C
/-- `TIME.RATE_LIMIT`. -/
abbrev TIME_RATE_LIMIT : Nat := 0x4800030
/-- `TIME.HOLDOVER_MAX`. -/
abbrev TIME_HOLDOVER_MAX : Nat := 0x4800034
/-- `TIME.STEP_SETTLE`. -/
abbrev TIME_STEP_SETTLE : Nat := 0x4800038
/-- `TIME.STATE`. -/
abbrev TIME_STATE : Nat := 0x4800040
/-- `TIME.OFFSET`. -/
abbrev TIME_OFFSET : Nat := 0x4800044
/-- `TIME.RATE`. -/
abbrev TIME_RATE : Nat := 0x4800048
/-- `TIME.MEAN_PATH`. -/
abbrev TIME_MEAN_PATH : Nat := 0x480004C
/-- `TIME.SAMPLES_REJECTED`. -/
abbrev TIME_SAMPLES_REJECTED : Nat := 0x4800050
/-- `TIME.STEPS`. -/
abbrev TIME_STEPS : Nat := 0x4800054
/-- `TIME.LAST_STEP_LO`. -/
abbrev TIME_LAST_STEP_LO : Nat := 0x4800058
/-- `TIME.LAST_STEP_HI`. -/
abbrev TIME_LAST_STEP_HI : Nat := 0x480005C
/-- `TIME.PTP_UTC`. -/
abbrev TIME_PTP_UTC : Nat := 0x4800060
/-- `TIME.PORT_STATE[i]`. -/
abbrev TIME_PORT_STATE (i : Nat) : Nat := 0x4800100 + 0x4 * i
/-- `RTC.COUNT_FRAC`. -/
abbrev RTC_COUNT_FRAC : Nat := 0x4A00000
/-- `RTC.COUNT_SEC_LO`. -/
abbrev RTC_COUNT_SEC_LO : Nat := 0x4A00004
/-- `RTC.COUNT_SEC_HI`. -/
abbrev RTC_COUNT_SEC_HI : Nat := 0x4A00008
/-- `RTC.CAL_DATE`. -/
abbrev RTC_CAL_DATE : Nat := 0x4A0000C
/-- `RTC.CAL_TIME`. -/
abbrev RTC_CAL_TIME : Nat := 0x4A00010
/-- `RTC.STATUS`. -/
abbrev RTC_STATUS : Nat := 0x4A00014
/-- `RTC.HALT_TICKS`. -/
abbrev RTC_HALT_TICKS : Nat := 0x4A00018
/-- `RTC.FOLLOW_ADJ`. -/
abbrev RTC_FOLLOW_ADJ : Nat := 0x4A00028
/-- `RTC.UTC_OFFSET`. -/
abbrev RTC_UTC_OFFSET : Nat := 0x4A0002C
/-- `RTC.UTC_NEXT`. -/
abbrev RTC_UTC_NEXT : Nat := 0x4A00030
/-- `RTC.UTC_AT_LO`. -/
abbrev RTC_UTC_AT_LO : Nat := 0x4A00034
/-- `RTC.UTC_AT_HI`. -/
abbrev RTC_UTC_AT_HI : Nat := 0x4A00038
/-- `RTC.CTRL`. -/
abbrev RTC_CTRL : Nat := 0x4A0001C
/-- `RTC.FOLLOW_STEP`. -/
abbrev RTC_FOLLOW_STEP : Nat := 0x4A00020
/-- `RTC.CAL`. -/
abbrev RTC_CAL : Nat := 0x4A00024
/-- `RTC.WRITES`. -/
abbrev RTC_WRITES : Nat := 0x4A0003C
/-- `RTC.ALARM_SEC_LO[i]`. -/
abbrev RTC_ALARM_SEC_LO (i : Nat) : Nat := 0x4A00100 + 0x10 * i
/-- `RTC.ALARM_SEC_HI[i]`. -/
abbrev RTC_ALARM_SEC_HI (i : Nat) : Nat := 0x4A00104 + 0x10 * i
/-- `RTC.ALARM_FRAC[i]`. -/
abbrev RTC_ALARM_FRAC (i : Nat) : Nat := 0x4A00108 + 0x10 * i
/-- `RTC.ALARM_STATE[i]`. -/
abbrev RTC_ALARM_STATE (i : Nat) : Nat := 0x4A0010C + 0x10 * i
/-- `CAN.PSEND_LO`. -/
abbrev CAN_PSEND_LO : Nat := 0x4900000
/-- `CAN.PSEND_HI`. -/
abbrev CAN_PSEND_HI : Nat := 0x4900004
/-- `CAN.PSEND_RESULT`. -/
abbrev CAN_PSEND_RESULT : Nat := 0x4900008
/-- `CAN.STATE[i]`. -/
abbrev CAN_STATE (i : Nat) : Nat := 0x4901000 + 0x100 * i
/-- `CAN.CFG[i]`. -/
abbrev CAN_CFG (i : Nat) : Nat := 0x4901004 + 0x100 * i
/-- `CAN.NBT[i]`. -/
abbrev CAN_NBT (i : Nat) : Nat := 0x4901008 + 0x100 * i
/-- `CAN.DBT[i]`. -/
abbrev CAN_DBT (i : Nat) : Nat := 0x490100C + 0x100 * i
/-- `CAN.ERRCNT[i]`. -/
abbrev CAN_ERRCNT (i : Nat) : Nat := 0x4901010 + 0x100 * i
/-- `CAN.TXQ[i]`. -/
abbrev CAN_TXQ (i : Nat) : Nat := 0x4901014 + 0x100 * i
/-- `CAN.RXQ_HEAD[i]`. -/
abbrev CAN_RXQ_HEAD (i : Nat) : Nat := 0x4901018 + 0x100 * i
/-- `CAN.RXQ_TAIL[i]`. -/
abbrev CAN_RXQ_TAIL (i : Nat) : Nat := 0x490101C + 0x100 * i
/-- `CAN.TXC_HEAD[i]`. -/
abbrev CAN_TXC_HEAD (i : Nat) : Nat := 0x4901020 + 0x100 * i
/-- `CAN.TXC_TAIL[i]`. -/
abbrev CAN_TXC_TAIL (i : Nat) : Nat := 0x4901024 + 0x100 * i
/-- `CAN.RXQ_BASE_LO[i]`. -/
abbrev CAN_RXQ_BASE_LO (i : Nat) : Nat := 0x4901028 + 0x100 * i
/-- `CAN.RXQ_BASE_HI[i]`. -/
abbrev CAN_RXQ_BASE_HI (i : Nat) : Nat := 0x490102C + 0x100 * i
/-- `CAN.TXC_BASE_LO[i]`. -/
abbrev CAN_TXC_BASE_LO (i : Nat) : Nat := 0x4901030 + 0x100 * i
/-- `CAN.TXC_BASE_HI[i]`. -/
abbrev CAN_TXC_BASE_HI (i : Nat) : Nat := 0x4901034 + 0x100 * i
/-- `CAN.REF_ID[i]`. -/
abbrev CAN_REF_ID (i : Nat) : Nat := 0x4901038 + 0x100 * i
/-- `CAN.FUP_ID[i]`. -/
abbrev CAN_FUP_ID (i : Nat) : Nat := 0x490103C + 0x100 * i
/-- `CAN.REF_PERIOD[i]`. -/
abbrev CAN_REF_PERIOD (i : Nat) : Nat := 0x4901040 + 0x100 * i
/-- `CAN.REF_OFFSET[i]`. -/
abbrev CAN_REF_OFFSET (i : Nat) : Nat := 0x4901044 + 0x100 * i
/-- `CAN.REF_STATUS[i]`. -/
abbrev CAN_REF_STATUS (i : Nat) : Nat := 0x4901048 + 0x100 * i
/-- `CAN.TX_OK[i]`. -/
abbrev CAN_TX_OK (i : Nat) : Nat := 0x4901050 + 0x100 * i
/-- `CAN.RX_OK[i]`. -/
abbrev CAN_RX_OK (i : Nat) : Nat := 0x4901054 + 0x100 * i
/-- `CAN.RX_DROPS[i]`. -/
abbrev CAN_RX_DROPS (i : Nat) : Nat := 0x4901058 + 0x100 * i
/-- `CAN.RX_OVERFLOW[i]`. -/
abbrev CAN_RX_OVERFLOW (i : Nat) : Nat := 0x490105C + 0x100 * i
/-- `CAN.ARB_LOST[i]`. -/
abbrev CAN_ARB_LOST (i : Nat) : Nat := 0x4901060 + 0x100 * i
/-- `CAN.CLASHES[i]`. -/
abbrev CAN_CLASHES (i : Nat) : Nat := 0x4901064 + 0x100 * i
/-- `CAN.BUS_OFFS[i]`. -/
abbrev CAN_BUS_OFFS (i : Nat) : Nat := 0x4901068 + 0x100 * i
/-- `CAN.TXC_LOST[i]`. -/
abbrev CAN_TXC_LOST (i : Nat) : Nat := 0x490106C + 0x100 * i
/-- `CAN.REF_REJECTS[i]`. -/
abbrev CAN_REF_REJECTS (i : Nat) : Nat := 0x4901070 + 0x100 * i
/-- `CAN.FILT_ID[i]`, word or sub-index `j`. -/
abbrev CAN_FILT_ID (i j : Nat) : Nat := 0x4902000 + 0x200 * i + 0x10 * j
/-- `CAN.FILT_MASK[i]`, word or sub-index `j`. -/
abbrev CAN_FILT_MASK (i j : Nat) : Nat := 0x4902004 + 0x200 * i + 0x10 * j
/-- `CAN.FILT_CFG[i]`, word or sub-index `j`. -/
abbrev CAN_FILT_CFG (i j : Nat) : Nat := 0x4902008 + 0x200 * i + 0x10 * j
/-- `CAN.LVB_STATUS[i]`. -/
abbrev CAN_LVB_STATUS (i : Nat) : Nat := 0x4904000 + 0x80 * i
/-- `CAN.LVB_ID[i]`. -/
abbrev CAN_LVB_ID (i : Nat) : Nat := 0x4904004 + 0x80 * i
/-- `CAN.LVB_TSEC[i]`. -/
abbrev CAN_LVB_TSEC (i : Nat) : Nat := 0x4904008 + 0x80 * i
/-- `CAN.LVB_TFRAC[i]`. -/
abbrev CAN_LVB_TFRAC (i : Nat) : Nat := 0x490400C + 0x80 * i
/-- `CAN.LVB_DATA[i]`, word or sub-index `j`. -/
abbrev CAN_LVB_DATA (i j : Nat) : Nat := 0x4904010 + 0x80 * i + 0x4 * j
/-- `RED.ROLE`. -/
abbrev RED_ROLE : Nat := 0x4C00000
/-- `RED.CLAIM`. -/
abbrev RED_CLAIM : Nat := 0x4C00004
/-- `RED.CLAIM_SEEN`. -/
abbrev RED_CLAIM_SEEN : Nat := 0x4C00008
/-- `RED.CFG`. -/
abbrev RED_CFG : Nat := 0x4C0000C
/-- `RED.LINK`. -/
abbrev RED_LINK : Nat := 0x4C00010
/-- `RED.COPY_LAST`. -/
abbrev RED_COPY_LAST : Nat := 0x4C00014
/-- `RED.COPY_PEAK`. -/
abbrev RED_COPY_PEAK : Nat := 0x4C00018
/-- `RED.SWITCHOVERS`. -/
abbrev RED_SWITCHOVERS : Nat := 0x4C0001C
/-- `RED.LINK_RETRIES`. -/
abbrev RED_LINK_RETRIES : Nat := 0x4C00020
/-- `RED.UNSYNC_COUNT`. -/
abbrev RED_UNSYNC_COUNT : Nat := 0x4C00024
/-- `RED.GAP_LAST`. -/
abbrev RED_GAP_LAST : Nat := 0x4C00028
/-- `KEY.STATUS`. -/
abbrev KEY_STATUS : Nat := 0x4B00000
/-- `KEY.SLOTS`. -/
abbrev KEY_SLOTS : Nat := 0x4B00004
/-- `KEY.SEALED`. -/
abbrev KEY_SEALED : Nat := 0x4B00008
/-- `KEY.BANK_SEQ`. -/
abbrev KEY_BANK_SEQ : Nat := 0x4B0000C
/-- `KEY.TRNG_FAILS`. -/
abbrev KEY_TRNG_FAILS : Nat := 0x4B00010
/-- `KEY.TAMPER_CFG`. -/
abbrev KEY_TAMPER_CFG : Nat := 0x4B00040
/-- `KEY.TAMPER_FILT`. -/
abbrev KEY_TAMPER_FILT : Nat := 0x4B00044
/-- `KEY.TAMPER_STATUS`. -/
abbrev KEY_TAMPER_STATUS : Nat := 0x4B00048
/-- `KEY.TAMPER_COUNT`. -/
abbrev KEY_TAMPER_COUNT : Nat := 0x4B0004C
/-- `KEY.ID_PUB[i]`. -/
abbrev KEY_ID_PUB (i : Nat) : Nat := 0x4B00100 + 0x4 * i
/-- `KEY.TAMPER_LOG_LO[i]`. -/
abbrev KEY_TAMPER_LOG_LO (i : Nat) : Nat := 0x4B00200 + 0x10 * i
/-- `KEY.TAMPER_LOG_HI[i]`. -/
abbrev KEY_TAMPER_LOG_HI (i : Nat) : Nat := 0x4B00204 + 0x10 * i
/-- `KEY.TAMPER_LOG_FRAC[i]`. -/
abbrev KEY_TAMPER_LOG_FRAC (i : Nat) : Nat := 0x4B00208 + 0x10 * i
/-- `EVR.STATUS`. -/
abbrev EVR_STATUS : Nat := 0x4D00000
/-- `EVR.CONFIG`. -/
abbrev EVR_CONFIG : Nat := 0x4D00004
/-- `EVR.RECORDS`. -/
abbrev EVR_RECORDS : Nat := 0x4D00008
/-- `EVR.SEQ_NEWEST`. -/
abbrev EVR_SEQ_NEWEST : Nat := 0x4D0000C
/-- `EVR.SEQ_OLDEST`. -/
abbrev EVR_SEQ_OLDEST : Nat := 0x4D00010
/-- `EVR.QUEUE`. -/
abbrev EVR_QUEUE : Nat := 0x4D00014
/-- `EVR.QUEUE_PEAK`. -/
abbrev EVR_QUEUE_PEAK : Nat := 0x4D00018
/-- `EVR.LOST_PENDING`. -/
abbrev EVR_LOST_PENDING : Nat := 0x4D0001C
/-- `EVR.LOST_TOTAL`. -/
abbrev EVR_LOST_TOTAL : Nat := 0x4D00020
/-- `EVR.DROPPED`. -/
abbrev EVR_DROPPED : Nat := 0x4D00024
/-- `EVR.OVERWRITES`. -/
abbrev EVR_OVERWRITES : Nat := 0x4D00028
/-- `EVR.REPEATS`. -/
abbrev EVR_REPEATS : Nat := 0x4D0002C
/-- `EVR.FREEZE_LEFT`. -/
abbrev EVR_FREEZE_LEFT : Nat := 0x4D00030
/-- `HLT.RESERVE`. -/
abbrev HLT_RESERVE : Nat := 0x4E00000
/-- `HLT.LIFE_USED`. -/
abbrev HLT_LIFE_USED : Nat := 0x4E00004
/-- `HLT.EQUIV_S_LO`. -/
abbrev HLT_EQUIV_S_LO : Nat := 0x4E00008
/-- `HLT.EQUIV_S_HI`. -/
abbrev HLT_EQUIV_S_HI : Nat := 0x4E0000C
/-- `HLT.POWER_HOURS`. -/
abbrev HLT_POWER_HOURS : Nat := 0x4E00010
/-- `HLT.POWER_CYCLES`. -/
abbrev HLT_POWER_CYCLES : Nat := 0x4E00014
/-- `HLT.CTRL`. -/
abbrev HLT_CTRL : Nat := 0x4E00018
/-- `HLT.CORE_RETIRE`. -/
abbrev HLT_CORE_RETIRE : Nat := 0x4E0001C
/-- `HLT.SCRUB_PERIOD`. -/
abbrev HLT_SCRUB_PERIOD : Nat := 0x4E00020
/-- `HLT.SCRUB_PASSES`. -/
abbrev HLT_SCRUB_PASSES : Nat := 0x4E00024
/-- `HLT.SPARES[i]`. -/
abbrev HLT_SPARES (i : Nat) : Nat := 0x4E00040 + 0x4 * i
/-- `HLT.ECC_CORR[i]`. -/
abbrev HLT_ECC_CORR (i : Nat) : Nat := 0x4E00080 + 0x4 * i
/-- `HLT.ECC_UNCORR[i]`. -/
abbrev HLT_ECC_UNCORR (i : Nat) : Nat := 0x4E000A0 + 0x4 * i
/-- `HLT.SENSOR_LO[i]`. -/
abbrev HLT_SENSOR_LO (i : Nat) : Nat := 0x4E00100 + 0x8 * i
/-- `HLT.SENSOR_HI[i]`. -/
abbrev HLT_SENSOR_HI (i : Nat) : Nat := 0x4E00104 + 0x8 * i
/-- `HLT.PERF_SEL[i]`. -/
abbrev HLT_PERF_SEL (i : Nat) : Nat := 0x4E00400 + 0x4 * i
/-- `HLT.PERF_LO[i]`. -/
abbrev HLT_PERF_LO (i : Nat) : Nat := 0x4E00500 + 0x8 * i
/-- `HLT.PERF_HI[i]`. -/
abbrev HLT_PERF_HI (i : Nat) : Nat := 0x4E00504 + 0x8 * i
/-- `HLT.PERF_OVF_LO`. -/
abbrev HLT_PERF_OVF_LO : Nat := 0x4E00700
/-- `HLT.PERF_OVF_HI`. -/
abbrev HLT_PERF_OVF_HI : Nat := 0x4E00704
/-- `HLT.PERF_CTRL`. -/
abbrev HLT_PERF_CTRL : Nat := 0x4E00708
/-- `HLT.BW_WINDOW`. -/
abbrev HLT_BW_WINDOW : Nat := 0x4E00800
/-- `HLT.BW_SEQ`. -/
abbrev HLT_BW_SEQ : Nat := 0x4E00804
/-- `HLT.BW_RX_LO[i]`. -/
abbrev HLT_BW_RX_LO (i : Nat) : Nat := 0x4E00900 + 0x10 * i
/-- `HLT.BW_RX_HI[i]`. -/
abbrev HLT_BW_RX_HI (i : Nat) : Nat := 0x4E00904 + 0x10 * i
/-- `HLT.BW_TX_LO[i]`. -/
abbrev HLT_BW_TX_LO (i : Nat) : Nat := 0x4E00908 + 0x10 * i
/-- `HLT.BW_TX_HI[i]`. -/
abbrev HLT_BW_TX_HI (i : Nat) : Nat := 0x4E0090C + 0x10 * i
/-- `BAR2.MSIX[i]`, word or sub-index `j`. -/
abbrev BAR2_MSIX (i j : Nat) : Nat := 0x10000010000 + 0x10 * i + 0x4 * j
/-- `BAR2.PBA`. -/
abbrev BAR2_PBA : Nat := 0x10000011000

end R

/-- What a read of a register does beside returning its value (R13). -/
inductive ReadKind where
  /-- Nothing. -/
  | plain
  /-- Access RC: clears to 0. -/
  | clears
  /-- A peak of R13: restarts at the present level. -/
  | peak
  deriving DecidableEq, Repr

/-- One row of a register table: `count0 × count1` registers from `base`, apart by the strides. -/
structure RegRow where
  base : Nat
  count0 : Nat
  stride0 : Nat
  count1 : Nat
  stride1 : Nat
  /-- Reset value; where the spec gives none, the value that the assumption log names. -/
  reset : Nat
  /-- Bits of access RW. -/
  rw : Nat
  /-- Bits of access RWL. -/
  rwl : Nat
  /-- Bits of access W1C. -/
  w1c : Nat
  /-- Bits of access W1S. -/
  w1s : Nat
  read : ReadKind
  /-- The switched power domain that holds the state (R47), by the numbers of R147. -/
  dom : Option Nat
  /-- The state lies in PD_BAT and every reset of R143 keeps it. -/
  bat : Bool
  /-- Privileged under R87. -/
  priv : Bool
  /-- Opened to the program under R37. -/
  prog : Bool
  deriving DecidableEq, Repr

/-- The registers of block SYS. [DESIGN CHOICE, log entry 9] -/
def regsSys : List RegRow :=
  [
   ⟨R.SYS_ID, 1, 0x0, 1, 0x0, 0x139600, 0x0, 0x0, 0x0, 0x0, .plain, none, false, false, false⟩,
   ⟨R.SYS_LOCK, 1, 0x0, 1, 0x0, 0x0, 0x0, 0x0, 0x0, 0x1, .plain, none, false, true, false⟩,
   ⟨R.SYS_MEMCFG, 1, 0x0, 1, 0x0, 0x0, 0x0, 0x0, 0x0, 0x0, .plain, none, false, false, false⟩,
   ⟨R.SYS_RESET_CAUSE, 1, 0x0, 1, 0x0, 0x1, 0x0, 0x0, 0x7F, 0x0, .plain, none, false, false, false⟩,
   ⟨R.SYS_BOOT_STATUS, 1, 0x0, 1, 0x0, 0x0, 0x0, 0x0, 0x0, 0x0, .plain, none, false, false, false⟩,
   ⟨R.SYS_START_CFG, 1, 0x0, 1, 0x0, 0x603, 0x1FFF, 0x0, 0x0, 0x0, .plain, none, false, true, false⟩,
   ⟨R.SYS_DOMAIN_STATE, 1, 0x0, 1, 0x0, 0x0, 0x0, 0x0, 0x0, 0x0, .plain, none, false, false, false⟩,
   ⟨R.SYS_DOMAIN_PENDING, 1, 0x0, 1, 0x0, 0x0, 0x0, 0x0, 0x0, 0x0, .plain, none, false, false, false⟩,
   ⟨R.SYS_DOMAIN_FAULT, 1, 0x0, 1, 0x0, 0x0, 0x0, 0x0, 0xFFF, 0x0, .plain, none, false, false, false⟩,
   ⟨R.SYS_FUSE_FW, 1, 0x0, 1, 0x0, 0x0, 0x0, 0x0, 0x0, 0x0, .plain, none, false, false, false⟩,
   ⟨R.SYS_FW_VERSION, 1, 0x0, 1, 0x0, 0x0, 0x0, 0x0, 0x0, 0x0, .plain, none, false, false, false⟩,
   ⟨R.SYS_CAPS 0, 64, 0x4, 1, 0x0, 0x0, 0x0, 0x0, 0x0, 0x0, .plain, none, false, false, false⟩,
   ⟨R.SYS_MEAS 0 0, 4, 0x30, 12, 0x4, 0x0, 0x0, 0x0, 0x0, 0x0, .plain, none, false, false, false⟩]

/-- The registers of block CMD. [DESIGN CHOICE, log entry 7] -/
def regsCmd : List RegRow :=
  [
   ⟨R.CMD_SESSION, 1, 0x0, 1, 0x0, 0x1, 0x0, 0x0, 0x0, 0x0, .plain, none, false, false, false⟩,
   ⟨R.CMD_INFLIGHT, 1, 0x0, 1, 0x0, 0x0, 0x0, 0x0, 0x0, 0x0, .plain, none, false, false, false⟩,
   ⟨R.CMD_INFLIGHT_PEAK, 1, 0x0, 1, 0x0, 0x0, 0x0, 0x0, 0x0, 0x0, .peak, none, false, false, false⟩,
   ⟨R.CMD_BUSY_COUNT, 1, 0x0, 1, 0x0, 0x0, 0x0, 0x0, 0x0, 0x0, .clears, none, false, false, false⟩,
   ⟨R.CMD_ETH_CFG, 1, 0x0, 1, 0x0, 0xB86A0000, 0xFFFFFF07, 0x0, 0x0, 0x0, .plain, none, false, false, false⟩,
   ⟨R.CMD_ETH_DROPS, 1, 0x0, 1, 0x0, 0x0, 0x0, 0x0, 0x0, 0x0, .clears, none, false, false, false⟩,
   ⟨R.CMD_AUTH_FAILS, 1, 0x0, 1, 0x0, 0x0, 0x0, 0x0, 0x0, 0x0, .clears, none, false, false, false⟩,
   ⟨R.CMD_AUTH_LOCK, 1, 0x0, 1, 0x0, 0x0, 0x0, 0x0, 0x0, 0x0, .plain, none, false, false, false⟩,
   ⟨R.CMD_NOTIFY_ENABLE, 1, 0x0, 1, 0x0, 0x0, 0xFFFF, 0x0, 0x0, 0x0, .plain, none, false, false, false⟩,
   ⟨R.CMD_NOTIFY_STATUS, 1, 0x0, 1, 0x0, 0x0, 0x0, 0x0, 0xFFFF, 0x0, .plain, none, false, false, false⟩,
   ⟨R.CMD_RING_SQ_BASE_LO 0, 16, 0x40, 1, 0x0, 0x0, 0xFFFFFFC0, 0x0, 0x0, 0x0, .plain, none, false, false, false⟩,
   ⟨R.CMD_RING_SQ_BASE_HI 0, 16, 0x40, 1, 0x0, 0x0, 0xFFFFFFFF, 0x0, 0x0, 0x0, .plain, none, false, false, false⟩,
   ⟨R.CMD_RING_CQ_BASE_LO 0, 16, 0x40, 1, 0x0, 0x0, 0xFFFFFFF0, 0x0, 0x0, 0x0, .plain, none, false, false, false⟩,
   ⟨R.CMD_RING_CQ_BASE_HI 0, 16, 0x40, 1, 0x0, 0x0, 0xFFFFFFFF, 0x0, 0x0, 0x0, .plain, none, false, false, false⟩,
   ⟨R.CMD_RING_SHADOW_LO 0, 16, 0x40, 1, 0x0, 0x0, 0xFFFFFFF8, 0x0, 0x0, 0x0, .plain, none, false, false, false⟩,
   ⟨R.CMD_RING_SHADOW_HI 0, 16, 0x40, 1, 0x0, 0x0, 0xFFFFFFFF, 0x0, 0x0, 0x0, .plain, none, false, false, false⟩,
   ⟨R.CMD_RING_CFG 0, 16, 0x40, 1, 0x0, 0x200040, 0xFF0FF1, 0x0, 0x0, 0x0, .plain, none, false, false, false⟩,
   ⟨R.CMD_RING_STATUS 0, 16, 0x40, 1, 0x0, 0x0, 0x0, 0x0, 0x0, 0x0, .plain, none, false, false, false⟩,
   ⟨R.CMD_RING_SQ_HEAD 0, 16, 0x40, 1, 0x0, 0x0, 0x0, 0x0, 0x0, 0x0, .plain, none, false, false, false⟩,
   ⟨R.CMD_RING_SQ_TAIL 0, 16, 0x40, 1, 0x0, 0x0, 0x0, 0x0, 0x0, 0x0, .plain, none, false, false, false⟩,
   ⟨R.CMD_RING_CQ_HEAD 0, 16, 0x40, 1, 0x0, 0x0, 0x0, 0x0, 0x0, 0x0, .plain, none, false, false, false⟩,
   ⟨R.CMD_RING_CQ_TAIL 0, 16, 0x40, 1, 0x0, 0x0, 0x0, 0x0, 0x0, 0x0, .plain, none, false, false, false⟩,
   ⟨R.CMD_RING_INFLIGHT 0, 16, 0x40, 1, 0x0, 0x0, 0x0, 0x0, 0x0, 0x0, .plain, none, false, false, false⟩]

/-- The registers of block SPINE. [DESIGN CHOICE, log entry 21] -/
def regsSpine : List RegRow :=
  [
   ⟨R.SPINE_INFLIGHT, 1, 0x0, 1, 0x0, 0x0, 0x0, 0x0, 0x0, 0x0, .plain, none, false, false, false⟩,
   ⟨R.SPINE_INFLIGHT_PEAK, 1, 0x0, 1, 0x0, 0x0, 0x0, 0x0, 0x0, 0x0, .peak, none, false, false, false⟩,
   ⟨R.SPINE_INIT_INFLIGHT 0, 32, 0x4, 1, 0x0, 0x0, 0x0, 0x0, 0x0, 0x0, .plain, none, false, false, false⟩,
   ⟨R.SPINE_INIT_PEAK 0, 32, 0x4, 1, 0x0, 0x0, 0x0, 0x0, 0x0, 0x0, .peak, none, false, false, false⟩,
   ⟨R.SPINE_INIT_STALLS 0, 32, 0x4, 1, 0x0, 0x0, 0x0, 0x0, 0x0, 0x0, .clears, none, false, false, false⟩]

/-- The registers of block XING. [DESIGN CHOICE, log entry 161] -/
def regsXing : List RegRow :=
  [
   ⟨R.XING_RESYNC_STATUS, 1, 0x0, 1, 0x0, 0x0, 0x0, 0x0, 0x0, 0x0, .plain, none, false, false, false⟩,
   ⟨R.XING_BLOCKED, 1, 0x0, 1, 0x0, 0x0, 0x0, 0x0, 0x7FFFFF, 0x0, .plain, none, false, false, false⟩,
   ⟨R.XING_BLOCK_TIMEOUT, 1, 0x0, 1, 0x0, 0x64, 0xFFFF, 0x0, 0x0, 0x0, .plain, none, false, false, false⟩,
   ⟨R.XING_COMPAT, 1, 0x0, 1, 0x0, 0x0, 0xFF00, 0x1, 0x0, 0x0, .plain, none, false, false, false⟩,
   ⟨R.XING_EVT_STATUS, 1, 0x0, 1, 0x0, 0x0, 0x0, 0x0, 0x0, 0x0, .plain, some 7, false, false, false⟩,
   ⟨R.XING_EVT_EDGES 0, 8, 0x4, 1, 0x0, 0x0, 0x0, 0x0, 0x0, 0x0, .plain, some 7, false, false, false⟩,
   ⟨R.XING_DISCARDS 0, 23, 0x4, 1, 0x0, 0x0, 0x0, 0x0, 0x0, 0x0, .clears, none, false, false, false⟩,
   ⟨R.XING_RESYNCS 0, 23, 0x4, 1, 0x0, 0x0, 0x0, 0x0, 0x0, 0x0, .clears, none, false, false, false⟩]

/-- The registers of block LC. -/
def regsLc : List RegRow :=
  [
   ⟨R.LC_STATE 0, 16, 0x40, 1, 0x0, 0x0, 0x0, 0x0, 0x0, 0x0, .plain, none, false, false, false⟩,
   ⟨R.LC_DEBUG 0, 16, 0x40, 1, 0x0, 0x0, 0x1, 0x0, 0x0, 0x0, .plain, none, false, true, false⟩,
   ⟨R.LC_TRAPS 0, 16, 0x40, 1, 0x0, 0x0, 0x0, 0x0, 0x0, 0x0, .clears, none, false, false, false⟩,
   ⟨R.LC_LAST_CAUSE 0, 16, 0x40, 1, 0x0, 0x0, 0x0, 0x0, 0x0, 0x0, .plain, none, false, false, false⟩,
   ⟨R.LC_LAST_PC_LO 0, 16, 0x40, 1, 0x0, 0x0, 0x0, 0x0, 0x0, 0x0, .plain, none, false, false, false⟩,
   ⟨R.LC_LAST_PC_HI 0, 16, 0x40, 1, 0x0, 0x0, 0x0, 0x0, 0x0, 0x0, .plain, none, false, false, false⟩,
   ⟨R.LC_LAST_VAL_LO 0, 16, 0x40, 1, 0x0, 0x0, 0x0, 0x0, 0x0, 0x0, .plain, none, false, false, false⟩,
   ⟨R.LC_LAST_VAL_HI 0, 16, 0x40, 1, 0x0, 0x0, 0x0, 0x0, 0x0, 0x0, .plain, none, false, false, false⟩,
   ⟨R.LC_HOLDPT_SKIPS 0, 16, 0x40, 1, 0x0, 0x0, 0x0, 0x0, 0x0, 0x0, .clears, none, false, false, false⟩,
   ⟨R.LC_PARITY_REFETCH 0, 16, 0x40, 1, 0x0, 0x0, 0x0, 0x0, 0x0, 0x0, .clears, none, false, false, false⟩]

/-- The registers of block CYC. -/
def regsCyc : List RegRow :=
  [
   ⟨R.CYC_MODE, 1, 0x0, 1, 0x0, 0x0, 0x0, 0x0, 0x0, 0x0, .plain, none, false, false, false⟩,
   ⟨R.CYC_CTRL, 1, 0x0, 1, 0x0, 0x2, 0x0, 0x3, 0x0, 0x0, .plain, none, false, false, false⟩,
   ⟨R.CYC_CHANGE_WAIT_MAX, 1, 0x0, 1, 0x0, 0x64, 0xFFFF, 0x0, 0x0, 0x0, .plain, none, false, false, false⟩,
   ⟨R.CYC_CHANGE_STATUS, 1, 0x0, 1, 0x0, 0x0, 0x0, 0x0, 0x0, 0x0, .plain, none, false, false, false⟩,
   ⟨R.CYC_LAST_SWITCH, 1, 0x0, 1, 0x0, 0x0, 0x0, 0x0, 0x0, 0x0, .plain, none, false, false, false⟩,
   ⟨R.CYC_FORCE_COUNT, 1, 0x0, 1, 0x0, 0x0, 0x0, 0x0, 0x0, 0x0, .plain, none, false, false, false⟩,
   ⟨R.CYC_SCHED_FAULTS, 1, 0x0, 1, 0x0, 0x0, 0x0, 0x0, 0x0, 0x0, .clears, none, false, false, false⟩,
   ⟨R.CYC_FRAME, 1, 0x0, 1, 0x0, 0x0, 0x0, 0x0, 0x0, 0x0, .plain, none, false, false, false⟩,
   ⟨R.CYC_IMAGE_BASE, 1, 0x0, 1, 0x0, 0x0, 0x0, 0x0, 0x0, 0x0, .plain, none, false, false, false⟩,
   ⟨R.CYC_SIGNALS, 1, 0x0, 1, 0x0, 0x0, 0x0, 0x0, 0x0, 0x0, .plain, none, false, false, false⟩,
   ⟨R.CYC_PROGRAM_ID, 1, 0x0, 1, 0x0, 0x0, 0x0, 0x0, 0x0, 0x0, .plain, none, false, false, false⟩,
   ⟨R.CYC_BUILD_ID_LO, 1, 0x0, 1, 0x0, 0x0, 0x0, 0x0, 0x0, 0x0, .plain, none, false, false, false⟩,
   ⟨R.CYC_BUILD_ID_HI, 1, 0x0, 1, 0x0, 0x0, 0x0, 0x0, 0x0, 0x0, .plain, none, false, false, false⟩,
   ⟨R.CYC_TASK_CFG 0, 32, 0x40, 1, 0x0, 0x0, 0x0, 0x0, 0x0, 0x0, .plain, none, false, false, false⟩,
   ⟨R.CYC_PERIOD 0, 32, 0x40, 1, 0x0, 0x0, 0x0, 0x0, 0x0, 0x0, .plain, none, false, false, false⟩,
   ⟨R.CYC_PHASE 0, 32, 0x40, 1, 0x0, 0x0, 0x0, 0x0, 0x0, 0x0, .plain, none, false, false, false⟩,
   ⟨R.CYC_WDOG 0, 32, 0x40, 1, 0x0, 0x0, 0x0, 0x0, 0x0, 0x0, .plain, none, false, false, false⟩,
   ⟨R.CYC_ENTRY 0, 32, 0x40, 1, 0x0, 0x0, 0x0, 0x0, 0x0, 0x0, .plain, none, false, false, false⟩,
   ⟨R.CYC_DATA_BASE_LO 0, 32, 0x40, 1, 0x0, 0x0, 0x0, 0x0, 0x0, 0x0, .plain, none, false, false, false⟩,
   ⟨R.CYC_DATA_BASE_HI 0, 32, 0x40, 1, 0x0, 0x0, 0x0, 0x0, 0x0, 0x0, .plain, none, false, false, false⟩,
   ⟨R.CYC_BUF_OFF 0, 32, 0x40, 1, 0x0, 0x0, 0x0, 0x0, 0x0, 0x0, .plain, none, false, false, false⟩,
   ⟨R.CYC_SAVE_OFF 0, 32, 0x40, 1, 0x0, 0x0, 0x0, 0x0, 0x0, 0x0, .plain, none, false, false, false⟩,
   ⟨R.CYC_IN_MAP_OFF 0, 32, 0x40, 1, 0x0, 0x0, 0x0, 0x0, 0x0, 0x0, .plain, none, false, false, false⟩,
   ⟨R.CYC_IN_RUNS 0, 32, 0x40, 1, 0x0, 0x0, 0x0, 0x0, 0x0, 0x0, .plain, none, false, false, false⟩,
   ⟨R.CYC_OUT_MAP_OFF 0, 32, 0x40, 1, 0x0, 0x0, 0x0, 0x0, 0x0, 0x0, .plain, none, false, false, false⟩,
   ⟨R.CYC_OUT_RUNS 0, 32, 0x40, 1, 0x0, 0x0, 0x0, 0x0, 0x0, 0x0, .plain, none, false, false, false⟩,
   ⟨R.CYC_SEG_MASK 0, 32, 0x40, 1, 0x0, 0x0, 0x0, 0x0, 0x0, 0x0, .plain, none, false, false, false⟩,
   ⟨R.CYC_IN_COUNT 0, 32, 0x40, 1, 0x0, 0x0, 0x0, 0x0, 0x0, 0x0, .plain, none, false, false, false⟩,
   ⟨R.CYC_OUT_COUNT 0, 32, 0x40, 1, 0x0, 0x0, 0x0, 0x0, 0x0, 0x0, .plain, none, false, false, false⟩,
   ⟨R.CYC_TASK_STATE 0, 32, 0x20, 1, 0x0, 0x0, 0x0, 0x0, 0x0, 0x0, .plain, none, false, false, false⟩,
   ⟨R.CYC_OVERRUNS 0, 32, 0x20, 1, 0x0, 0x0, 0x0, 0x0, 0x0, 0x0, .clears, none, false, false, false⟩,
   ⟨R.CYC_SKIPPED 0, 32, 0x20, 1, 0x0, 0x0, 0x0, 0x0, 0x0, 0x0, .clears, none, false, false, false⟩,
   ⟨R.CYC_EXEC_LAST 0, 32, 0x20, 1, 0x0, 0x0, 0x0, 0x0, 0x0, 0x0, .plain, none, false, false, false⟩,
   ⟨R.CYC_EXEC_MAX 0, 32, 0x20, 1, 0x0, 0x0, 0x0, 0x0, 0x0, 0x0, .clears, none, false, false, false⟩,
   ⟨R.CYC_STAGE_LEAD 0, 32, 0x20, 1, 0x0, 0x0, 0x0, 0x0, 0x0, 0x0, .plain, none, false, false, false⟩,
   ⟨R.CYC_CYCLE_LO 0, 32, 0x20, 1, 0x0, 0x0, 0x0, 0x0, 0x0, 0x0, .plain, none, false, false, false⟩,
   ⟨R.CYC_CYCLE_HI 0, 32, 0x20, 1, 0x0, 0x0, 0x0, 0x0, 0x0, 0x0, .plain, none, false, false, false⟩]

/-- The registers of block STN. -/
def regsStn : List RegRow :=
  [
   ⟨R.STN_ETHERTYPE, 1, 0x0, 1, 0x0, 0x88B5, 0x0, 0xFFFF, 0x0, 0x0, .plain, none, false, false, false⟩,
   ⟨R.STN_CONTEXTS_USED, 1, 0x0, 1, 0x0, 0x0, 0x0, 0x0, 0x0, 0x0, .plain, some 6, false, false, false⟩,
   ⟨R.STN_TAG_FAILS, 1, 0x0, 1, 0x0, 0x0, 0x0, 0x0, 0x0, 0x0, .clears, some 6, false, false, false⟩,
   ⟨R.STN_BAD_FRAMES, 1, 0x0, 1, 0x0, 0x0, 0x0, 0x0, 0x0, 0x0, .clears, some 6, false, false, false⟩,
   ⟨R.STN_APPLY_DELAY 0, 32, 0x4, 1, 0x0, 0x0, 0x0, 0x0, 0x0, 0x0, .plain, none, false, false, false⟩,
   ⟨R.STN_SEG_STATE 0, 20, 0x40, 1, 0x0, 0x0, 0x0, 0x0, 0x0, 0x0, .plain, some 6, false, false, false⟩,
   ⟨R.STN_SEG_MIN_CYCLE 0, 20, 0x40, 1, 0x0, 0x0, 0x0, 0x0, 0x0, 0x0, .plain, none, false, false, false⟩,
   ⟨R.STN_SEG_STAGE_WIN 0, 20, 0x40, 1, 0x0, 0x0, 0x0, 0x0, 0x0, 0x0, .plain, none, false, false, false⟩,
   ⟨R.STN_SEG_DMAX 0, 20, 0x40, 1, 0x0, 0x0, 0x0, 0x0, 0x0, 0x0, .plain, none, false, false, false⟩,
   ⟨R.STN_SEG_DMEAS 0, 20, 0x40, 1, 0x0, 0x0, 0x0, 0x0, 0x0, 0x0, .plain, some 6, false, false, false⟩,
   ⟨R.STN_SEG_JOIN_WINDOW 0, 20, 0x40, 1, 0x0, 0x0, 0x0, 0x0, 0x0, 0x0, .plain, some 6, false, false, false⟩,
   ⟨R.STN_SEG_ABSENT 0, 20, 0x40, 1, 0x0, 0x0, 0x0, 0x0, 0x0, 0x0, .clears, some 6, false, false, false⟩,
   ⟨R.STN_SEG_COMMIT_MISSED 0, 20, 0x40, 1, 0x0, 0x0, 0x0, 0x0, 0x0, 0x0, .clears, some 6, false, false, false⟩,
   ⟨R.STN_SEG_JOINS_DEFERRED 0, 20, 0x40, 1, 0x0, 0x0, 0x0, 0x0, 0x0, 0x0, .clears, some 6, false, false, false⟩,
   ⟨R.STN_QCLASS 0 0, 64, 0x20, 8, 0x4, 0x0, 0xFFFFFFFF, 0x0, 0x0, 0x0, .plain, none, false, true, false⟩]

/-- The registers of block SOLV. -/
def regsSolv : List RegRow :=
  [
   ⟨R.SOLV_PSUBMIT_LO, 1, 0x0, 1, 0x0, 0x0, 0xFFFFFFC0, 0x0, 0x0, 0x0, .plain, none, false, false, true⟩,
   ⟨R.SOLV_PSUBMIT_HI, 1, 0x0, 1, 0x0, 0x0, 0xFF, 0x0, 0x0, 0x0, .plain, none, false, false, true⟩,
   ⟨R.SOLV_PSUBMIT_RESULT, 1, 0x0, 1, 0x0, 0x0, 0x0, 0x0, 0x0, 0x0, .plain, none, false, false, true⟩,
   ⟨R.SOLV_QUEUE, 1, 0x0, 1, 0x0, 0x0, 0x0, 0x0, 0x0, 0x0, .plain, none, false, false, true⟩,
   ⟨R.SOLV_QUEUE_PEAK, 1, 0x0, 1, 0x0, 0x0, 0x0, 0x0, 0x0, 0x0, .peak, none, false, false, false⟩,
   ⟨R.SOLV_SUBMIT_REFUSED, 1, 0x0, 1, 0x0, 0x0, 0x0, 0x0, 0x0, 0x0, .clears, none, false, false, false⟩,
   ⟨R.SOLV_RA_CONTINUED, 1, 0x0, 1, 0x0, 0x0, 0x0, 0x0, 0x0, 0x0, .clears, none, false, false, false⟩,
   ⟨R.SOLV_RA_SQUASHED, 1, 0x0, 1, 0x0, 0x0, 0x0, 0x0, 0x0, 0x0, .clears, none, false, false, false⟩,
   ⟨R.SOLV_LATE_ENDS, 1, 0x0, 1, 0x0, 0x0, 0x0, 0x0, 0x0, 0x0, .clears, none, false, false, false⟩,
   ⟨R.SOLV_NUMERIC_ENDS, 1, 0x0, 1, 0x0, 0x0, 0x0, 0x0, 0x0, 0x0, .clears, none, false, false, false⟩,
   ⟨R.SOLV_PIVOT_REPLACED, 1, 0x0, 1, 0x0, 0x0, 0x0, 0x0, 0x0, 0x0, .clears, none, false, false, false⟩,
   ⟨R.SOLV_DESC_STATE 0, 16, 0x4, 1, 0x0, 0x0, 0x0, 0x0, 0x0, 0x0, .plain, none, false, false, true⟩,
   ⟨R.SOLV_BANK_USE 0, 16, 0x4, 1, 0x0, 0x0, 0x0, 0x0, 0x0, 0x0, .plain, none, false, false, true⟩,
   ⟨R.SOLV_ENG_STATE 0, 4, 0x40, 1, 0x0, 0x0, 0x0, 0x0, 0x0, 0x0, .plain, none, false, false, false⟩,
   ⟨R.SOLV_ENG_LANES 0, 4, 0x40, 1, 0x0, 0x8, 0x0, 0x0, 0x0, 0x0, .plain, none, false, false, false⟩,
   ⟨R.SOLV_ENG_FAULT_MAP0 0, 4, 0x40, 1, 0x0, 0x0, 0x0, 0x0, 0x0, 0x0, .plain, none, false, false, false⟩,
   ⟨R.SOLV_ENG_FAULT_MAP1 0, 4, 0x40, 1, 0x0, 0x0, 0x0, 0x0, 0x0, 0x0, .plain, none, false, false, false⟩,
   ⟨R.SOLV_ENG_FAULT_MAP2 0, 4, 0x40, 1, 0x0, 0x0, 0x0, 0x0, 0x0, 0x0, .plain, none, false, false, false⟩,
   ⟨R.SOLV_ENG_JOBS 0, 4, 0x40, 1, 0x0, 0x0, 0x0, 0x0, 0x0, 0x0, .clears, none, false, false, false⟩,
   ⟨R.SOLV_ENG_RESIDUE_ERR 0, 4, 0x40, 1, 0x0, 0x0, 0x0, 0x0, 0x0, 0x0, .clears, none, false, false, false⟩,
   ⟨R.SOLV_ENG_BUSY_US 0, 4, 0x40, 1, 0x0, 0x0, 0x0, 0x0, 0x0, 0x0, .clears, none, false, false, false⟩,
   ⟨R.SOLV_ENG_SPEC_US 0, 4, 0x40, 1, 0x0, 0x0, 0x0, 0x0, 0x0, 0x0, .clears, none, false, false, false⟩]

/-- The registers of block MET. [DESIGN CHOICE, log entry 8] -/
def regsMet : List RegRow :=
  [
   ⟨R.MET_STATUS, 1, 0x0, 1, 0x0, 0x0, 0x0, 0x0, 0x0, 0x0, .plain, none, false, false, false⟩,
   ⟨R.MET_SAVE_SEQ, 1, 0x0, 1, 0x0, 0x0, 0x0, 0x0, 0x0, 0x0, .plain, none, false, false, false⟩,
   ⟨R.MET_SAVE_US, 1, 0x0, 1, 0x0, 0x0, 0x0, 0x0, 0x0, 0x0, .plain, none, false, false, false⟩,
   ⟨R.MET_RESTORE, 1, 0x0, 1, 0x0, 0x0, 0x0, 0x0, 0x0, 0x0, .plain, none, false, false, false⟩,
   ⟨R.MET_SPILL_WRITES, 1, 0x0, 1, 0x0, 0x0, 0x0, 0x0, 0x0, 0x0, .clears, some 8, false, false, false⟩,
   ⟨R.MET_CLOSE_QUEUE, 1, 0x0, 1, 0x0, 0x0, 0x0, 0x0, 0x0, 0x0, .plain, some 8, false, false, false⟩,
   ⟨R.MET_COUNTER_JUMPS, 1, 0x0, 1, 0x0, 0x0, 0x0, 0x0, 0x0, 0x0, .clears, some 8, false, false, false⟩,
   ⟨R.MET_PULSE_OVERFLOW, 1, 0x0, 1, 0x0, 0x0, 0x0, 0x0, 0xFFFF, 0x0, .plain, some 8, false, false, false⟩,
   ⟨R.MET_WINDOW_END_LO, 1, 0x0, 1, 0x0, 0x0, 0x0, 0x0, 0x0, 0x0, .plain, some 8, false, false, false⟩,
   ⟨R.MET_WINDOW_END_HI, 1, 0x0, 1, 0x0, 0x0, 0x0, 0x0, 0x0, 0x0, .plain, some 8, false, false, false⟩,
   ⟨R.MET_CH_STATUS 0, 32, 0x10, 1, 0x0, 0x0, 0x0, 0x0, 0x1C, 0x0, .plain, some 8, false, false, false⟩,
   ⟨R.MET_CH_PEAK 0, 32, 0x10, 1, 0x0, 0x0, 0x0, 0x0, 0x0, 0x0, .clears, some 8, false, false, false⟩,
   ⟨R.MET_CH_RMS 0, 32, 0x10, 1, 0x0, 0x0, 0x0, 0x0, 0x0, 0x0, .plain, some 8, false, false, false⟩,
   ⟨R.MET_CH_HCRMS 0, 32, 0x10, 1, 0x0, 0x0, 0x0, 0x0, 0x0, 0x0, .plain, some 8, false, false, false⟩,
   ⟨R.MET_FCAL_GAIN 0, 32, 0x10, 1, 0x0, 0x40000000, 0x0, 0x0, 0x0, 0x0, .plain, none, false, false, false⟩,
   ⟨R.MET_FCAL_OFFSET 0, 32, 0x10, 1, 0x0, 0x0, 0x0, 0x0, 0x0, 0x0, .plain, none, false, false, false⟩,
   ⟨R.MET_FCAL_DELAY 0, 32, 0x10, 1, 0x0, 0x0, 0x0, 0x0, 0x0, 0x0, .plain, none, false, false, false⟩,
   ⟨R.MET_SET_P 0, 32, 0x20, 1, 0x0, 0x0, 0x0, 0x0, 0x0, 0x0, .plain, some 8, false, false, false⟩,
   ⟨R.MET_SET_Q 0, 32, 0x20, 1, 0x0, 0x0, 0x0, 0x0, 0x0, 0x0, .plain, some 8, false, false, false⟩,
   ⟨R.MET_SET_S 0, 32, 0x20, 1, 0x0, 0x0, 0x0, 0x0, 0x0, 0x0, .plain, some 8, false, false, false⟩,
   ⟨R.MET_SET_VRMS 0, 32, 0x20, 1, 0x0, 0x0, 0x0, 0x0, 0x0, 0x0, .plain, some 8, false, false, false⟩,
   ⟨R.MET_SET_IRMS 0, 32, 0x20, 1, 0x0, 0x0, 0x0, 0x0, 0x0, 0x0, .plain, some 8, false, false, false⟩,
   ⟨R.MET_SET_FREQ 0, 32, 0x20, 1, 0x0, 0x0, 0x0, 0x0, 0x0, 0x0, .plain, some 8, false, false, false⟩,
   ⟨R.MET_SET_PF 0, 32, 0x20, 1, 0x0, 0x0, 0x0, 0x0, 0x0, 0x0, .plain, some 8, false, false, false⟩,
   ⟨R.MET_SET_STATE 0, 32, 0x20, 1, 0x0, 0x0, 0x0, 0x0, 0x0, 0x0, .plain, some 8, false, false, false⟩]

/-- The registers of block NET. -/
def regsNet : List RegRow :=
  [
   ⟨R.NET_SWITCH_CFG, 1, 0x0, 1, 0x0, 0x112C, 0x0, 0x1FFF, 0x0, 0x0, .plain, none, false, false, false⟩,
   ⟨R.NET_FDB_COUNT, 1, 0x0, 1, 0x0, 0x0, 0x0, 0x0, 0x0, 0x0, .plain, some 6, false, false, false⟩,
   ⟨R.NET_SA_COUNT, 1, 0x0, 1, 0x0, 0x0, 0x0, 0x0, 0x0, 0x0, .plain, some 6, false, false, false⟩,
   ⟨R.NET_MACSEC_DROPS, 1, 0x0, 1, 0x0, 0x0, 0x0, 0x0, 0x0, 0x0, .clears, some 6, false, false, false⟩,
   ⟨R.NET_PCP_MAP, 1, 0x0, 1, 0x0, 0xAA50, 0x0, 0xFFFF, 0x0, 0x0, .plain, none, false, false, false⟩,
   ⟨R.NET_IPV4_ADDR, 1, 0x0, 1, 0x0, 0x0, 0x0, 0xFFFFFFFF, 0x0, 0x0, .plain, none, false, false, false⟩,
   ⟨R.NET_MAC_BASE_LO, 1, 0x0, 1, 0x0, 0x0, 0x0, 0x0, 0x0, 0x0, .plain, none, false, false, false⟩,
   ⟨R.NET_MAC_BASE_HI, 1, 0x0, 1, 0x0, 0x0, 0x0, 0x0, 0x0, 0x0, .plain, none, false, false, false⟩,
   ⟨R.NET_PORT_CFG 0, 21, 0x40, 1, 0x0, 0x1000, 0x0, 0x0, 0x0, 0x0, .plain, none, false, false, false⟩,
   ⟨R.NET_PORT_STATE 0, 21, 0x40, 1, 0x0, 0x0, 0x0, 0x0, 0x0, 0x0, .plain, some 6, false, false, false⟩,
   ⟨R.NET_PORT_RX 0, 21, 0x40, 1, 0x0, 0x0, 0x0, 0x0, 0x0, 0x0, .clears, some 6, false, false, false⟩,
   ⟨R.NET_PORT_TX 0, 21, 0x40, 1, 0x0, 0x0, 0x0, 0x0, 0x0, 0x0, .clears, some 6, false, false, false⟩,
   ⟨R.NET_PORT_DROPS 0, 21, 0x40, 1, 0x0, 0x0, 0x0, 0x0, 0x0, 0x0, .clears, some 6, false, false, false⟩,
   ⟨R.NET_PORT_FCS_ERR 0, 21, 0x40, 1, 0x0, 0x0, 0x0, 0x0, 0x0, 0x0, .clears, some 6, false, false, false⟩,
   ⟨R.NET_PORT_LAT 0, 21, 0x40, 1, 0x0, 0x0, 0x0, 0xFFFFFFFF, 0x0, 0x0, .plain, none, false, false, false⟩,
   ⟨R.NET_PORT_LINK_DOWNS 0, 21, 0x40, 1, 0x0, 0x0, 0x0, 0x0, 0x0, 0x0, .clears, some 6, false, false, false⟩]

/-- The registers of block TIME. -/
def regsTime : List RegRow :=
  [
   ⟨R.TIME_NOW_FRAC, 1, 0x0, 1, 0x0, 0x0, 0x0, 0x0, 0x0, 0x0, .plain, none, false, false, false⟩,
   ⟨R.TIME_NOW_SEC_LO, 1, 0x0, 1, 0x0, 0x0, 0x0, 0x0, 0x0, 0x0, .plain, none, false, false, false⟩,
   ⟨R.TIME_NOW_SEC_HI, 1, 0x0, 1, 0x0, 0x0, 0x0, 0x0, 0x0, 0x0, .plain, none, false, false, false⟩,
   ⟨R.TIME_RAW_W0, 1, 0x0, 1, 0x0, 0x0, 0x0, 0x0, 0x0, 0x0, .plain, none, false, false, false⟩,
   ⟨R.TIME_RAW_W1, 1, 0x0, 1, 0x0, 0x0, 0x0, 0x0, 0x0, 0x0, .plain, none, false, false, false⟩,
   ⟨R.TIME_RAW_W2, 1, 0x0, 1, 0x0, 0x0, 0x0, 0x0, 0x0, 0x0, .plain, none, false, false, false⟩,
   ⟨R.TIME_CFG, 1, 0x0, 1, 0x0, 0x80, 0x0, 0x0, 0x0, 0x0, .plain, none, false, false, false⟩,
   ⟨R.TIME_GAINS, 1, 0x0, 1, 0x0, 0x4CCDB333, 0x0, 0x0, 0x0, 0x0, .plain, none, false, false, false⟩,
   ⟨R.TIME_STEP_THRESH, 1, 0x0, 1, 0x0, 0x3E8, 0x0, 0x0, 0x0, 0x0, .plain, none, false, false, false⟩,
   ⟨R.TIME_LOCK_THRESH, 1, 0x0, 1, 0x0, 0x3E8, 0x0, 0x0, 0x0, 0x0, .plain, none, false, false, false⟩,
   ⟨R.TIME_RATE_LIMIT, 1, 0x0, 1, 0x0, 0xC8, 0x0, 0x0, 0x0, 0x0, .plain, none, false, false, false⟩,
   ⟨R.TIME_HOLDOVER_MAX, 1, 0x0, 1, 0x0, 0xE10, 0x0, 0x0, 0x0, 0x0, .plain, none, false, false, false⟩,
   ⟨R.TIME_STEP_SETTLE, 1, 0x0, 1, 0x0, 0x2, 0x0, 0x0, 0x0, 0x0, .plain, none, false, false, false⟩,
   ⟨R.TIME_STATE, 1, 0x0, 1, 0x0, 0x1F00, 0x0, 0x0, 0x0, 0x0, .plain, none, false, false, false⟩,
   ⟨R.TIME_OFFSET, 1, 0x0, 1, 0x0, 0x0, 0x0, 0x0, 0x0, 0x0, .plain, none, false, false, false⟩,
   ⟨R.TIME_RATE, 1, 0x0, 1, 0x0, 0x0, 0x0, 0x0, 0x0, 0x0, .plain, none, false, false, false⟩,
   ⟨R.TIME_MEAN_PATH, 1, 0x0, 1, 0x0, 0x0, 0x0, 0x0, 0x0, 0x0, .plain, none, false, false, false⟩,
   ⟨R.TIME_SAMPLES_REJECTED, 1, 0x0, 1, 0x0, 0x0, 0x0, 0x0, 0x0, 0x0, .clears, none, false, false, false⟩,
   ⟨R.TIME_STEPS, 1, 0x0, 1, 0x0, 0x0, 0x0, 0x0, 0x0, 0x0, .clears, none, false, false, false⟩,
   ⟨R.TIME_LAST_STEP_LO, 1, 0x0, 1, 0x0, 0x0, 0x0, 0x0, 0x0, 0x0, .plain, none, false, false, false⟩,
   ⟨R.TIME_LAST_STEP_HI, 1, 0x0, 1, 0x0, 0x0, 0x0, 0x0, 0x0, 0x0, .plain, none, false, false, false⟩,
   ⟨R.TIME_PTP_UTC, 1, 0x0, 1, 0x0, 0x0, 0x0, 0x0, 0x0, 0x0, .plain, none, false, false, false⟩,
   ⟨R.TIME_PORT_STATE 0, 21, 0x4, 1, 0x0, 0x0, 0x0, 0x0, 0x0, 0x0, .plain, some 6, false, false, false⟩]

/-- The registers of block RTC. -/
def regsRtc : List RegRow :=
  [
   ⟨R.RTC_COUNT_FRAC, 1, 0x0, 1, 0x0, 0x0, 0x0, 0x0, 0x0, 0x0, .plain, none, true, false, false⟩,
   ⟨R.RTC_COUNT_SEC_LO, 1, 0x0, 1, 0x0, 0x386D4380, 0x0, 0x0, 0x0, 0x0, .plain, none, true, false, false⟩,
   ⟨R.RTC_COUNT_SEC_HI, 1, 0x0, 1, 0x0, 0x0, 0x0, 0x0, 0x0, 0x0, .plain, none, true, false, false⟩,
   ⟨R.RTC_CAL_DATE, 1, 0x0, 1, 0x0, 0x1107D0, 0x0, 0x0, 0x0, 0x0, .plain, none, true, false, false⟩,
   ⟨R.RTC_CAL_TIME, 1, 0x0, 1, 0x0, 0x0, 0x0, 0x0, 0x0, 0x0, .plain, none, true, false, false⟩,
   ⟨R.RTC_STATUS, 1, 0x0, 1, 0x0, 0x0, 0x0, 0x0, 0x0, 0x0, .plain, none, true, false, false⟩,
   ⟨R.RTC_HALT_TICKS, 1, 0x0, 1, 0x0, 0x0, 0x0, 0x0, 0x0, 0x0, .plain, none, true, false, false⟩,
   ⟨R.RTC_FOLLOW_ADJ, 1, 0x0, 1, 0x0, 0x0, 0x0, 0x0, 0x0, 0x0, .plain, none, true, false, false⟩,
   ⟨R.RTC_UTC_OFFSET, 1, 0x0, 1, 0x0, 0x0, 0x0, 0x0, 0x0, 0x0, .plain, none, true, false, false⟩,
   ⟨R.RTC_UTC_NEXT, 1, 0x0, 1, 0x0, 0x0, 0x0, 0x0, 0x0, 0x0, .plain, none, true, false, false⟩,
   ⟨R.RTC_UTC_AT_LO, 1, 0x0, 1, 0x0, 0x0, 0x0, 0x0, 0x0, 0x0, .plain, none, true, false, false⟩,
   ⟨R.RTC_UTC_AT_HI, 1, 0x0, 1, 0x0, 0x0, 0x0, 0x0, 0x0, 0x0, .plain, none, true, false, false⟩,
   ⟨R.RTC_CTRL, 1, 0x0, 1, 0x0, 0x3, 0x7, 0x0, 0x0, 0x0, .plain, none, true, true, false⟩,
   ⟨R.RTC_FOLLOW_STEP, 1, 0x0, 1, 0x0, 0x64, 0xFFFF, 0x0, 0x0, 0x0, .plain, none, true, true, false⟩,
   ⟨R.RTC_CAL, 1, 0x0, 1, 0x0, 0x0, 0xFFFF, 0x0, 0x0, 0x0, .plain, none, true, true, false⟩,
   ⟨R.RTC_WRITES, 1, 0x0, 1, 0x0, 0x0, 0x0, 0x0, 0x0, 0x0, .clears, none, false, false, false⟩,
   ⟨R.RTC_ALARM_SEC_LO 0, 4, 0x10, 1, 0x0, 0x0, 0x0, 0x0, 0x0, 0x0, .plain, none, true, false, false⟩,
   ⟨R.RTC_ALARM_SEC_HI 0, 4, 0x10, 1, 0x0, 0x0, 0x0, 0x0, 0x0, 0x0, .plain, none, true, false, false⟩,
   ⟨R.RTC_ALARM_FRAC 0, 4, 0x10, 1, 0x0, 0x0, 0x0, 0x0, 0x0, 0x0, .plain, none, true, false, false⟩,
   ⟨R.RTC_ALARM_STATE 0, 4, 0x10, 1, 0x0, 0x0, 0x0, 0x0, 0x0, 0x0, .plain, none, true, false, false⟩]

/-- The registers of block CAN. -/
def regsCan : List RegRow :=
  [
   ⟨R.CAN_PSEND_LO, 1, 0x0, 1, 0x0, 0x0, 0xFFFFFFF0, 0x0, 0x0, 0x0, .plain, none, false, false, true⟩,
   ⟨R.CAN_PSEND_HI, 1, 0x0, 1, 0x0, 0x0, 0xFF, 0x0, 0x0, 0x0, .plain, none, false, false, true⟩,
   ⟨R.CAN_PSEND_RESULT, 1, 0x0, 1, 0x0, 0x0, 0x0, 0x0, 0x0, 0x0, .plain, none, false, false, true⟩,
   ⟨R.CAN_STATE 0, 4, 0x100, 1, 0x0, 0x0, 0x0, 0x0, 0x0, 0x0, .plain, some 7, false, false, true⟩,
   ⟨R.CAN_CFG 0, 4, 0x100, 1, 0x0, 0x0, 0x0, 0x0, 0x0, 0x0, .plain, none, false, false, false⟩,
   ⟨R.CAN_NBT 0, 4, 0x100, 1, 0x0, 0x0, 0x0, 0x0, 0x0, 0x0, .plain, none, false, false, false⟩,
   ⟨R.CAN_DBT 0, 4, 0x100, 1, 0x0, 0x0, 0x0, 0x0, 0x0, 0x0, .plain, none, false, false, false⟩,
   ⟨R.CAN_ERRCNT 0, 4, 0x100, 1, 0x0, 0x0, 0x0, 0x0, 0x0, 0x0, .plain, some 7, false, false, true⟩,
   ⟨R.CAN_TXQ 0, 4, 0x100, 1, 0x0, 0x0, 0x0, 0x0, 0x0, 0x0, .plain, some 7, false, false, true⟩,
   ⟨R.CAN_RXQ_HEAD 0, 4, 0x100, 1, 0x0, 0x0, 0xFFF, 0x0, 0x0, 0x0, .plain, none, false, false, true⟩,
   ⟨R.CAN_RXQ_TAIL 0, 4, 0x100, 1, 0x0, 0x0, 0x0, 0x0, 0x0, 0x0, .plain, none, false, false, true⟩,
   ⟨R.CAN_TXC_HEAD 0, 4, 0x100, 1, 0x0, 0x0, 0xFFF, 0x0, 0x0, 0x0, .plain, none, false, false, true⟩,
   ⟨R.CAN_TXC_TAIL 0, 4, 0x100, 1, 0x0, 0x0, 0x0, 0x0, 0x0, 0x0, .plain, none, false, false, true⟩,
   ⟨R.CAN_RXQ_BASE_LO 0, 4, 0x100, 1, 0x0, 0x0, 0x0, 0x0, 0x0, 0x0, .plain, none, false, false, false⟩,
   ⟨R.CAN_RXQ_BASE_HI 0, 4, 0x100, 1, 0x0, 0x0, 0x0, 0x0, 0x0, 0x0, .plain, none, false, false, false⟩,
   ⟨R.CAN_TXC_BASE_LO 0, 4, 0x100, 1, 0x0, 0x0, 0x0, 0x0, 0x0, 0x0, .plain, none, false, false, false⟩,
   ⟨R.CAN_TXC_BASE_HI 0, 4, 0x100, 1, 0x0, 0x0, 0x0, 0x0, 0x0, 0x0, .plain, none, false, false, false⟩,
   ⟨R.CAN_REF_ID 0, 4, 0x100, 1, 0x0, 0x0, 0x0, 0x0, 0x0, 0x0, .plain, none, false, false, false⟩,
   ⟨R.CAN_FUP_ID 0, 4, 0x100, 1, 0x0, 0x0, 0x0, 0x0, 0x0, 0x0, .plain, none, false, false, false⟩,
   ⟨R.CAN_REF_PERIOD 0, 4, 0x100, 1, 0x0, 0x0, 0x0, 0x0, 0x0, 0x0, .plain, none, false, false, false⟩,
   ⟨R.CAN_REF_OFFSET 0, 4, 0x100, 1, 0x0, 0x0, 0x0, 0x0, 0x0, 0x0, .plain, some 7, false, false, false⟩,
   ⟨R.CAN_REF_STATUS 0, 4, 0x100, 1, 0x0, 0x0, 0x0, 0x0, 0x0, 0x0, .plain, some 7, false, false, false⟩,
   ⟨R.CAN_TX_OK 0, 4, 0x100, 1, 0x0, 0x0, 0x0, 0x0, 0x0, 0x0, .clears, some 7, false, false, false⟩,
   ⟨R.CAN_RX_OK 0, 4, 0x100, 1, 0x0, 0x0, 0x0, 0x0, 0x0, 0x0, .clears, some 7, false, false, false⟩,
   ⟨R.CAN_RX_DROPS 0, 4, 0x100, 1, 0x0, 0x0, 0x0, 0x0, 0x0, 0x0, .clears, some 7, false, false, false⟩,
   ⟨R.CAN_RX_OVERFLOW 0, 4, 0x100, 1, 0x0, 0x0, 0x0, 0x0, 0x0, 0x0, .clears, some 7, false, false, false⟩,
   ⟨R.CAN_ARB_LOST 0, 4, 0x100, 1, 0x0, 0x0, 0x0, 0x0, 0x0, 0x0, .clears, some 7, false, false, false⟩,
   ⟨R.CAN_CLASHES 0, 4, 0x100, 1, 0x0, 0x0, 0x0, 0x0, 0x0, 0x0, .clears, some 7, false, false, false⟩,
   ⟨R.CAN_BUS_OFFS 0, 4, 0x100, 1, 0x0, 0x0, 0x0, 0x0, 0x0, 0x0, .clears, some 7, false, false, false⟩,
   ⟨R.CAN_TXC_LOST 0, 4, 0x100, 1, 0x0, 0x0, 0x0, 0x0, 0x0, 0x0, .clears, some 7, false, false, false⟩,
   ⟨R.CAN_REF_REJECTS 0, 4, 0x100, 1, 0x0, 0x0, 0x0, 0x0, 0x0, 0x0, .clears, some 7, false, false, false⟩,
   ⟨R.CAN_FILT_ID 0 0, 4, 0x200, 32, 0x10, 0x0, 0x0, 0x0, 0x0, 0x0, .plain, none, false, false, false⟩,
   ⟨R.CAN_FILT_MASK 0 0, 4, 0x200, 32, 0x10, 0x0, 0x0, 0x0, 0x0, 0x0, .plain, none, false, false, false⟩,
   ⟨R.CAN_FILT_CFG 0 0, 4, 0x200, 32, 0x10, 0x0, 0x0, 0x0, 0x0, 0x0, .plain, none, false, false, false⟩,
   ⟨R.CAN_LVB_STATUS 0, 64, 0x80, 1, 0x0, 0x0, 0x0, 0x0, 0x0, 0x0, .plain, some 7, false, false, true⟩,
   ⟨R.CAN_LVB_ID 0, 64, 0x80, 1, 0x0, 0x0, 0x0, 0x0, 0x0, 0x0, .plain, some 7, false, false, true⟩,
   ⟨R.CAN_LVB_TSEC 0, 64, 0x80, 1, 0x0, 0x0, 0x0, 0x0, 0x0, 0x0, .plain, some 7, false, false, true⟩,
   ⟨R.CAN_LVB_TFRAC 0, 64, 0x80, 1, 0x0, 0x0, 0x0, 0x0, 0x0, 0x0, .plain, some 7, false, false, true⟩,
   ⟨R.CAN_LVB_DATA 0 0, 64, 0x80, 16, 0x4, 0x0, 0x0, 0x0, 0x0, 0x0, .plain, some 7, false, false, true⟩]

/-- The registers of block RED. [DESIGN CHOICE, log entry 9] -/
def regsRed : List RegRow :=
  [
   ⟨R.RED_ROLE, 1, 0x0, 1, 0x0, 0xC3, 0x0, 0x0, 0x0, 0x0, .plain, none, false, false, false⟩,
   ⟨R.RED_CLAIM, 1, 0x0, 1, 0x0, 0x0, 0x0, 0x0, 0x0, 0x0, .plain, none, false, false, false⟩,
   ⟨R.RED_CLAIM_SEEN, 1, 0x0, 1, 0x0, 0x0, 0x0, 0x0, 0x0, 0x0, .plain, none, false, false, false⟩,
   ⟨R.RED_CFG, 1, 0x0, 1, 0x0, 0x140020, 0x0, 0x0, 0x0, 0x0, .plain, none, false, false, false⟩,
   ⟨R.RED_LINK, 1, 0x0, 1, 0x0, 0x0, 0x0, 0x0, 0x0, 0x0, .plain, some 11, false, false, false⟩,
   ⟨R.RED_COPY_LAST, 1, 0x0, 1, 0x0, 0x0, 0x0, 0x0, 0x0, 0x0, .plain, some 11, false, false, false⟩,
   ⟨R.RED_COPY_PEAK, 1, 0x0, 1, 0x0, 0x0, 0x0, 0x0, 0x0, 0x0, .clears, some 11, false, false, false⟩,
   ⟨R.RED_SWITCHOVERS, 1, 0x0, 1, 0x0, 0x0, 0x0, 0x0, 0x0, 0x0, .clears, none, false, false, false⟩,
   ⟨R.RED_LINK_RETRIES, 1, 0x0, 1, 0x0, 0x0, 0x0, 0x0, 0x0, 0x0, .clears, some 11, false, false, false⟩,
   ⟨R.RED_UNSYNC_COUNT, 1, 0x0, 1, 0x0, 0x0, 0x0, 0x0, 0x0, 0x0, .clears, none, false, false, false⟩,
   ⟨R.RED_GAP_LAST, 1, 0x0, 1, 0x0, 0x0, 0x0, 0x0, 0x0, 0x0, .plain, none, false, false, false⟩]

/-- The registers of block KEY. [DEDUCED, log entry 27] -/
def regsKey : List RegRow :=
  [
   ⟨R.KEY_STATUS, 1, 0x0, 1, 0x0, 0x0, 0x0, 0x0, 0x0, 0x0, .plain, none, false, false, false⟩,
   ⟨R.KEY_SLOTS, 1, 0x0, 1, 0x0, 0x0, 0x0, 0x0, 0x0, 0x0, .plain, none, false, false, false⟩,
   ⟨R.KEY_SEALED, 1, 0x0, 1, 0x0, 0x0, 0x0, 0x0, 0x0, 0x0, .plain, none, false, false, false⟩,
   ⟨R.KEY_BANK_SEQ, 1, 0x0, 1, 0x0, 0x0, 0x0, 0x0, 0x0, 0x0, .plain, none, false, false, false⟩,
   ⟨R.KEY_TRNG_FAILS, 1, 0x0, 1, 0x0, 0x0, 0x0, 0x0, 0x0, 0x0, .clears, none, false, false, false⟩,
   ⟨R.KEY_TAMPER_CFG, 1, 0x0, 1, 0x0, 0x0, 0xF3FFF, 0x0, 0x0, 0x0, .plain, none, true, true, false⟩,
   ⟨R.KEY_TAMPER_FILT, 1, 0x0, 1, 0x0, 0x1010101, 0xFFFFFFFF, 0x0, 0x0, 0x0, .plain, none, true, true, false⟩,
   ⟨R.KEY_TAMPER_STATUS, 1, 0x0, 1, 0x0, 0x0, 0x0, 0x0, 0x10000, 0x0, .plain, none, true, true, false⟩,
   ⟨R.KEY_TAMPER_COUNT, 1, 0x0, 1, 0x0, 0x0, 0x0, 0x0, 0x0, 0x0, .plain, none, true, false, false⟩,
   ⟨R.KEY_ID_PUB 0, 24, 0x4, 1, 0x0, 0x0, 0x0, 0x0, 0x0, 0x0, .plain, none, false, false, false⟩,
   ⟨R.KEY_TAMPER_LOG_LO 0, 8, 0x10, 1, 0x0, 0x0, 0x0, 0x0, 0x0, 0x0, .plain, none, true, false, false⟩,
   ⟨R.KEY_TAMPER_LOG_HI 0, 8, 0x10, 1, 0x0, 0x0, 0x0, 0x0, 0x0, 0x0, .plain, none, true, false, false⟩,
   ⟨R.KEY_TAMPER_LOG_FRAC 0, 8, 0x10, 1, 0x0, 0x0, 0x0, 0x0, 0x0, 0x0, .plain, none, true, false, false⟩]

/-- The registers of block EVR. -/
def regsEvr : List RegRow :=
  [
   ⟨R.EVR_STATUS, 1, 0x0, 1, 0x0, 0x0, 0x0, 0x0, 0x0, 0x0, .plain, none, false, false, false⟩,
   ⟨R.EVR_CONFIG, 1, 0x0, 1, 0x0, 0x15103E8, 0x0, 0x0, 0x0, 0x0, .plain, none, false, false, false⟩,
   ⟨R.EVR_RECORDS, 1, 0x0, 1, 0x0, 0x0, 0x0, 0x0, 0x0, 0x0, .plain, none, false, false, false⟩,
   ⟨R.EVR_SEQ_NEWEST, 1, 0x0, 1, 0x0, 0x0, 0x0, 0x0, 0x0, 0x0, .plain, none, false, false, false⟩,
   ⟨R.EVR_SEQ_OLDEST, 1, 0x0, 1, 0x0, 0x0, 0x0, 0x0, 0x0, 0x0, .plain, none, false, false, false⟩,
   ⟨R.EVR_QUEUE, 1, 0x0, 1, 0x0, 0x0, 0x0, 0x0, 0x0, 0x0, .plain, none, false, false, false⟩,
   ⟨R.EVR_QUEUE_PEAK, 1, 0x0, 1, 0x0, 0x0, 0x0, 0x0, 0x0, 0x0, .peak, none, false, false, false⟩,
   ⟨R.EVR_LOST_PENDING, 1, 0x0, 1, 0x0, 0x0, 0x0, 0x0, 0x0, 0x0, .plain, none, false, false, false⟩,
   ⟨R.EVR_LOST_TOTAL, 1, 0x0, 1, 0x0, 0x0, 0x0, 0x0, 0x0, 0x0, .clears, none, false, false, false⟩,
   ⟨R.EVR_DROPPED, 1, 0x0, 1, 0x0, 0x0, 0x0, 0x0, 0x0, 0x0, .clears, none, false, false, false⟩,
   ⟨R.EVR_OVERWRITES, 1, 0x0, 1, 0x0, 0x0, 0x0, 0x0, 0x0, 0x0, .clears, none, false, false, false⟩,
   ⟨R.EVR_REPEATS, 1, 0x0, 1, 0x0, 0x0, 0x0, 0x0, 0x0, 0x0, .clears, none, false, false, false⟩,
   ⟨R.EVR_FREEZE_LEFT, 1, 0x0, 1, 0x0, 0x0, 0x0, 0x0, 0x0, 0x0, .plain, none, false, false, false⟩]

/-- The registers of block HLT. [DESIGN CHOICE, log entry 9] -/
def regsHlt : List RegRow :=
  [
   ⟨R.HLT_RESERVE, 1, 0x0, 1, 0x0, 0x0, 0x0, 0x0, 0x0, 0x0, .plain, none, false, false, false⟩,
   ⟨R.HLT_LIFE_USED, 1, 0x0, 1, 0x0, 0x0, 0x0, 0x0, 0x0, 0x0, .plain, none, false, false, false⟩,
   ⟨R.HLT_EQUIV_S_LO, 1, 0x0, 1, 0x0, 0x0, 0x0, 0x0, 0x0, 0x0, .plain, none, false, false, false⟩,
   ⟨R.HLT_EQUIV_S_HI, 1, 0x0, 1, 0x0, 0x0, 0x0, 0x0, 0x0, 0x0, .plain, none, false, false, false⟩,
   ⟨R.HLT_POWER_HOURS, 1, 0x0, 1, 0x0, 0x0, 0x0, 0x0, 0x0, 0x0, .plain, none, false, false, false⟩,
   ⟨R.HLT_POWER_CYCLES, 1, 0x0, 1, 0x0, 0x0, 0x0, 0x0, 0x0, 0x0, .plain, none, false, false, false⟩,
   ⟨R.HLT_CTRL, 1, 0x0, 1, 0x0, 0x2, 0x3, 0x0, 0x0, 0x0, .plain, none, false, true, false⟩,
   ⟨R.HLT_CORE_RETIRE, 1, 0x0, 1, 0x0, 0x190, 0x3FF, 0x0, 0x0, 0x0, .plain, none, false, true, false⟩,
   ⟨R.HLT_SCRUB_PERIOD, 1, 0x0, 1, 0x0, 0x3C, 0x7FF, 0x0, 0x0, 0x0, .plain, none, false, false, false⟩,
   ⟨R.HLT_SCRUB_PASSES, 1, 0x0, 1, 0x0, 0x0, 0x0, 0x0, 0x0, 0x0, .clears, none, false, false, false⟩,
   ⟨R.HLT_SPARES 0, 8, 0x4, 1, 0x0, 0x0, 0x0, 0x0, 0x0, 0x0, .plain, none, false, false, false⟩,
   ⟨R.HLT_ECC_CORR 0, 8, 0x4, 1, 0x0, 0x0, 0x0, 0x0, 0x0, 0x0, .clears, none, false, false, false⟩,
   ⟨R.HLT_ECC_UNCORR 0, 8, 0x4, 1, 0x0, 0x0, 0x0, 0x0, 0x0, 0x0, .clears, none, false, false, false⟩,
   ⟨R.HLT_SENSOR_LO 0, 32, 0x8, 1, 0x0, 0x8000, 0x0, 0x0, 0x0, 0x0, .plain, none, false, false, false⟩,
   ⟨R.HLT_SENSOR_HI 0, 32, 0x8, 1, 0x0, 0x0, 0x0, 0x0, 0x0, 0x0, .plain, none, false, false, false⟩,
   ⟨R.HLT_PERF_SEL 0, 64, 0x4, 1, 0x0, 0x0, 0x0, 0x0, 0x0, 0x0, .plain, none, false, false, false⟩,
   ⟨R.HLT_PERF_LO 0, 64, 0x8, 1, 0x0, 0x0, 0x0, 0x0, 0x0, 0x0, .plain, none, false, false, true⟩,
   ⟨R.HLT_PERF_HI 0, 64, 0x8, 1, 0x0, 0x0, 0x0, 0x0, 0x0, 0x0, .plain, none, false, false, true⟩,
   ⟨R.HLT_PERF_OVF_LO, 1, 0x0, 1, 0x0, 0x0, 0x0, 0x0, 0xFFFFFFFF, 0x0, .plain, none, false, false, true⟩,
   ⟨R.HLT_PERF_OVF_HI, 1, 0x0, 1, 0x0, 0x0, 0x0, 0x0, 0xFFFFFFFF, 0x0, .plain, none, false, false, true⟩,
   ⟨R.HLT_PERF_CTRL, 1, 0x0, 1, 0x0, 0x0, 0x1, 0x0, 0x0, 0x0, .plain, none, false, false, false⟩,
   ⟨R.HLT_BW_WINDOW, 1, 0x0, 1, 0x0, 0x3E8, 0xFFFF, 0x0, 0x0, 0x0, .plain, none, false, false, false⟩,
   ⟨R.HLT_BW_SEQ, 1, 0x0, 1, 0x0, 0x0, 0x0, 0x0, 0x0, 0x0, .plain, none, false, false, false⟩,
   ⟨R.HLT_BW_RX_LO 0, 21, 0x10, 1, 0x0, 0x0, 0x0, 0x0, 0x0, 0x0, .plain, none, false, false, false⟩,
   ⟨R.HLT_BW_RX_HI 0, 21, 0x10, 1, 0x0, 0x0, 0x0, 0x0, 0x0, 0x0, .plain, none, false, false, false⟩,
   ⟨R.HLT_BW_TX_LO 0, 21, 0x10, 1, 0x0, 0x0, 0x0, 0x0, 0x0, 0x0, .plain, none, false, false, false⟩,
   ⟨R.HLT_BW_TX_HI 0, 21, 0x10, 1, 0x0, 0x0, 0x0, 0x0, 0x0, 0x0, .plain, none, false, false, false⟩]

/-- The registers of block BAR2. [PRESUMED, log entries 11, 20] -/
def regsBar2 : List RegRow :=
  [
   ⟨R.BAR2_MSIX 0 0, 32, 0x10, 4, 0x4, 0x0, 0xFFFFFFFF, 0x0, 0x0, 0x0, .plain, none, false, false, false⟩,
   ⟨R.BAR2_PBA, 1, 0x0, 1, 0x0, 0x0, 0x0, 0x0, 0x0, 0x0, .plain, none, false, false, false⟩]

/-- The registers of the block whose MiB an address lies in (R33); the MSI-X table and pending bits of BAR2 (R88)
stand above the 40-bit map. -/
def regsOf (a : Nat) : List RegRow :=
  match a / 0x100000 with
  | 0x40 => regsSys
  | 0x41 => regsCmd
  | 0x42 => regsSpine
  | 0x4F => regsXing
  | 0x50 => regsLc
  | 0x43 => regsCyc
  | 0x44 => regsStn
  | 0x45 => regsSolv
  | 0x46 => regsMet
  | 0x47 => regsNet
  | 0x48 => regsTime
  | 0x4A => regsRtc
  | 0x49 => regsCan
  | 0x4C => regsRed
  | 0x4B => regsKey
  | 0x4D => regsEvr
  | 0x4E => regsHlt
  | 0x100000 => regsBar2
  | _ => []

/-- Whether a row covers an address, and the two indices of the register there. -/
def RegRow.at (r : RegRow) (a : Nat) : Option (Nat × Nat) :=
  if a < r.base then none
  else if r.stride0 = 0 then (if a = r.base then some (0, 0) else none)
  else
    let i := (a - r.base) / r.stride0
    let rem := (a - r.base) % r.stride0
    if r.count0 ≤ i then none
    else if r.stride1 = 0 then (if rem = 0 then some (i, 0) else none)
    else if rem % r.stride1 = 0 ∧ rem / r.stride1 < r.count1 then some (i, rem / r.stride1) else none

/-- The row among `rs` that covers an address, with its indices. -/
def findRow : List RegRow → Nat → Option (RegRow × Nat × Nat)
  | [], _ => none
  | r :: rs, a =>
    match r.at a with
    | some (i, j) => some (r, i, j)
    | none => findRow rs a

/-- The row of the register at an address: `none` where no register is mapped (R12). -/
def regRow (a : Nat) : Option (RegRow × Nat × Nat) := findRow (regsOf a) a

/-- The counts of `SYS.CAPS` (R7). -/
def capsCounts : List Nat :=
  [18, 16, 2, 4, 64, 8, 8192, 16384, 4096, 1024, 2048, 16, 4, 4, 32, 2048, 32, 16, 32, 131072, 25, 128, 256, 4096,
   32768, 2, 1, 64, 96]

/-- The reset value of the register at an address (R6, R89 and the reset columns): `SYS.CAPS[n]` holds the counts,
`CMD.RING_CFG[n]` holds its own number in VECTOR, and the MSI-X vectors are masked, as the PCIe Base Specification has
it. [PRESUMED, log entry 11] -/
def regReset (a : Nat) : Word :=
  match regRow a with
  | none => 0
  | some (r, i, j) =>
    if r.base = R.BAR2_MSIX 0 0 then (if j = 3 then 1 else 0)
    else if r.base = R.SYS_CAPS 0 then BitVec.ofNat 32 ((capsCounts[i]?).getD 0)
    else if r.base = R.CMD_RING_CFG 0 then BitVec.ofNat 32 (r.reset + i * 0x100)
    else BitVec.ofNat 32 r.reset

end Sys2Proof.Machine
end

