-- ==== Sys2Proof/Syntax.lean ====
section
/-! DEFINITION. The commands that the block takes: one constructor for each row of the operation and event table,
with the operands that the row's rule names, and the small types that those operands use. -/

namespace Sys2Proof


/-! ### Operands of the logic-core instructions (R160 to R178) -/

/-- An immediate: the short field of `n` bits, or the literal word that follows the instruction (R161). -/
inductive Imm (n : Nat) where
  | short (v : BitVec n)
  | literal (v : Word)
  deriving DecidableEq, Repr

/-- How a compare combines its condition into the flag: COMB of R165. -/
inductive Comb where
  | set
  | and
  | or
  deriving DecidableEq, Repr

/-- The conditions of R165 that are not reserved. -/
inductive Cond where
  | eq
  | ne
  | lt
  | ge
  | ltu
  | geu
  | tst
  deriving DecidableEq, Repr

/-- The ordering suffix of an atomic (R67, R171). -/
inductive AtomicOrder where
  | none
  | acq
  | rel
  | ar
  deriving DecidableEq, Repr

/-! ### What the solver engines meet

A check of R341 inside an iteration is named by its number: 0 is the iteration boundary before it, and each stage boundary
of each sweep, and each retry, follows in order. Lanes are numbered 128 × engine + lane. -/

/-- What shows in one iteration: the lanes with a residue mismatch, each with the number of the check that ends the work in
which it showed (R356, R357), and the lanes that fail the known-answer test before run-ahead work. -/
structure IterResult where
  mism : List (Nat × Nat)
  kat : List Nat
  deriving DecidableEq, Repr

/-- Where a job is cut off: the number of the check that observes its end, and what shows in the iteration up to there. -/
structure SolveEnd where
  check : Nat
  mism : List (Nat × Nat)
  kat : List Nat
  deriving DecidableEq, Repr

/-- A time sample of a PTP port: what the message carried and the measured times, in units of 2^-32 s. -/
structure PtpSample where
  version : Nat
  domain : Nat
  /-- Port identity of the sender, 10 bytes. -/
  ident : List Byte
  seq : Nat
  /-- Origin and ingress time stamps, correction field, and mean path or link delay. -/
  t1 : Int
  t2 : Int
  corr : Int
  delay : Int
  deriving DecidableEq, Repr

/-- A frame received on a switch port: its bytes from the destination address to the last payload byte, as plain text;
whether its FCS is good; and the MACsec tag it came under, if any: SCI, AN, packet number, and whether it verifies under
the key of that association. [DESIGN CHOICE, log entry 87] -/
structure RxFrame where
  bytes : List Byte
  fcsOk : Bool
  sec : Option (Nat × Nat × Nat × Bool)
  deriving DecidableEq, Repr

/-- A frame received on a CAN bus: ID word with IDE, FDF and BRS (R477), DLC, RTR, ESI and data. -/
structure CanFrame where
  idWord : Word
  dlc : Nat
  rtr : Bool
  esi : Bool
  data : List Byte
  deriving DecidableEq, Repr

/-- How a transmit attempt ends (R483, R484); `exempt` tells that ISO 11898-1 exempts the error from the increase of
TEC. -/
inductive CanEnd where
  | sent
  | arbLost
  | error (exempt : Bool)
  | clash
  deriving DecidableEq, Repr

namespace Machine

/-- The program placed in code SRAM: its image, whose symbol table forces and signal access use (R234, R237), and the
address of its code start. -/
structure Prog where
  image : List Byte
  codeBase : Nat
  deriving DecidableEq, Repr

/-- A force (R218). -/
structure Force where
  id : Nat
  quality : Byte
  type : Byte
  value : List Byte
  deriving DecidableEq, Repr

/-- An admission record (R265); segment and station number are its key. -/
structure Adm where
  serial : List Byte
  keyHash : List Byte
  inFirst : Nat
  inCount : Nat
  outFirst : Nat
  outCount : Nat
  holdMs : Nat
  groups : List Nat
  boxCrc : Option Nat
  deriving DecidableEq, Repr

/-- A join token (R266). -/
structure Token where
  pos : Nat
  /-- The one serial number it is bound to. -/
  serial : Option (List Byte)
  secret : List Byte
  expires : Option Instant
  /-- Issued by STN_TOKEN_ISSUE. -/
  host : Bool
  deriving DecidableEq, Repr

/-- What the station engine keeps for one input signal (R272, R274). -/
structure SigIn where
  /-- Sample instant of the last accepted value. -/
  last : Option Instant
  /-- The next accepted sample is the first after admission. -/
  first : Bool
  /-- Written in the present input phase. -/
  written : Bool
  deriving DecidableEq, Repr

/-- A station context (R247). `state` is the value of R270. -/
structure Ctx where
  ix : Nat
  state : Nat
  mac : Nat
  key : List Byte
  epoch : Nat
  txSeq : Nat
  rxSeq : Nat
  claim : Nat
  delayUs : Nat
  absentCount : Nat
  joinCount : Nat
  boxActive : Bool
  /-- Raw count at which it became ABSENT. -/
  absentAt : Nat
  /-- Bus cycles away. -/
  away : Nat
  /-- Its next ACTIVE logs EV_STN_ADMITTED. -/
  fresh : Bool
  acked : Bool
  /-- Fragments of the present INPUT (R261). -/
  frags : List (Nat × List Byte)
  sigs : List SigIn
  deriving DecidableEq, Repr

/-- The baseline of a meter: counters, their width, and the instant of its previous sample (R377, R378). -/
structure Baseline where
  fwd : Nat
  rev : Nat
  bits : Nat
  time : Instant
  /-- What device time has been stepped by since (R448). -/
  step : Int
  deriving DecidableEq, Repr

/-- A version of a problem descriptor in a slot (R304 to R310). -/
structure DescVer where
  /-- The number of its load. -/
  ver : Nat
  home : Nat
  bytes : List Byte
  /-- CRC-32 of header, binding and scaling sections (R307). -/
  sum : Word
  /-- 0 one engine resident, 1 one streaming, 2 four resident, 3 four streaming (R316). -/
  place : Nat
  /-- The signal index of each binding, none where it does not resolve (R309). -/
  binds : List (Option Nat)
  stored : Bool
  deriving DecidableEq, Repr

/-- The configuration of a segment (R292, STN_SEGMENT_CONFIG). -/
structure SegCfg where
  n : Nat
  joinAuto : Bool
  w : Nat
  bIn : Nat
  bOut : Nat
  dmax : Nat
  unbound : Nat
  sessionMs : Nat
  deriving DecidableEq, Repr

/-- An analog channel as MET_CHANNEL_CONFIG sets it; the four numbers are FP32. -/
structure AnCfg where
  kind : Nat
  fullScale : Nat
  peak : Nat
  overLimit : Nat
  nominal : Nat
  deriving DecidableEq, Repr

/-- An electric set as MET_CHANNEL_CONFIG sets it (R371). -/
structure SetCfg where
  v : Nat
  i : Nat
  enable : Bool
  invert : Bool
  /-- T of R390. -/
  t : Nat
  deriving DecidableEq, Repr

/-- A virtual meter as MET_METER_CONFIG sets it (R376); mode 0 is off. -/
structure MeterCfg where
  mode : Nat
  /-- [0] NET, [1] REV_SWAP, [2] FLOW_IN_SUPPLY. -/
  flags : Byte
  medium : Nat
  seg : Nat
  stn : Nat
  fwd : Nat
  rev : Nat
  sup : Nat
  ret : Nat
  countVol : Nat
  maxRate : Nat
  t : Nat
  pressure : Nat
  dMin : Nat
  offS : Nat
  offR : Nat
  gap : Nat
  age : Nat
  deriving DecidableEq, Repr

/-- The window grid (R402); CLOSE_WAIT in ms. -/
structure Tariff where
  pw : Nat
  off : Nat
  pd : Nat
  closeWait : Nat
  deriving DecidableEq, Repr

/-- A pulse output as MET_PULSE_CONFIG sets it: source 1 a meter, 2 a set (R391). -/
structure PulseCfg where
  src : Nat
  reg : Nat
  ix : Nat
  weight : Nat
  width : Nat
  pause : Nat
  deriving DecidableEq, Repr

/-- The metering configuration. -/
structure MetCfg where
  chans : List (Nat × AnCfg)
  sets : List (Nat × SetCfg)
  meters : List (Nat × MeterCfg)
  /-- The user layer: FP32 gain, offset in codes and delay in steps of each channel (R367); empty before any. -/
  cal : List (Nat × Int × Int)
  /-- User medium tables: θ, h and ρ of each point, FP32 (R385). -/
  tables : List (Nat × List (Nat × Nat × Nat))
  tariff : Option Tariff
  pulses : List (Nat × PulseCfg)
  deriving DecidableEq, Repr

/-- A descriptor slot (R310, R312, R345). -/
structure DescSlot where
  cur : Option DescVer
  /-- Retiring versions. -/
  old : List DescVer
  /-- A load of length 0 waits for the end of the slot's jobs. -/
  emptying : Bool
  /-- The value (FP32) that each input binding supplied to the last accepted job, by binding index. -/
  last : List (Nat × Nat)
  /-- The tail source: a plan of R360. -/
  tail : Option (List Nat)
  /-- Raw counts of the last EV_SOLV_INPUT_SUBST and EV_SOLV_PIVOT_REG. -/
  substLog : Option Nat
  pivotLog : Option Nat
  deriving DecidableEq, Repr

end Machine

/-- What a host access over BAR0 does: a read, a write of bytes, or an AtomicOp request (R34, R60, R85). -/
inductive HostAccess where
  | read
  | write (data : List Byte)
  | atomic
  deriving DecidableEq, Repr

/-- What has flipped in the part since the last CK_RTC tick: a bit of a memory word (R27), or bits of an
instruction-cache line that a logical core fetches, with its parity failures in a row (R184).
[DESIGN CHOICE, log entry 139] -/
inductive Upset where
  | word (addr : BitVec 40)
  | fetch (l : Fin 16) (line : BitVec 40) (fails : Fin 4)
  deriving DecidableEq, Repr

/-- What the block meets at a CK_RTC tick: the tamper sources that are tripped, and what has flipped since the last tick
(R27, R184, R555). -/
structure TickIn where
  tamper : BitVec 7
  upsets : List Upset
  deriving DecidableEq, Repr

/-- Which section of the image a load reads, the output section or an input section, and the parity failures in a row of
the cache line that holds the entry (R174, R184). -/
structure ImageRead where
  out : Bool
  parity : Fin 4
  deriving DecidableEq, Repr

/-- A heartbeat block (R513): role with SYNCED, claim, mode and last completed cycle numbers; with it a notice of
RED_LEAVE and, for source LINK, the difference of the two device times (R446). [DESIGN CHOICE, log entry 108] -/
structure Heartbeat where
  role : Nat
  synced : Bool
  claim : Nat
  mode : Nat
  cycles : List Nat
  leaving : Bool
  theta : Option Int
  deriving DecidableEq, Repr

/-- A state copy, or the whole of a full synchronisation (R514, R517, R518). [DESIGN CHOICE, log entry 108] -/
structure StateCopy where
  task : Nat
  /-- Number and release tick of the cycle, and the task's overrun and fault counts. -/
  cycle : Nat
  release : Nat
  overruns : Nat
  faults : Nat
  mode : Nat
  final : Bool
  /-- The copy would exceed 10 MiB and holds nothing. -/
  oversize : Bool
  /-- 256-byte granules by address. -/
  granules : List (Nat × List Byte)
  /-- The task table, by address. -/
  table : List (Nat × Word)
  prog : Option Machine.Prog
  forces : List Machine.Force
  adms : List (Nat × Machine.Adm)
  tokens : List (Nat × Machine.Token)
  ctxs : List (Nat × Machine.Ctx)
  /-- Key, epoch and group-frame sequence of each segment. -/
  keys : List (List Byte × Nat × Nat)
  slots : List Machine.DescSlot
  /-- Counter baselines of the virtual meters. -/
  bases : List (Nat × Machine.Baseline)
  /-- Segment configurations, the segments last enabled, and the metering configuration (R517). -/
  segs : List (Nat × Machine.SegCfg)
  segOn : BitVec 20
  met : Machine.MetCfg
  /-- The image of a loaded full change, for the inactive code half (R524). -/
  pkg : Option (List Byte)
  deriving DecidableEq, Repr

/-- The commands of the block: one constructor for each row of spec/opcode_table.json.
[DESIGN CHOICE, log entry 12] -/
inductive Instr where
  /-- ADDI (R163): Adds a signed immediate to a register. -/
  | addi (l d a : Fin 16) (imm : Imm 17)
  /-- ANDI (R163): ANDs a register with an immediate. -/
  | andi (l d a : Fin 16) (imm : Imm 17)
  /-- ORI (R163): ORs a register with an immediate. -/
  | ori (l d a : Fin 16) (imm : Imm 17)
  /-- XORI (R163): XORs a register with an immediate. -/
  | xori (l d a : Fin 16) (imm : Imm 17)
  /-- SHLI (R163): Shifts a register left by an immediate amount. -/
  | shli (l d a : Fin 16) (n : Fin 64)
  /-- SHRI (R163): Shifts a register right logically by an immediate amount. -/
  | shri (l d a : Fin 16) (n : Fin 64)
  /-- SARI (R163): Shifts a register right arithmetically by an immediate amount. -/
  | sari (l d a : Fin 16) (n : Fin 64)
  /-- RORI (R163): Rotates a register right by an immediate amount. -/
  | rori (l d a : Fin 16) (n : Fin 64)
  /-- MOVHI (R163): Places an immediate in the upper 32 bits and keeps the low 32 bits of the source. -/
  | movhi (l d a : Fin 16) (imm : Imm 17)
  /-- ADD (R164): Adds two registers modulo 2^64. -/
  | add (l d a b : Fin 16)
  /-- SUB (R164): Subtracts two registers modulo 2^64. -/
  | sub (l d a b : Fin 16)
  /-- AND (R164): Bitwise AND of two registers. -/
  | and (l d a b : Fin 16)
  /-- OR (R164): Bitwise OR of two registers. -/
  | or (l d a b : Fin 16)
  /-- XOR (R164): Bitwise XOR of two registers. -/
  | xor (l d a b : Fin 16)
  /-- ANDN (R164): A AND NOT B. -/
  | andn (l d a b : Fin 16)
  /-- SHL (R164): Shift left by a register amount. -/
  | shl (l d a b : Fin 16)
  /-- SHR (R164): Logical shift right by a register amount. -/
  | shr (l d a b : Fin 16)
  /-- SAR (R164): Arithmetic shift right by a register amount. -/
  | sar (l d a b : Fin 16)
  /-- ROR (R164): Rotate right by a register amount. -/
  | ror (l d a b : Fin 16)
  /-- MUL (R164): Low 64 bits of the product. -/
  | mul (l d a b : Fin 16)
  /-- MULH (R164): High 64 bits of the signed product. -/
  | mulh (l d a b : Fin 16)
  /-- MULHU (R164): High 64 bits of the unsigned product. -/
  | mulhu (l d a b : Fin 16)
  /-- DIV (R164): Signed quotient toward zero, never trapping. -/
  | div (l d a b : Fin 16)
  /-- DIVU (R164): Unsigned quotient, never trapping. -/
  | divu (l d a b : Fin 16)
  /-- REM (R164): Signed remainder with the sign of A. -/
  | rem (l d a b : Fin 16)
  /-- REMU (R164): Unsigned remainder. -/
  | remu (l d a b : Fin 16)
  /-- MIN (R164): Signed minimum. -/
  | min (l d a b : Fin 16)
  /-- MAX (R164): Signed maximum. -/
  | max (l d a b : Fin 16)
  /-- MINU (R164): Unsigned minimum. -/
  | minu (l d a b : Fin 16)
  /-- MAXU (R164): Unsigned maximum. -/
  | maxu (l d a b : Fin 16)
  /-- SEL (R164): Selects A or B by a condition flag. -/
  | sel (l d a b : Fin 16) (c : Fin 4)
  /-- CLZ (R164): Counts leading zeros. -/
  | clz (l d a : Fin 16)
  /-- CTZ (R164): Counts trailing zeros. -/
  | ctz (l d a : Fin 16)
  /-- POPC (R164): Counts set bits. -/
  | popc (l d a : Fin 16)
  /-- SEXT_B (R164): Sign-extends from bit 7. -/
  | sextB (l d a : Fin 16)
  /-- SEXT_H (R164): Sign-extends from bit 15. -/
  | sextH (l d a : Fin 16)
  /-- SEXT_W (R164): Sign-extends from bit 31. -/
  | sextW (l d a : Fin 16)
  /-- ZEXT_W (R164): Zero-extends from bit 31. -/
  | zextW (l d a : Fin 16)
  /-- CMP (R165): Compares two registers and combines the result into a flag. -/
  | cmp (l : Fin 16) (comb : Comb) (k : Fin 4) (cond : Cond) (a b : Fin 16)
  /-- CMPI (R165): Compares a register with an immediate and combines the result into a flag. -/
  | cmpi (l : Fin 16) (comb : Comb) (k : Fin 4) (cond : Cond) (a : Fin 16) (imm : Imm 14)
  /-- LDB (R168): Loads a sign-extended byte. -/
  | ldb (l d a : Fin 16) (imm : Imm 17) (parity : Fin 4)
  /-- LDBU (R168): Loads a zero-extended byte. -/
  | ldbu (l d a : Fin 16) (imm : Imm 17) (parity : Fin 4)
  /-- LDH (R168): Loads a sign-extended halfword. -/
  | ldh (l d a : Fin 16) (imm : Imm 17) (parity : Fin 4)
  /-- LDHU (R168): Loads a zero-extended halfword. -/
  | ldhu (l d a : Fin 16) (imm : Imm 17) (parity : Fin 4)
  /-- LDW (R168): Loads a sign-extended word, the permitted register-space load. -/
  | ldw (l d a : Fin 16) (imm : Imm 17) (parity : Fin 4)
  /-- LDWU (R168): Loads a zero-extended word. -/
  | ldwu (l d a : Fin 16) (imm : Imm 17) (parity : Fin 4)
  /-- LDD (R168): Loads a doubleword. -/
  | ldd (l d a : Fin 16) (imm : Imm 17) (parity : Fin 4)
  /-- STB (R168): Stores a byte. -/
  | stb (l d a : Fin 16) (imm : Imm 17)
  /-- STH (R168): Stores a halfword. -/
  | sth (l d a : Fin 16) (imm : Imm 17)
  /-- STW (R168): Stores a word, the permitted register-space store. -/
  | stw (l d a : Fin 16) (imm : Imm 17)
  /-- STD (R168): Stores a doubleword. -/
  | std (l d a : Fin 16) (imm : Imm 17)
  /-- FLDS (R163): Loads an FP32 value into a v register. -/
  | flds (l d a : Fin 16) (imm : Imm 17) (parity : Fin 4)
  /-- FLDD (R163): Loads an FP64 value into a v register. -/
  | fldd (l d a : Fin 16) (imm : Imm 17) (parity : Fin 4)
  /-- FSTS (R163): Stores an FP32 value from a v register. -/
  | fsts (l d a : Fin 16) (imm : Imm 17)
  /-- FSTD (R163): Stores an FP64 value from a v register. -/
  | fstd (l d a : Fin 16) (imm : Imm 17)
  /-- ASWAP (R171): Atomic swap with ordering form. -/
  | aswap (l : Fin 16) (dbl : Bool) (ord : AtomicOrder) (d a b : Fin 16)
  /-- AADD (R171): Atomic add returning the old value. -/
  | aadd (l : Fin 16) (dbl : Bool) (ord : AtomicOrder) (d a b : Fin 16)
  /-- AAND (R171): Atomic AND returning the old value. -/
  | aand (l : Fin 16) (dbl : Bool) (ord : AtomicOrder) (d a b : Fin 16)
  /-- AOR (R171): Atomic OR returning the old value. -/
  | aor (l : Fin 16) (dbl : Bool) (ord : AtomicOrder) (d a b : Fin 16)
  /-- AXOR (R171): Atomic XOR returning the old value. -/
  | axor (l : Fin 16) (dbl : Bool) (ord : AtomicOrder) (d a b : Fin 16)
  /-- AMIN (R171): Atomic signed minimum. -/
  | amin (l : Fin 16) (dbl : Bool) (ord : AtomicOrder) (d a b : Fin 16)
  /-- AMAX (R171): Atomic signed maximum. -/
  | amax (l : Fin 16) (dbl : Bool) (ord : AtomicOrder) (d a b : Fin 16)
  /-- AMINU (R171): Atomic unsigned minimum. -/
  | aminu (l : Fin 16) (dbl : Bool) (ord : AtomicOrder) (d a b : Fin 16)
  /-- AMAXU (R171): Atomic unsigned maximum. -/
  | amaxu (l : Fin 16) (dbl : Bool) (ord : AtomicOrder) (d a b : Fin 16)
  /-- ACAS (R171): Atomic compare-and-swap setting a flag when it wrote. -/
  | acas (l : Fin 16) (dbl : Bool) (ord : AtomicOrder) (d a b : Fin 16) (c : Fin 4)
  /-- IMLD_I (R174): Loads an integer-class signal value and tests its quality into a flag. -/
  | imldI (l d : Fin 16) (base : Option (Fin 16)) (src : ImageRead) (k : Fin 4) (off : Imm 10)
  /-- IMLD_F (R174): Loads a float-class signal value and tests its quality into a flag. -/
  | imldF (l d : Fin 16) (base : Option (Fin 16)) (src : ImageRead) (k : Fin 4) (off : Imm 10)
  /-- IMST_I (R174): Stores an integer value into an output signal's value bytes. -/
  | imstI (l d : Fin 16) (base : Option (Fin 16)) (off : Imm 10)
  /-- IMST_F (R174): Stores a float value into an output signal's value bytes. -/
  | imstF (l d : Fin 16) (base : Option (Fin 16)) (off : Imm 10)
  /-- IMQ (R174): Loads a signal's quality byte and tests it into a flag. -/
  | imq (l d : Fin 16) (base : Option (Fin 16)) (src : ImageRead) (k : Fin 4) (off : Imm 10)
  /-- IMTS (R174): Loads a signal's time-stamp fraction. -/
  | imts (l d : Fin 16) (base : Option (Fin 16)) (src : ImageRead) (off : Imm 10)
  /-- FADD (R167): Floating-point add. -/
  | fadd (l : Fin 16) (dbl : Bool) (d a b : Fin 16)
  /-- FSUB (R167): Floating-point subtract. -/
  | fsub (l : Fin 16) (dbl : Bool) (d a b : Fin 16)
  /-- FMUL (R167): Floating-point multiply. -/
  | fmul (l : Fin 16) (dbl : Bool) (d a b : Fin 16)
  /-- FDIV (R167): Floating-point divide. -/
  | fdiv (l : Fin 16) (dbl : Bool) (d a b : Fin 16)
  /-- FSQRT (R167): Floating-point square root. -/
  | fsqrt (l : Fin 16) (dbl : Bool) (d a : Fin 16)
  /-- FMIN (R167): Floating-point minimum ignoring a single NaN. -/
  | fmin (l : Fin 16) (dbl : Bool) (d a b : Fin 16)
  /-- FMAX (R167): Floating-point maximum ignoring a single NaN. -/
  | fmax (l : Fin 16) (dbl : Bool) (d a b : Fin 16)
  /-- FABS (R167): Absolute value without flags. -/
  | fabs (l : Fin 16) (dbl : Bool) (d a : Fin 16)
  /-- FNEG (R167): Negation without flags. -/
  | fneg (l : Fin 16) (dbl : Bool) (d a : Fin 16)
  /-- FMOV (R167): Register move without flags. -/
  | fmov (l : Fin 16) (dbl : Bool) (d a : Fin 16)
  /-- FCVT (R167): Converts between FP32 and FP64. -/
  | fcvt (l : Fin 16) (dbl : Bool) (d a : Fin 16)
  /-- FTOI (R167): Converts to a saturated signed 64-bit integer toward zero. -/
  | ftoi (l : Fin 16) (dbl : Bool) (d a : Fin 16)
  /-- ITOF (R167): Converts a signed integer to floating point. -/
  | itof (l : Fin 16) (dbl : Bool) (d a : Fin 16)
  /-- UTOF (R167): Converts an unsigned integer to floating point. -/
  | utof (l : Fin 16) (dbl : Bool) (d a : Fin 16)
  /-- FMVTW (R167): Moves raw bits from a v register to a w register. -/
  | fmvtw (l : Fin 16) (dbl : Bool) (d a : Fin 16)
  /-- FMVFW (R167): Moves raw bits from a w register to a v register. -/
  | fmvfw (l : Fin 16) (dbl : Bool) (d a : Fin 16)
  /-- FMADD (R167): Fused multiply-add. -/
  | fmadd (l : Fin 16) (dbl : Bool) (d a b c : Fin 16)
  /-- FMSUB (R167): Fused multiply-subtract. -/
  | fmsub (l : Fin 16) (dbl : Bool) (d a b c : Fin 16)
  /-- FNMADD (R167): Negated fused multiply-add. -/
  | fnmadd (l : Fin 16) (dbl : Bool) (d a b c : Fin 16)
  /-- FNMSUB (R167): Negated fused multiply-subtract. -/
  | fnmsub (l : Fin 16) (dbl : Bool) (d a b c : Fin 16)
  /-- FCMP_EQ (R167): Floating-point equality compare into a flag. -/
  | fcmpEq (l : Fin 16) (dbl : Bool) (comb : Comb) (k : Fin 4) (a b : Fin 16)
  /-- FCMP_LT (R167): Floating-point less-than compare into a flag. -/
  | fcmpLt (l : Fin 16) (dbl : Bool) (comb : Comb) (k : Fin 4) (a b : Fin 16)
  /-- FCMP_LE (R167): Floating-point less-or-equal compare into a flag. -/
  | fcmpLe (l : Fin 16) (dbl : Bool) (comb : Comb) (k : Fin 4) (a b : Fin 16)
  /-- FCMP_UN (R167): Floating-point unordered compare into a flag. -/
  | fcmpUn (l : Fin 16) (dbl : Bool) (comb : Comb) (k : Fin 4) (a b : Fin 16)
  /-- B (R163): Unconditional relative branch. -/
  | b (l : Fin 16) (off : BitVec 26)
  /-- BC (R163): Conditional relative branch on a flag. -/
  | bc (l : Fin 16) (k : Fin 4) (t : Bool) (off : BitVec 22)
  /-- CALL (R163): Relative call writing the return address to w15. -/
  | call (l : Fin 16) (off : BitVec 26)
  /-- JR (R163): Jump to a register address, ending the cycle at the cycle-end address. -/
  | jr (l a : Fin 16)
  /-- CALLR (R163): Call through a register, writing the return address to w[D]. -/
  | callr (l d a : Fin 16)
  /-- NOP (R178): No operation. -/
  | nop (l : Fin 16)
  /-- FENCE_LD (R61): Holds later accesses until earlier loads are performed. -/
  | fenceLd (l : Fin 16)
  /-- FENCE_ST (R61): Holds later stores until earlier stores are performed. -/
  | fenceSt (l : Fin 16)
  /-- FENCE_ALL (R61): Holds later accesses until all earlier accesses are performed. -/
  | fenceAll (l : Fin 16)
  /-- FENCE_IO (R62): Holds later accesses until earlier register writes have taken effect in their domains. -/
  | fenceIo (l : Fin 16)
  /-- CWAIT (R157): Ends the cycle after performing earlier accesses and signals the cycle engine. -/
  | cwait (l : Fin 16)
  /-- HOLDPT (R180): Holds the core and requests Hold when enabled in SOLO or MAINTENANCE in Run, else acts as NOP. -/
  | holdpt (l : Fin 16) (code : BitVec 12)
  /-- TRAP (R178): Takes a SOFTWARE trap with its code. -/
  | trap (l : Fin 16) (code : BitVec 12)
  /-- ERET (R178): Leaves the trap handler and returns to TPC. -/
  | eret (l : Fin 16)
  /-- MFS (R155): Reads a system register, capturing device time for TIME_SEC. -/
  | mfs (l d : Fin 16) (num : Byte)
  /-- MTS (R155): Writes a writable system register. -/
  | mts (l : Fin 16) (num : Byte) (a : Fin 16)
  /-- SYS_NOP (R121): Command with no effect, used as a barrier; completes with RESULT0 = RESULT1 = 0. -/
  | sysNop (id : Nat)
  /-- SYS_HELLO (R121): Command that returns CMD.SESSION without checking the session field. -/
  | sysHello (id : Nat)
  /-- SYS_GET_INFO (R122): Command that returns the 512-byte information block of identity, capabilities, firmware versions and measurements. -/
  | sysGetInfo (id : Nat)
  /-- SYS_READ (R121): Command that checks its fields and the host's rights, then reads up to 16,383 words of the address map. -/
  | sysRead (id : Nat)
  /-- SYS_WRITE (R121): Command that checks its fields, rights and authorisation, then writes words of the address map, privileged registers included when authorised. -/
  | sysWrite (id : Nat)
  /-- SYS_DOMAIN_ENABLE (R149): Command that enables a switched power domain, or holds the enable pending while the domain is stopping. -/
  | sysDomainEnable (id : Nat)
  /-- SYS_DOMAIN_DISABLE (R149): Command that disables a switched power domain after its preparatory actions, or cancels a pending enable. -/
  | sysDomainDisable (id : Nat)
  /-- SYS_DOMAIN_STATUS (R151): Command that returns the domain state, pending and fault registers. -/
  | sysDomainStatus (id : Nat)
  /-- SYS_RESET (R144): Authorised command that requests a device or management-core reset 1 ms after its status. -/
  | sysReset (id : Nat)
  /-- SYS_FW_WRITE (R122): Authorised command that writes one contiguous chunk of a firmware image into the inactive bank, erasing and reading back. -/
  | sysFwWrite (id : Nat) (good : Bool)
  /-- SYS_FW_ACTIVATE (R122): Authorised command that verifies a bank under R133 and writes the boot selection record naming it. -/
  | sysFwActivate (id : Nat)
  /-- SYS_LOCK (R122): Authorised command that sets SYS.LOCK.LOCKED and extends M2 once. -/
  | sysLock (id : Nat)
  /-- CYC_LOAD_PROGRAM (R233): Authorised command that takes a program image chunk by chunk and, at the last chunk, checks, stores and places it. -/
  | cycLoadProgram (id : Nat)
  /-- CYC_START (R214): Authorised command that enters Run from Stop, or resumes from Hold. -/
  | cycStart (id : Nat)
  /-- CYC_STOP (R214): Authorised command that enters Stop at the boundary or immediately. -/
  | cycStop (id : Nat)
  /-- CYC_HOLD (R215): Authorised command that enters Hold in the roles SOLO or MAINTENANCE. -/
  | cycHold (id : Nat)
  /-- CYC_STATUS (R243): Command that returns mode, change state, force count and every task's status group. -/
  | cycStatus (id : Nat)
  /-- CYC_TASK_CONFIG (R194): Authorised command that writes one task table entry in Stop after checking its validity. -/
  | cycTaskConfig (id : Nat)
  /-- CYC_FORCE_SET (R218): Authorised command that sets or replaces a force on a signal symbol. -/
  | cycForceSet (id : Nat)
  /-- CYC_FORCE_RELEASE (R220): Authorised command that releases one force or all forces. -/
  | cycForceRelease (id : Nat)
  /-- CYC_FORCE_LIST (R243): Command that returns the force table from a given index. -/
  | cycForceList (id : Nat)
  /-- CYC_CHANGE_LOAD (R223): Authorised command that checks a change package and places the new image in the inactive code half. -/
  | cycChangeLoad (id : Nat)
  /-- CYC_CHANGE_APPLY (R224): Authorised command that checks force conflicts and makes a loaded change WAITING for its switch point. -/
  | cycChangeApply (id : Nat)
  /-- CYC_CHANGE_VALUES (R231): Authorised command that checks a value list and makes a value change WAITING. -/
  | cycChangeValues (id : Nat)
  /-- CYC_CHANGE_CANCEL (R230): Authorised command that discards a loaded or waiting change. -/
  | cycChangeCancel (id : Nat)
  /-- CYC_READ_SIGNALS (R243): Command that returns global image entries by symbol ID, with the forced flag. -/
  | cycReadSignals (id : Nat)
  /-- CYC_WRITE_SIGNALS (R221): Authorised command that writes value bytes of unforced output signals in Stop or Hold. -/
  | cycWriteSignals (id : Nat)
  /-- STN_SEGMENT_CONFIG (R292): Authorised command that sets a disabled segment's parameters and recomputes its phase lengths. -/
  | stnSegmentConfig (id : Nat)
  /-- STN_SEGMENT_ENABLE (R293): Command that starts a segment, or holds the enable pending while it stops. -/
  | stnSegmentEnable (id : Nat)
  /-- STN_SEGMENT_DISABLE (R293): Command that stops a segment or cancels its pending enable. -/
  | stnSegmentDisable (id : Nat)
  /-- STN_ADMIT (R265): Authorised command that creates a station admission record and allocates a context. -/
  | stnAdmit (id : Nat)
  /-- STN_REMOVE (R271): Authorised command that sends LEAVE, marks the inputs BAD_OFFLINE, frees the context and renews the segment key. -/
  | stnRemove (id : Nat)
  /-- STN_TOKEN_ISSUE (R266): Authorised command that issues a one-time join token for a segment position. -/
  | stnTokenIssue (id : Nat)
  /-- STN_BOXWOOD_SET (R284): Authorised command that records a station's Boxwood set CRC and queues its delivery in CONFIG items. -/
  | stnBoxwoodSet (id : Nat)
  /-- STN_STATUS (R292): Command that returns one station's state. -/
  | stnStatus (id : Nat)
  /-- STN_LIST (R292): Command that returns the state of every station of a segment. -/
  | stnList (id : Nat)
  /-- SOLV_DESCRIPTOR_LOAD (R306): Authorised command that loads a problem descriptor chunk by chunk and checks, places and stores it at the last chunk. -/
  | solvDescriptorLoad (id : Nat)
  /-- SOLV_SUBMIT (R321): Command that checks a submission record, reads the bound inputs and queues a solve job. -/
  | solvSubmit (id : Nat)
  /-- SOLV_CANCEL (R354): Command that cancels a queued or running job, or every job of a slot. -/
  | solvCancel (id : Nat)
  /-- SOLV_STATUS (R363): Command that returns the solver summary or one job's state. -/
  | solvStatus (id : Nat)
  /-- SOLV_RESULT_READ (R363): Command that returns a result record from an offset and frees the context once fully read. -/
  | solvResultRead (id : Nat)
  /-- SOLV_ENGINE_ENABLE (R355): Command that enables a solver engine, or holds the enable pending while it stops. -/
  | solvEngineEnable (id : Nat)
  /-- SOLV_ENGINE_DISABLE (R355): Command that disables a solver engine, cancelling its job and run-ahead work. -/
  | solvEngineDisable (id : Nat)
  /-- MET_CHANNEL_CONFIG (R371): Authorised command that configures an analog channel or an electric set after flushing it. -/
  | metChannelConfig (id : Nat)
  /-- MET_METER_CONFIG (R376): Authorised command that binds and configures a virtual meter after flushing it. -/
  | metMeterConfig (id : Nat)
  /-- MET_USER_CAL_WRITE (R367): Authorised command that replaces the user calibration layer from the next block boundary. -/
  | metUserCalWrite (id : Nat)
  /-- MET_MEDIUM_TABLE_WRITE (R385): Authorised command that checks and installs a user medium table. -/
  | metMediumTableWrite (id : Nat)
  /-- MET_TARIFF_CONFIG (R407): Authorised command that sets a new window grid, demand period and CLOSE_WAIT. -/
  | metTariffConfig (id : Nat)
  /-- MET_PULSE_CONFIG (R391): Authorised command that binds a pulse output to a register with weight, width and pause. -/
  | metPulseConfig (id : Nat)
  /-- MET_READ_TOTALS (R411): Command that returns the totals of meters or sets. -/
  | metReadTotals (id : Nat)
  /-- MET_READ_INTERVAL (R405): Command that returns closing records from the snapshot or the store. -/
  | metReadInterval (id : Nat)
  /-- NET_PORT_CONFIG (R452): Authorised command that sets a port's mode, level, SerDes, MACsec and PTP fields. -/
  | netPortConfig (id : Nat)
  /-- NET_VLAN_CONFIG (R418): Authorised command that writes or clears a VLAN table entry. -/
  | netVlanConfig (id : Nat)
  /-- NET_SA_INSTALL (R425): Authorised command that installs a MACsec secure association with a key slot. -/
  | netSaInstall (id : Nat)
  /-- NET_SA_REMOVE (R452): Authorised command that removes a secure association and zeroes its key memory. -/
  | netSaRemove (id : Nat)
  /-- NET_PORT_STATUS (R452): Command that returns a port's configuration, state and counters without clearing them. -/
  | netPortStatus (id : Nat)
  /-- TIME_CONFIG (R452): Authorised command that sets the time source, profile, domain and servo parameters and restarts PTP. -/
  | timeConfig (id : Nat)
  /-- TIME_STATUS (R452): Command that returns servo state, offset, rate, parent and grandmaster. -/
  | timeStatus (id : Nat)
  /-- TIME_STEP (R449): Authorised command that steps device time relatively or absolutely when the source allows. -/
  | timeStep (id : Nat)
  /-- RTC_READ (R472): Command that returns the RTC count, both calendar views, status and weekday. -/
  | rtcRead (id : Nat)
  /-- RTC_SET_CALENDAR (R464): Authorised command that checks a local date and time and sets the RTC count from it. -/
  | rtcSetCalendar (id : Nat)
  /-- RTC_SET_COUNT (R459): Authorised command that sets the RTC by binary count, stepping device time when following. -/
  | rtcSetCount (id : Nat)
  /-- RTC_HALT (R466): Authorised command that sets HALT at the next tick and starts counting halted ticks. -/
  | rtcHalt (id : Nat)
  /-- RTC_RELEASE (R467): Authorised command that clears HALT, optionally adding the halted ticks. -/
  | rtcRelease (id : Nat)
  /-- RTC_ALARM_SET (R470): Command that arms an alarm at a time later than the count. -/
  | rtcAlarmSet (id : Nat)
  /-- RTC_ALARM_CLEAR (R472): Command that disarms an alarm and clears its flags. -/
  | rtcAlarmClear (id : Nat)
  /-- RTC_SET_WEEKDAY (R465): Authorised command that sets the weekday counter. -/
  | rtcSetWeekday (id : Nat)
  /-- RTC_UTC_OFFSET (R462): Authorised command that sets or schedules the UTC offset and zone. -/
  | rtcUtcOffset (id : Nat)
  /-- CAN_CONFIG (R475): Authorised command that sets a disabled channel's bit timing, modes, rings, reference service and filters. -/
  | canConfig (id : Nat)
  /-- CAN_ENABLE (R476): Command that starts a CAN channel, or holds the enable pending while it stops. -/
  | canEnable (id : Nat)
  /-- CAN_DISABLE (R476): Command that stops a CAN channel, completing its queue entries with reason 2. -/
  | canDisable (id : Nat)
  /-- CAN_SEND (R479): Command that checks a frame and appends it to the channel's transmit queue. -/
  | canSend (id : Nat)
  /-- CAN_ABORT (R481): Command that aborts queued entries by tag or all entries of a channel. -/
  | canAbort (id : Nat)
  /-- CAN_RECOVER (R492): Command that starts recovery from bus-off. -/
  | canRecover (id : Nat)
  /-- CAN_STATUS (R497): Command that returns a channel's register group without clearing counters. -/
  | canStatus (id : Nat)
  /-- KEY_LOAD (R547): Authorised command that loads a wrapped or imported key into an empty slot with a bank update. -/
  | keyLoad (id : Nat)
  /-- KEY_GENERATE (R539): Authorised command that generates a key inside the security core into an empty slot. -/
  | keyGenerate (id : Nat)
  /-- KEY_DERIVE (R548): Authorised command that derives a key from the root, a parent slot or an ECDH secret into a slot. -/
  | keyDerive (id : Nat)
  /-- KEY_DELETE (R542): Authorised command that empties a slot and removes the MACsec associations that use it. -/
  | keyDelete (id : Nat)
  /-- KEY_EXPORT_WRAPPED (R545): Authorised command that exports an exportable key wrapped under a wrap slot. -/
  | keyExportWrapped (id : Nat)
  /-- KEY_CRYPT (R543): Command that performs one cryptographic operation with a slot under its usage class. -/
  | keyCrypt (id : Nat)
  /-- KEY_ATTEST (R561): Command that returns a signed attestation statement for a slot. -/
  | keyAttest (id : Nat)
  /-- KEY_SLOT_INFO (R560): Command that returns a slot's state and attributes. -/
  | keySlotInfo (id : Nat)
  /-- RED_CONFIG (R530): Authorised command that sets the pair parameters and an optional claim floor. -/
  | redConfig (id : Nat)
  /-- RED_JOIN (R502): Authorised command that moves a SOLO or SILENT unit into the pair. -/
  | redJoin (id : Nat)
  /-- RED_LEAVE (R502): Authorised command that dissolves the pair, the claiming unit becoming SOLO. -/
  | redLeave (id : Nat)
  /-- RED_MAINTENANCE (R528): Authorised command that enters or leaves MAINTENANCE. -/
  | redMaintenance (id : Nat)
  /-- RED_SWITCHOVER (R524): Authorised command that hands the primary role to a synced standby without a missed commit. -/
  | redSwitchover (id : Nat)
  /-- RED_STATUS (R530): Command that returns role, claims, link and unit identities. -/
  | redStatus (id : Nat)
  /-- EVR_READ_SEQ (R578): Command that returns log records by sequence range. -/
  | evrReadSeq (id : Nat)
  /-- EVR_READ_TIME (R579): Command that returns log records by time window, with resume. -/
  | evrReadTime (id : Nat)
  /-- EVR_FREEZE (R577): Command that stops log writing for up to its limit. -/
  | evrFreeze (id : Nat)
  /-- EVR_THAW (R577): Command that ends a freeze and writes lost, thawed and queued records. -/
  | evrThaw (id : Nat)
  /-- EVR_CLEAR (R581): Authorised command that writes EV_LOG_CLEARED to slot 0 and zeroes every other slot. -/
  | evrClear (id : Nat)
  /-- EVR_CONFIG (R584): Authorised command that sets the log policy, notification and record severities and repeat window. -/
  | evrConfig (id : Nat)
  /-- EVR_STATUS (R584): Command that returns the recorder registers without clearing them. -/
  | evrStatus (id : Nat)
  /-- HLT_LEDGER (R608): Command that returns the health ledger and reserve. -/
  | hltLedger (id : Nat)
  /-- HLT_SENSORS (R608): Command that returns the 32 wear sensors. -/
  | hltSensors (id : Nat)
  /-- HLT_SPARE_BRING_IN (R599): Authorised command that retires a named unit and brings in a spare under its kind's rule. -/
  | hltSpareBringIn (id : Nat)
  /-- HLT_PERF_CONFIG (R602): Command that selects events for performance counters, clearing them. -/
  | hltPerfConfig (id : Nat)
  /-- HLT_PERF_READ (R604): Command that captures and returns performance counters in sequence. -/
  | hltPerfRead (id : Nat)
  /-- HLT_BANDWIDTH (R606): Command that returns the last complete port bandwidth window. -/
  | hltBandwidth (id : Nat)
  /-- SQ_TAIL_DOORBELL (R93): Write of a ring's submission tail that lets the controller fetch entries, or errors the ring when out of range. -/
  | sqTailDoorbell (n : Fin 16) (v : Word)
  /-- CQ_HEAD_DOORBELL (R92): Write of a ring's status head that releases status entries, or errors the ring when it passes the tail. -/
  | cqHeadDoorbell (n : Fin 16) (v : Word)
  /-- RING_ENABLE (R96): Write of 1 to CMD.RING_CFG ENABLE that activates a valid ring or sets ENABLE_PENDING while draining. -/
  | ringEnable (n : Fin 16) (v : Word)
  /-- RING_DISABLE (R96): Write of 0 to CMD.RING_CFG ENABLE that starts draining or cancels a pending enable. -/
  | ringDisable (n : Fin 16) (v : Word)
  /-- RING_FETCH (R93): Controller fetches a submission entry once the ring is active, in-flight room and a status entry are free, taking an in-flight place. -/
  | ringFetch (n : Fin 16) (entry buf : Option (List Byte))
  /-- RING_DRAIN_END (R96): Last started command of a draining ring completes, the ring becomes DISABLED and any pending enable is carried out. -/
  | ringDrainEnd (n : Fin 16)
  /-- BUS_MASTER_ENABLE_SET (R95): Bus Master Enable returns to 1 and held status entries and fetching resume. -/
  | busMasterEnableSet
  /-- PERST_N_ASSERT (R615): PERST_N low resets only the PCIe endpoint and its configuration space. -/
  | perstNAssert
  /-- COMMAND_DATAGRAM (R115): UDP command datagram received in a command association, checked, deduplicated and its items executed with one reply. -/
  | commandDatagram (sa addr port udpPort : Nat) (bytes : List Byte)
  /-- AUTH_LOCKOUT_EXPIRY (R110): The 60 s authorisation lockout runs out. -/
  | authLockoutExpiry
  /-- SPLIT_LO_READ (R16): Read of a _LO register returns the low word and latches the high word for that initiator. -/
  | splitLoRead (ini : Fin 32) (addr : Nat)
  /-- SPLIT_LO_WRITE (R17): Write to a _LO register is held per initiator and not applied. -/
  | splitLoWrite (ini : Fin 32) (addr : Nat) (v : Word)
  /-- SPLIT_HI_WRITE (R17): Write to a _HI register applies the held low word and the high word as one change. -/
  | splitHiWrite (ini : Fin 32) (addr : Nat) (v : Word)
  /-- RC_REGISTER_READ (R13): Read of an RC register returns the value and then clears it, or restarts a peak at the present level. -/
  | rcRegisterRead (ini : Fin 32) (addr : Nat)
  /-- REGISTER_WRITE (R13): Write to a register without a row of its own, applied by its access code, lock and privilege. -/
  | registerWrite (ini : Fin 32) (addr : Nat) (v : Word)
  /-- HOLE_ACCESS (R34): Host access to a hole or denied region returns all ones or is discarded and logs EV_SYS_ACCESS_FAULT. -/
  | holeAccess (kind : HostAccess) (addr : BitVec 40) (width : Fin 65)
  /-- TIME_NOW_READ (R434): Read of TIME.NOW_FRAC captures device time through crossing 13 and latches the seconds words. -/
  | timeNowRead (ini : Fin 32)
  /-- TIME_RAW_READ (R434): Read of TIME.RAW_W0 captures the raw count and latches the higher words. -/
  | timeRawRead (ini : Fin 32)
  /-- RTC_COUNT_READ (R456): Read of RTC.COUNT_FRAC returns the published snapshot fraction and latches the seconds and calendar words. -/
  | rtcCountRead (ini : Fin 32)
  /-- MEAS_WORD0_READ (R151): Read of word 0 of SYS.MEAS[m] latches words 1 to 11. -/
  | measWord0Read (ini : Fin 32) (m : Fin 4)
  /-- PERF_LO_READ (R604): Read of HLT.PERF_LO captures a performance counter and latches its high word. -/
  | perfLoRead (ini : Fin 32) (n : Fin 64)
  /-- PSUBMIT_HI_WRITE (R320): Program write to SOLV.PSUBMIT_HI submits the held record address as a solve job. -/
  | psubmitHiWrite (who : Fin 34) (v : Word)
  /-- PSEND_HI_WRITE (R497): Program write to CAN.PSEND_HI queues the 80-byte send record on a CAN channel. -/
  | psendHiWrite (who : Fin 34) (v : Word)
  /-- XING_COMPAT_WRITE (R77): Write to XING.COMPAT changes input enables and changes EVT_MODE only while no input is enabled. -/
  | xingCompatWrite (ini : Fin 32) (v : Word)
  /-- LVB_NEW_CLEAR (R487): Write of 1 to NEW of a latest-value buffer status clears it unless an update coincides. -/
  | lvbNewClear (b : Fin 64) (v : Word)
  /-- RXQ_HEAD_WRITE (R486): Consumer write of a CAN receive queue head returns entries, ignored if it passes the tail. -/
  | rxqHeadWrite (c : Fin 4) (v : Word)
  /-- TXC_HEAD_WRITE (R483): Consumer write of a CAN completion ring head returns records. -/
  | txcHeadWrite (c : Fin 4) (v : Word)
  /-- POWER_ON_RESET (R129): Internal power-on reset or RESET_N releases and the boot path runs through its phases to READY or RECOVERY. -/
  | powerOnReset
  /-- VDD_CORE_FALL (R619): VDD_CORE or an IO rail falls below its threshold and the power-on reset asserts. -/
  | vddCoreFall (torn : Option (Fin 256 × Fin 256))
  /-- RESET_N_LOW (R622): RESET_N low past its filter causes an external reset. -/
  | resetNLow
  /-- PFW_N_HIGH_1MS (R126): PFW_N has been high 1 ms without a break and the boot ROM continues to phase ROM. -/
  | pfwNHigh1ms (flash : Fin 17) (bad : Bool) (badLog : List (Fin 32768))
  /-- DDR_TRAINING_DONE (R36): DDR training ends and DDR_GIB is set, or left 0 on failure. -/
  | ddrTrainingDone (gib : Fin 17)
  /-- DDR_ZEROING_DONE (R142): Zeroing of the installed DDR ends and DDR_READY is set. -/
  | ddrZeroingDone
  /-- AUTOSTART (R141): With AUTOSTART set and a program placed, the controller enters Run by itself once its conditions are met. -/
  | autostart
  /-- PFW_N_FALL (R397): Filtered PFW_N fall freezes metering, starts the FeRAM hold and makes the power-fail save. -/
  | pfwNFall
  /-- CLAIM_WRITE_AFTER_SAVE (R504): A claim-record write deferred by a power-fail save is made as soon as the save ends. -/
  | claimWriteAfterSave
  /-- PFW_RESUME (R128): PFW_N high for 10 ms without a core reset resumes without reset and ends the FeRAM hold. -/
  | pfwResume
  /-- DEVICE_RESET (R143): Device reset takes effect 1 ms after SYS_RESET kind 1 status, or by escalation. -/
  | deviceReset
  /-- MGT_WATCHDOG_EXPIRY (R143): No feed of the management watchdog for 100 ms resets the management core. -/
  | mgtWatchdogExpiry
  /-- MANAGEMENT_CORE_RESET (R145): Management core restarts its firmware, rings become DISABLED and a new session is drawn, escalating on the third within 600 s. -/
  | managementCoreReset
  /-- THERMAL_RESET (R632): A junction sensor at 125 °C for 1 ms makes a power-on reset held until below 105 °C. -/
  | thermalReset
  /-- DOMAIN_POWER_UP_DONE (R148): A switched domain reaches power-good and ON is logged. -/
  | domainPowerUpDone (k : Fin 12)
  /-- DOMAIN_SHUTDOWN_DONE (R148): A switched domain reaches OFF and a pending enable starts. -/
  | domainShutdownDone (k : Fin 12)
  /-- DOMAIN_POWER_GOOD_TIMEOUT (R150): A domain without power-good after twice its power-up time returns to OFF with a fault. -/
  | domainPowerGoodTimeout (k : Fin 12)
  /-- DOMAIN_RAIL_FAULT (R619): A switched domain's rail leaves its range while ON, causing a block reset and a domain fault. -/
  | domainRailFault (k : Fin 12) (entries : List Nat) (trans : List (List (Fin 32 × BitVec 40 × Bool)))
  /-- BLOCK_RESET (R79): A block fault or watchdog resets one side of a crossing, blocking it and discarding its entries. -/
  | blockReset (n : Fin 13) (entries : Nat) (trans : List (Fin 32 × BitVec 40 × Bool))
  /-- CROSSING_RESYNC (R79): Reset release completes the resynchronisation handshake and unblocks the crossing. -/
  | crossingResync (n : Fin 13)
  /-- CROSSING_BLOCK_TIMEOUT (R82): A transaction waiting at a blocked crossing past the timeout completes with an error. -/
  | crossingBlockTimeout (n : Fin 13) (ini : Fin 32) (access : BitVec 40 × Bool)
  /-- EVT_EDGE (R75): Rising edge on an event input in native mode is counted and time-stamped and reported to the recorder. -/
  | evtEdge (m : Fin 8) (edges : Nat) (high : Bool)
  /-- EVT_REQUEST (R76): Rising EVT_IN in compatibility mode is time-stamped, queued and acknowledged when the queue has room. -/
  | evtRequest (m : Fin 8)
  /-- EVT_ACK_AFTER_ROOM (R76): A withheld acknowledgement rises once the ingress queue has room. -/
  | evtAckAfterRoom (m : Fin 8)
  /-- EVT_REQUEST_RELEASE (R76): EVT_IN falls after acknowledgement and EVT_ACK falls within 50 ns. -/
  | evtRequestRelease (m : Fin 8)
  /-- ACK_WITHHELD_TIMEOUT (R84): A compatibility acknowledgement withheld for 1 ms logs EV_XING_ACK_WITHHELD. -/
  | ackWithheldTimeout (m : Fin 8)
  /-- IMPRECISE_BUS_ERROR (R169): An error completion returns after an access was issued and traps at the next instruction boundary. -/
  | impreciseBusError (l : Fin 16) (addr : BitVec 40)
  /-- TASK_RELEASE (R190): At a grid tick the cycle engine releases a task, or counts it skipped, and requests copy-in. -/
  | taskRelease (t : Fin 32) (tableErr : Bool)
  /-- COPY_IN_DONE (R199): A task's copy-in completes and the task starts or pre-empts a lower task on its core. -/
  | copyInDone
  /-- COPY_OUT_DONE (R200): A task's copy-out completes, forces and plans are written and pre-empted tasks may resume. -/
  | copyOutDone
  /-- TASK_WATCHDOG_EXPIRY (R207): A cycle still running at its watchdog limit is stopped as a task fault. -/
  | taskWatchdogExpiry (t : Fin 32)
  /-- FIXED_FRAME_START (R211): A fixed-period frame starts, entering fixed-period execution if due, and each core runs its released tasks. -/
  | fixedFrameStart
  /-- MODE_DRAIN_END (R214): The last cycle begun before a mode change ends, DRAINING returns to 0 and EV_CYC_MODE is logged. -/
  | modeDrainEnd
  /-- CHANGE_SWITCH (R226): At the switch point the cycle engine holds releases and runs the change map, table switch and forces. -/
  | changeSwitch
  /-- CHANGE_WAIT_TIMEOUT (R229): No switch point within CYC.CHANGE_WAIT_MAX abandons the change. -/
  | changeWaitTimeout
  /-- STORE_UPDATE_DONE (R232): Background write of the program store slot is verified and the slot is made active. -/
  | storeUpdateDone
  /-- INPUT_PHASE_START (R249): The sample instant S of a segment's bus cycle begins the input phase. -/
  | inputPhaseStart (k : Fin 20)
  /-- INPUT_FRAME (R272): An INPUT frame is verified and its values qualified, written to the image and passed to metering. -/
  | inputFrame (k : Fin 20) (payload : List Byte)
  /-- INPUT_PHASE_END (R274): At the input phase end unwritten inputs are aged and the phase is marked complete. -/
  | inputPhaseEnd (k : Fin 20)
  /-- STAGE_PHASE_START (R277): At B - STAGE_WIN the station engine reads outputs and sends STAGE frames. -/
  | stagePhaseStart (k : Fin 20)
  /-- STAGE_ACK_FRAME (R260): A STAGE_ACK is verified and records the station's acknowledgement and path delay. -/
  | stageAckFrame (k : Fin 20) (payload : List Byte)
  /-- COMMIT_DECISION (R279): At B - 40 µs stations without acknowledgement become ABSENT and the commit is decided. -/
  | commitDecision (k : Fin 20)
  /-- COMMIT_SEND (R262): At boundary B the COMMIT frame is broadcast with the commit bitmap. -/
  | commitSend (k : Fin 20)
  /-- SERVICE_WINDOW_START (R263): The service window opens and ANNOUNCE is sent. -/
  | serviceWindowStart (k : Fin 20)
  /-- JOIN_REQ_FRAME (R268): A JOIN_REQ is accepted up to 8 per window and answered with JOIN_CHALLENGE. -/
  | joinReqFrame (k : Fin 20) (mac : Nat) (payload : List Byte)
  /-- JOIN_PROOF_FRAME (R267): A JOIN_PROOF is received and its verification started. -/
  | joinProofFrame (k : Fin 20) (payload : List Byte)
  /-- JOIN_VERIFY_DONE (R267): Verification of a join ends with ADMIT and SYNCING, or a failed join. -/
  | joinVerifyDone (k : Fin 20) (n : Fin 64)
  /-- CONFIG_ACK_FRAME (R284): A CONFIG_ACK confirms a Boxwood chunk, timing or segment key. -/
  | configAckFrame (k : Fin 20) (payload : List Byte)
  /-- STATION_SESSION_TIMEOUT (R287): A station held ABSENT for the session timeout loses its session and becomes LOST. -/
  | stationSessionTimeout (k : Fin 20) (n : Fin 64)
  /-- SEGMENT_KEY_SWITCH (R271): The first bus cycle under a new segment key arrives and unacknowledged stations become LOST. -/
  | segmentKeySwitch (k : Fin 20)
  /-- JOIN_LOCKOUT_EXPIRY (R269): The 60 s ignore period of a serial number after three failed joins ends. -/
  | joinLockoutExpiry (serial : List Byte)
  /-- SEGMENT_START_DONE (R294): A starting segment becomes ACTIVE and EV_STN_SEGMENT_UP is logged. -/
  | segmentStartDone (k : Fin 20)
  /-- SEGMENT_STOP_DONE (R293): A stopping segment becomes DISABLED and a pending enable starts. -/
  | segmentStopDone (k : Fin 20)
  /-- SOLVE_JOB_START (R322): An engine becomes free and the first queued job by priority, deadline and age starts. -/
  | solveJobStart (kat : List Nat)
  /-- SOLVE_ITERATION (R330): One interior-point iteration runs residuals, tests, factorisation, predictor, corrector and step. -/
  | solveIteration (ctx : Fin 64) (r : IterResult)
  /-- JOB_DEADLINE_EXPIRY (R341): A running job's deadline expires and the job ends at the next check. -/
  | jobDeadlineExpiry (ctx : Fin 64) (f : SolveEnd)
  /-- QUEUED_DEADLINE_EXPIRY (R343): A queued job's deadline expires and it ends DEADLINE_QUEUED with the tail plan. -/
  | queuedDeadlineExpiry (ctx : Fin 64)
  /-- RUN_AHEAD_PARKED (R347): Run-ahead work converges and is parked on its engines. -/
  | runAheadParked (ctx : Fin 64)
  /-- CONTEXT_EXPIRY (R318): An unread job context is freed 60 s after its job ended. -/
  | contextExpiry (ctx : Fin 64)
  /-- ENGINE_START_DONE (R355): An engine finishes STARTING after its lane check and becomes ON. -/
  | engineStartDone (e : Fin 4) (kat : List Nat)
  /-- ENGINE_STOP_DONE (R355): An engine reaches OFF and a pending enable starts. -/
  | engineStopDone (e : Fin 4)
  /-- LANE_BRING_IN (R358): A spare lane replaces a faulty one while the engine is idle, or the engine degrades. -/
  | laneBringIn (e : Fin 4)
  /-- DESC_STORE_DONE (R308): A descriptor's background store write is read back and EV_SOLV_DESC_STORED logged. -/
  | descStoreDone (d : Fin 16)
  /-- ELECTRIC_BLOCK_END (R372): An electric set's 160-sample block closes and its energies are added by quadrant. -/
  | electricBlockEnd
  /-- RECORD_WRITE_DONE (R389): A Pewter record write completes and the channel's next increment may be added. -/
  | recordWriteDone (n : Fin 2080) (good : Bool)
  /-- WINDOW_BOUNDARY (R404): A tariff window boundary passes and closing values are latched as channels reach it. -/
  | windowBoundary
  /-- CLOSE_WAIT_EXPIRY (R404): CLOSE_WAIT passes after a boundary and a meter's closing record is latched INCOMPLETE. -/
  | closeWaitExpiry (m : Fin 2048)
  /-- CLOSING_RECORD_WRITE (R405): A latched closing record is written from the snapshot to the Pewter store. -/
  | closingRecordWrite (good : Bool)
  /-- DEMAND_WINDOW_END (R408): A demand window ends and the set's maximum demand is updated. -/
  | demandWindowEnd
  /-- PULSE_OUTPUT (R391): A pulse output's width or pause timer runs out and it starts the next waiting pulse. -/
  | pulseOutput (p : Fin 16)
  /-- PORT_FRAME_RECEIVED (R417): A frame on a switch port is sent to the station engine, consumed, forwarded or dropped. -/
  | portFrameReceived (p : Fin 20) (frame : RxFrame)
  /-- LINK_UP (R453): A port's link comes up. -/
  | linkUp (p : Fin 20) (offers24 offers10 : Bool)
  /-- LINK_DOWN (R423): A port's link is lost or refused. -/
  | linkDown (p : Fin 20) (refused : Bool)
  /-- FDB_AGEING (R417): A learned address reaches its ageing time and leaves the table. -/
  | fdbAgeing (vid mac : Nat)
  /-- PTP_SAMPLE (R444): An accepted PTP or PPS time sample steps or slews the time model. -/
  | ptpSample (p : Fin 20) (m : PtpSample)
  /-- PPS_EDGE (R442): An edge on TIME_REF_IN in 1 PPS use is stamped and qualified as a sample. -/
  | ppsEdge
  /-- PTP_MESSAGE_SEND (R436): A Sync, Announce or delay request interval runs out and the controller sends it. -/
  | ptpMessageSend (p : Fin 20) (kind : Fin 3)
  /-- SYNC_TIMEOUT (R442): No accepted sample for four Sync intervals, or no PPS edge for 3 s, enters HOLDOVER. -/
  | syncTimeout
  /-- HOLDOVER_EXPIRY (R443): Holdover longer than TIME.HOLDOVER_MAX enters FREE. -/
  | holdoverExpiry
  /-- REF_LOST (R445): The 10 MHz reference is lost and PLL_PTP relocks to REFCLK_MAIN. -/
  | refLost
  /-- RTC_FOLLOW_UPDATE (R457): At each RTC second the difference to device time steps the RTC or sets FOLLOW_ADJ. -/
  | rtcFollowUpdate
  /-- RTC_CAL_LEARN (R458): After 4,096 s of locked following the mean adjustment is added to CAL. -/
  | rtcCalLearn
  /-- RTC_ALARM_FIRE (R469): An armed alarm fires when counting or a step brings the count to its time. -/
  | rtcAlarmFire (a : Fin 4)
  /-- UTC_CHANGE_SCHEDULED (R462): A scheduled or PTP-driven UTC offset change takes effect. -/
  | utcChangeScheduled
  /-- HALT_TICKS_OVERFLOW (R466): HALT_TICKS saturates, setting HALT_OVF. -/
  | haltTicksOverflow
  /-- RTC_AUTO_RELEASE (R468): Main supply fails while halted and the RTC releases with halted ticks added. -/
  | rtcAutoRelease
  /-- CAN_BUS_INTEGRATION (R476): Eleven recessive bits end STARTING and the channel becomes ACTIVE. -/
  | canBusIntegration (c : Fin 4)
  /-- CAN_CHANNEL_STOPPED (R476): A stopping channel finishes its frame, completes its entries and becomes DISABLED. -/
  | canChannelStopped (c : Fin 4)
  /-- CAN_FRAME_RECEIVED (R485): A received frame is filtered and stored in the queue, a buffer or both. -/
  | canFrameReceived (c : Fin 4) (f : CanFrame) (ago : Nat) (valid dominant : Bool)
  /-- CAN_TRANSMIT_END (R483): A transmit attempt ends in success, arbitration loss, error or clash and the entry may complete. -/
  | canTransmitEnd (c : Fin 4) (service : Bool) (r : CanEnd) (ago : Nat)
  /-- BUS_OFF (R491): Entering bus-off freezes the queue and stops the reference service. -/
  | busOff (c : Fin 4)
  /-- BUS_OFF_RECOVERED (R492): 128 recessive sequences end recovery and the queue resumes. -/
  | busOffRecovered (c : Fin 4)
  /-- CAN_REF_PERIOD (R493): The reference period runs out and the master offers a reference frame. -/
  | canRefPeriod (c : Fin 4)
  /-- CAN_REF_STALE (R494): No accepted reference pair for 3 periods makes REF_STATUS STALE. -/
  | canRefStale (c : Fin 4)
  /-- LVB_AGE_STALE (R488): A latest-value buffer's frame ages past its filter AGE and becomes STALE. -/
  | lvbAgeStale (b : Fin 64)
  /-- LINK_WAIT_EXPIRY (R501): LINK_WAIT passes without the link and the unit decides its role. -/
  | linkWaitExpiry
  /-- BIRLITH_TRAINED (R511): The Birlith link completes training and the role decision or join proceeds. -/
  | birlithTrained (ident : Nat)
  /-- BIRLITH_LANE_FAILING (R512): A failing lane moves traffic to the spare or leaves the link degraded. -/
  | birlithLaneFailing (lane : Fin 3)
  /-- HEARTBEAT_SEND (R513): At each 250 µs tick a heartbeat block is sent over the link. -/
  | heartbeatSend
  /-- HEARTBEAT_MISSED (R519): A heartbeat not arrived 50 µs after its tick counts as missed. -/
  | heartbeatMissed
  /-- SILENT_INDICATION (R519): A SILENT indication arrives over the link and starts a takeover. -/
  | silentIndication
  /-- TAKEOVER_START (R520): Missed heartbeats with no commit from the peer by the wait limit start a takeover. -/
  | takeoverStart
  /-- TAKEOVER_READY (R520): At the ready instant the new primary enables its segment ports and claims. -/
  | takeoverReady
  /-- STATE_COPY_SEND (R514): After a task's cycle on the claiming unit the changed state is sent to the standby. -/
  | stateCopySend (t : Fin 32)
  /-- STATE_COPY_RECEIVED (R514): A complete state copy with valid CRC is applied on the standby. -/
  | stateCopyReceived (c : StateCopy)
  /-- FULL_SYNC_PASS_END (R515): A full synchronisation pass ends with nothing to resend and the standby becomes SYNCED. -/
  | fullSyncPassEnd (c : StateCopy)
  /-- STATE_COPY_LATE (R515): A copy not complete when the task's next cycle ends makes the standby UNSYNCED. -/
  | stateCopyLate (t : Fin 32)
  /-- HANDOVER_RECEIVED (R524): With every final copy and the HANDOVER block the standby takes its claim. -/
  | handoverReceived
  /-- HANDOVER_ABANDON (R524): A handover not completed within 1 s is abandoned and staging resumes. -/
  | handoverAbandon
  /-- DEADMAN_EXPIRY (R525): The dead-man timer expires and hardware silences the unit and resets the supervisor. -/
  | deadmanExpiry
  /-- TAMPER_TRIP (R556): A tamper source trips, is logged and purges the root secret when its action is PURGE. -/
  | tamperTrip (clock : Bool)
  /-- ROOT_SECRET_GENERATE (R558): At the first tick with no PURGE source pending or tripped the deferred root secret is generated. -/
  | rootSecretGenerate
  /-- TRNG_HEALTH_FAIL (R537): A TRNG health test fails, three in a row stopping the DRBG. -/
  | trngHealthFail
  /-- DRBG_RESEED (R537): The DRBG reseeds from the TRNG, restarting it if it was stopped. -/
  | drbgReseed
  /-- EVENT_RAISED (R570): A block raises an event that is discarded, merged, queued or lost. -/
  | eventRaised (src : Fin 48) (code : BitVec 16) (a b : Word)
  /-- EVENT_RECORD_WRITE (R573): The recorder takes the next queued event and writes it as a record under the full-log policy. -/
  | eventRecordWrite (good : Bool)
  /-- FREEZE_LIMIT_EXPIRY (R577): A freeze reaches its limit and thaws automatically. -/
  | freezeLimitExpiry
  /-- SENSOR_SAMPLE (R591): Every 100 ms the supervisor samples the wear sensors and marks cores retire-due. -/
  | sensorSample (v : List Int)
  /-- EQUIV_TIME_TICK (R587): Once per second the Arrhenius equivalent time is added to the ledger. -/
  | equivTimeTick
  /-- LEDGER_WRITE (R588): Every 3,600 s the health ledger is written to persistent configuration. -/
  | ledgerWrite
  /-- SPARE_SELF_TEST (R592): Every 3,600 s each idle spare core runs its logic self-test. -/
  | spareSelfTest (phys : Fin 18) (pass : Bool)
  /-- CORE_BRING_IN (R593): At a gap with no task of the logical core inside its cycle the spare core takes over. -/
  | coreBringIn (l : Fin 16)
  /-- CORE_BRING_IN_WAIT (R594): No gap within 1 s abandons the core bring-in and schedules a retry. -/
  | coreBringInWait (l : Fin 16)
  /-- CORE_BRING_IN_RETRY (R594): The 60 s retry of a core bring-in comes due. -/
  | coreBringInRetry (l : Fin 16)
  /-- ROW_BRING_IN (R596): A due memory row is copied to a spare row with accesses held. -/
  | rowBringIn
  /-- SCRUB_PASS (R601): The scrubber completes a pass, correcting words and counting errors. -/
  | scrubPass (ddr : Bool) (corr uncorr : List Nat)
  /-- PERF_COUNTER_WRAP (R603): A performance counter wraps, chaining to the next or setting its overflow bit. -/
  | perfCounterWrap (n : Fin 64)
  /-- BANDWIDTH_WINDOW_END (R606): A port bandwidth window ends and its counts replace the held values. -/
  | bandwidthWindowEnd
  /-- RTC_TICK (R454): Each CK_RTC tick adds 2^17 units to the RTC count, applies CAL and FOLLOW_ADJ every 1,024 ticks, counts halted ticks, advances the weekday at a local day change, and applies the writes, halts, releases and mode-0 offset changes that wait for the next tick. The operand is what the tamper logic finds at the tick: the levels of TAMPER_SW in bits 3 to 0, a mesh that differs in bit 4, a battery supply out of its range in bit 5 (R556); and what has flipped since the last tick (R27, R184). -/
  | rtcTick (tick : TickIn)
  /-- ANALOG_SAMPLE (R366): Every 62.5 µs all 32 metering channels deliver a sample that passes offset, gain and delay correction, the clipping check of R369, the peak check of R370 and the half-cycle RMS of R375. -/
  | analogSample (raw : List (BitVec 24))
  /-- HEARTBEAT_RECEIVED (R513): A heartbeat block arrives over the Birlith link carrying the peer's role, claim, mode and cycle numbers, updating PEER_PRESENT, PEER_ROLE and the highest claim seen. -/
  | heartbeatReceived (h : Heartbeat)
  /-- BIRLITH_LINK_DOWN (R515): The Birlith link is lost, the standby becomes UNSYNCED and EV_RED_LINK_DOWN is logged in any role. -/
  | birlithLinkDown
  /-- SPARE_LANE_TRAINED (R512): Background training of the spare Birlith lane completes and both ends move traffic to it at the same block boundary, retiring the failing lane and logging EV_RED_LANE_SPARED. -/
  | spareLaneTrained
  /-- BUS_MASTER_ENABLE_CLEAR (R95): The host clears the endpoint's Bus Master Enable bit, and the controller stops fetching and holds every status and shadow write to host memory. -/
  | busMasterEnableClear
  /-- ILLEGAL_INSTRUCTION (R162): A logic core executes a word with a reserved MAJOR or FUNC value, a non-zero reserved or unused field, or the all-zero word, and takes an ILLEGAL trap. -/
  | illegalInstruction (l : Fin 16) (word : Word)
  /-- PD_BAT_POWER_UP (R455): PD_BAT powers up after VBAT and main supply were both absent, and the RTC state fails its check and restarts at 2000-01-01 TAI with VALID 0. -/
  | pdBatPowerUp
  deriving DecidableEq, Repr

end Sys2Proof
end

