-- ==== Sys2Proof/Machine/State.lean ====
section
/-! DEFINITION. The state of the block as plain data: the registers, the memories, every queue, table and timer that
the spec gives it, and the queue of waiting commands. -/

namespace Sys2Proof.Machine

/-- The machine's faults: none. The spec stops this block in no way; every error it names is a status, an event or a
trap, and those are effects on State (safe: no claim is made true by a stop). -/
inductive Fault where
  deriving DecidableEq, Repr

/-- Why a command has no meaning. -/
inductive Refusal where
  /-- Raised by the dispatch for a row that the model gives no meaning (safe: nothing is claimed of it). -/
  | notModelled (mnemonic : String)
  deriving DecidableEq, Repr

/-- The status codes (R123). -/
inductive Status where
  | ok | pending | busy | solvBestEffort | solvFallback | badOpcode | badLength | badFlags | badParam | sessionStale
  | deadline | domainOff | chainBroken | authRequired | authFail | authReplay | authSlot | authLockout | bufFault
  | locked | role | mode | aborted | duplicate | internal | fwSignature | fwBank | noDdr | forceConflict
  | changeTimeout | imageInvalid | imageTooLarge | forceFull | symbolUnknown | changeActive | stationUnknown
  | segmentFull | tokenInvalid | solvNumeric | solvDescriptor | solvSize | solvCancelled | calInvalid | meterUnknown
  | tableInvalid | saFull | portInvalid | timeStepRefused | dateInvalid | alarmInvalid | idClash | busOff | canAborted
  | slotEmpty | slotUsage | slotOccupied | unwrapFail | tampered | peerAbsent | linkDown | logFrozen | recordNone
  | noSpare | counterInvalid
  deriving DecidableEq, Repr

/-- What the block sends out: everything that the host, a station, a bus, the peer or a pin can see. -/
inductive Out where
  /-- A DMA write to host memory (R94, R100). -/
  | hostWrite (addr : Nat) (bytes : List Byte)
  /-- An MSI-X message of a vector (R106). -/
  | msix (vector : Nat)
  /-- A UDP payload to an address and port through the transmit association paired with a command association (R112). -/
  | datagram (assoc addr port : Nat) (bytes : List Byte)
  /-- The value that a direct read returns to an initiator. -/
  | readData (who addr : Nat) (value : Word)
  /-- The bytes that a direct read of a memory returns to the host. -/
  | memData (addr : Nat) (bytes : List Byte)
  /-- The endpoint answers an AtomicOp request with Unsupported Request (R60). -/
  | unsupported (addr : Nat)
  /-- A frame sent on a switch port. -/
  | frame (port : Nat) (bytes : List Byte)
  /-- A PTP message sent on a port: 0 Sync, 1 Announce, 2 Delay_Req or Pdelay_Req, with its body. -/
  | ptp (port kind : Nat) (bytes : List Byte)
  /-- A CAN frame sent successfully: ID word, DLC, RTR, and data, of which a remote frame has none. -/
  | can (channel : Nat) (idWord : Word) (dlc : Nat) (rtr : Bool) (data : List Byte)
  /-- Blocks of the Birlith link: a heartbeat, a SILENT indication, a state copy, and the HANDOVER block. -/
  | heartbeat (h : Heartbeat)
  | silent
  | stateCopy (c : StateCopy)
  /-- The image of a change package, for the inactive code half of the peer (R524). -/
  | changePackage (image : List Byte)
  | handover
  deriving DecidableEq, Repr

/-! ### Host commands -/

/-- Where a command came from: a ring, or an item of a datagram of a command association (R113). -/
inductive Chan where
  | ring (n : Nat)
  | eth (assoc datagram item : Nat)
  deriving DecidableEq, Repr

/-- What a command that has started still waits for before its status. -/
inductive WaitFor where
  /-- Domain `k` to reach ON (R149). -/
  | domainOn (k : Nat)
  /-- Domain `k` to reach OFF (R149). -/
  | domainOff (k : Nat)
  /-- Segment `k` to become DISABLED (R293). -/
  | segmentOff (k : Nat)
  /-- Engine `n` to become ON, or OFF (R355). -/
  | engineOn (n : Nat)
  | engineOff (n : Nat)
  /-- CAN channel `c` to become ACTIVE, or DISABLED (R476). -/
  | canOn (c : Nat)
  | canOff (c : Nat)
  /-- RTC operation `n` to be taken at the next CK_RTC edge (R460). -/
  | rtcEdge (n : Nat)
  /-- Bus Master Enable, to write the status entry of an execution that has ended (R95). -/
  | busMaster
  deriving DecidableEq, Repr

/-- One command in flight (R98 to R104). -/
structure Cmd where
  chan : Chan
  /-- The 64 entry bytes. -/
  entry : List Byte
  /-- The controller's own copy of the parameters (R100). -/
  params : List Byte
  /-- The instant of arrival. -/
  arrival : Instant
  /-- The previous command of the same ring, if it is still in flight. -/
  prevId : Option Nat
  /-- Tag and outcome of the previous command of the ring, once it has completed. -/
  prevEnd : Option (Nat × Status)
  /-- What a started command waits for. -/
  wait : Option WaitFor
  deriving DecidableEq, Repr

/-- The order bookkeeping of one ring (R64): its latest command, by its in-flight number or by tag and outcome. -/
structure RingLast where
  id : Option Nat
  done : Option (Nat × Status)
  deriving DecidableEq, Repr

/-- One request datagram whose items are being executed (R115, R116). -/
structure Datagram where
  assoc : Nat
  addr : Nat
  port : Nat
  seq : Nat
  echo : Nat
  /-- Device time at which the request passed MACsec verification: the arrival of its commands (R101). -/
  arrival : Nat
  /-- Items not yet arrived because no in-flight place was free: entry and parameters (R102). -/
  todo : List (List Byte × List Byte)
  /-- The next item's number. -/
  next : Nat
  /-- Reply items by number. -/
  replies : List (Nat × List Byte)
  /-- How many items the request has. -/
  items : Nat
  deriving DecidableEq, Repr

/-- The sequence window of one command association (R117, R118). -/
structure Assoc where
  session : Word
  /-- The last 64 sequence numbers seen, newest first. -/
  seen : List Nat
  /-- The last 8 replies kept, newest first. -/
  kept : List (Nat × List Byte)
  /-- The last requesting address and port. -/
  addr : Nat
  port : Nat
  deriving DecidableEq, Repr

/-- The host command engine and the PCIe endpoint. -/
structure HostSt where
  /-- Bus Master Enable of the endpoint (R95). -/
  bme : Bool
  /-- Writes to host memory and messages held while Bus Master Enable is 0, oldest first. -/
  held : List Out
  /-- Executions that ended while Bus Master Enable was 0, oldest first: command number, status, RESULT0, RESULT1 and
  reply (R95). -/
  ended : List (Nat × Status × Nat × Nat × List Byte)
  /-- Commands in flight by number. -/
  inflight : List (Nat × Cmd)
  /-- The number of the next command that arrives. -/
  nextId : Nat
  /-- Order bookkeeping of each ring. -/
  last : List RingLast
  datagrams : List (Nat × Datagram)
  nextDatagram : Nat
  assocs : List (Nat × Assoc)
  /-- Raw counts of the ST_AUTH_FAIL refusals of the last 60 s (R110). -/
  authFails : List Nat
  /-- The raw count at which the lockout ends (R110). -/
  lockUntil : Option Nat
  /-- Words latched by a read of a low word, by initiator and address (R16). -/
  latches : List (Nat × Word)
  /-- Words written to a `_LO` register and held, by initiator and address (R17). -/
  heldLo : List (Nat × Word)
  /-- The raw counts of the datagrams dropped in the last second, and that of the last EV_CMD_ETH_DROP (R114, R124). -/
  drops : List Nat
  dropLogged : Option Nat
  deriving DecidableEq, Repr

/-! ### Event recorder -/

/-- One entry of the ingress queue (R570, R571). -/
structure QEntry where
  stamp : Instant
  code : BitVec 16
  source : Byte
  /-- Byte 0x13 of the record to be: severity and flags (R563, R564). -/
  sevFlags : Byte
  /-- Occurrences after the first. -/
  rep : BitVec 16
  a : Word
  b : Word
  /-- It comes from the compatibility handshake and is never merged (R76). -/
  alone : Bool
  deriving DecidableEq, Repr

/-- One record of the log (R563); its CRC is a function of the rest (R565). -/
structure LogRec where
  ev : QEntry
  seq : Word
  deriving DecidableEq, Repr

/-- The event recorder. -/
structure EvrSt where
  /-- The ingress queue, oldest first. -/
  queue : List QEntry
  /-- The event log by slot: the region of FeRAM at 0x00_0318_0000 is its byte view (R580). -/
  log : List (Nat × LogRec)
  /-- The recorder's own records that wait to be written before the queue: code, A and B (R577, R585). -/
  own : List (Nat × Nat × Nat)
  /-- The slot tried first for the next record. -/
  writePos : Nat
  /-- Time stamp of the first event lost since the last EV_EVENTS_LOST (R572). -/
  firstLost : Option Instant
  /-- The raw count at which a freeze ends (R577). -/
  freezeEnd : Nat
  /-- The event log has been restored at order 4 of R138. -/
  restored : Bool
  deriving DecidableEq, Repr

/-! ### Start-up, resets and power -/

/-- A firmware image being written chunk by chunk (SYS_FW_WRITE, R122). -/
structure FwWrite where
  bank : Nat
  total : Nat
  written : Nat
  deriving DecidableEq, Repr

/-- Start-up and power. -/
structure PwrSt where
  /-- Main supply is present: VDD_CORE and the IO rails are in range. -/
  main : Bool
  /-- The filtered level of PFW_N is low (R127). -/
  pfwLow : Bool
  /-- The FeRAM hold of R127. -/
  feramHold : Bool
  /-- The raw counts of the management-core resets of the last 600 s (R145). -/
  mgtResets : List Nat
  /-- The management core's firmware runs. -/
  mgtRuns : Bool
  /-- When a commanded reset takes effect, and its kind (R144). -/
  resetDue : Option (Nat × Nat)
  /-- The status entry of that command waits to be written (R95, R144). -/
  resetWaits : Bool
  /-- SYS.START_CFG as it was at the last start-up (R151). -/
  startCfg : Word
  /-- Bit k: a disable of domain k waits for its power-up (R149). -/
  disableWaiting : BitVec 12
  /-- Bit k: the present power-up of domain k was a pending enable (EV_SYS_DOMAIN_ON, parameter B). -/
  pendingStart : BitVec 12
  /-- The raw count at which each domain's state last changed (R150). -/
  changedAt : List Nat
  /-- M0 to M3, 48 bytes each (R137). -/
  meas : List (List Byte)
  fwWrite : Option FwWrite
  /-- A power-fail save is going on (R504, R623). -/
  saving : Bool
  /-- DDR is being zeroed (R142). -/
  ddrZeroing : Bool
  /-- A reset is asserted: RESET_N low, a supply below its threshold, or a thermal reset held (R619, R622, R632). -/
  inReset : Bool
  /-- The present start-up follows a power-on reset (R143). -/
  powerOn : Bool
  /-- Step 6 of R129 waits for DDR training. -/
  ddrWait : Bool
  /-- The minimum security version to which the firmware has raised the fuse (R135); the fuse as made is in Config. -/
  minSvn : Nat
  /-- ALERT_N is low (R614). -/
  alertLow : Bool
  /-- SYS.MEMCFG.DDR_GIB has taken its value in this start-up (R36). -/
  gibSet : Bool
  deriving DecidableEq, Repr

/-! ### Crossings and event inputs -/

/-- The crossings with a queue and the event inputs; their other state is in registers (R70, R76, R79). -/
structure XingSt where
  /-- What each crossing has discarded in the present resynchronisation, and the raw count at which it was blocked. -/
  lost : List Nat
  blockedAt : List Nat
  /-- Time stamp of the request whose acknowledgement each event input withholds, and the raw count then. -/
  evtStamp : List Instant
  evtRaw : List Nat
  /-- EV_XING_ACK_WITHHELD has been logged for the present withholding. -/
  evtLogged : BitVec 8
  /-- The levels of the pins EVT_IN[7:0]. -/
  pins : BitVec 8
  deriving DecidableEq, Repr

/-! ### Switch, MACsec and network time -/

/-- One MACsec secure association (R425, R426, R429). -/
structure Sa where
  port : Nat
  /-- Receive direction; transmit otherwise. -/
  rx : Bool
  an : Nat
  xpn : Bool
  /-- Marks its secure channel as a command association (R428). -/
  command : Bool
  sci : Nat
  /-- The key slot it was installed from, and its key in the MACsec key memory. -/
  slot : Nat
  key : List Byte
  /-- Next packet number to send, or lowest packet number accepted. -/
  pn : Nat
  ssci : Nat
  salt : List Byte
  window : Nat
  /-- The transmit SA in use on its port (R426). -/
  inUse : Bool
  /-- EV_NET_SA_PN_LOW has been logged, and the last packet number has been used (R429). -/
  lowLogged : Bool
  exhausted : Bool
  deriving DecidableEq, Repr

/-- One entry of the VLAN table (R418). -/
structure Vlan where
  vid : Nat
  member : BitVec 21
  untag : BitVec 21
  deriving DecidableEq, Repr

/-- A learned address: its port and the raw count of the last frame from it (R417). -/
structure FdbEntry where
  port : Nat
  seen : Nat
  deriving DecidableEq, Repr

/-- A frame in an egress queue (R419, R420). -/
structure EgFrame where
  bytes : List Byte
  length : Nat
  deriving DecidableEq, Repr

/-- The switch. -/
structure NetSt where
  sas : List (Nat × Sa)
  vlans : List (Nat × Vlan)
  /-- Learned addresses, by VID × 2^48 + address. -/
  fdb : List (Nat × FdbEntry)
  /-- Egress queues that hold frames, by 4 × port + queue, oldest first. -/
  queues : List (Nat × List EgFrame)
  /-- MACsec drops of each port since the last EV_NET_MACSEC_DROP and the raw count of that event (R427). -/
  dropsSince : List Nat
  dropLogged : List (Option Nat)
  deriving DecidableEq, Repr

/-- The best master that the controller follows (R437). -/
structure PtpParent where
  /-- Parent port identity, 10 bytes. -/
  ident : List Byte
  gmClass : Nat
  gmPriority1 : Nat
  /-- The rest of the comparison: accuracy, variance, priority2, identity, steps removed. -/
  gmAccuracy : Nat
  gmVariance : Nat
  gmPriority2 : Nat
  gmIdent : List Byte
  steps : Nat
  port : Nat
  /-- Raw count of its last Announce. -/
  heard : Nat
  deriving DecidableEq, Repr

/-- A two-step Sync that the transparent clock has forwarded: what its Follow_Up still gets (R440). -/
structure TcSync where
  ident : List Byte
  seq : Nat
  at_ : Nat
  /-- The number that its free residence times are drawn under, and the link delay to add in units of 2^-16 ns. -/
  drawn : Nat
  link : Nat
  deriving DecidableEq, Repr

/-- The PTP values of TIME_CONFIG that no register holds (R452). -/
structure PtpCfg where
  logSync : Int
  logAnnounce : Int
  logDelay : Int
  priority1 : Nat
  priority2 : Nat
  deriving DecidableEq, Repr

/-- The time block (R430 to R449). -/
structure TimeSt where
  /-- The raw count C of CK_PTP periods. -/
  raw : Nat
  /-- C_b. -/
  cb : Nat
  /-- T_b in units of 2^-64 s. -/
  tb : Nat
  /-- r_I of R444, in units of 2^-40. -/
  rI : Int
  cfg : PtpCfg
  parent : Option PtpParent
  /-- The best Announce of each port that has heard one, by port (R437). -/
  announces : List (Nat × PtpParent)
  /-- Two-step Sync messages forwarded within the last 100 ms (R440). -/
  tcWait : List TcSync
  /-- sequenceId of the last accepted sample of the parent. -/
  lastSeq : Option Nat
  /-- Raw count of the last accepted sample. -/
  lastAccept : Option Nat
  /-- Raw count from which the time-out of R442 runs. -/
  waitFrom : Nat
  /-- Consecutive accepted samples below the lock threshold. -/
  lockRun : Nat
  /-- Consecutive samples that failed only check 4. -/
  failRun : Nat
  /-- Raw count at which HOLDOVER was entered. -/
  holdoverAt : Nat
  /-- Raw count of the previous accepted PPS edge. -/
  lastEdge : Option Nat
  /-- Steps since start-up. -/
  steps : Nat
  /-- Rejections since the last EV_TIME_REJECT and the raw count of that event. -/
  rejSince : Nat
  rejLogged : Option Nat
  /-- PLL_PTP runs from TIME_REF_IN at 10 MHz (R445). -/
  onRef : Bool
  /-- Raw counts at which the next Sync, Announce and delay request of each port are due, by 3 × port + kind. -/
  due : List (Nat × Nat)
  /-- The next sequenceId of each, by the same key. -/
  seqs : List (Nat × Nat)
  deriving DecidableEq, Repr

/-! ### Real-time clock -/

/-- What waits for the next CK_RTC tick (R460, R462, R466, R467, R470). -/
inductive RtcOp where
  /-- A write of the count; from RTC_SET_CALENDAR or RTC_SET_COUNT. -/
  | write (v : Instant) (calendar : Bool)
  | halt
  | release (add : Bool)
  | arm (alarm : Nat) (t : Instant)
  | zone (offset zone : Nat)
  deriving DecidableEq, Repr

/-- The real-time clock in PD_BAT; its other state is in registers (R454, R455). -/
structure RtcSt where
  /-- The count in units of 2^-32 s: while HALT is 1, the held count. -/
  count : Instant
  /-- Ticks of the present block of 1,024. -/
  sub : Nat
  /-- Blocks that FOLLOW_ADJ still applies to (R457). -/
  adjLeft : Nat
  weekday : Nat
  /-- The last tick incremented the seconds, and the difference has not been taken since. -/
  secTick : Bool
  /-- The step of R457 that the next tick makes. -/
  stepTo : Option Instant
  /-- Operations that wait for the next tick, by number, oldest first. -/
  pend : List (Nat × RtcOp)
  nextOp : Nat
  /-- The count and the block's ticks at the halt. -/
  heldAt : Instant
  subAtHalt : Nat
  /-- Sum of FOLLOW_ADJ over the seconds of an unbroken locked following (R458). -/
  learnSum : Int
  learnN : Nat
  /-- Events to be logged at the next start-up: time of occurrence, code and parameters. -/
  unlogged : List (Instant × Nat × Nat × Nat)
  deriving DecidableEq, Repr

/-! ### Key store and tamper -/

/-- A slot that is IN_USE or SEALED (R538 to R541). -/
structure Slot where
  isSealed : Bool
  /-- The attribute word of R546. -/
  attr : Word
  /-- The working copy of the key. -/
  key : List Byte
  /-- Device-time seconds of creation. -/
  created : Nat
  /-- The parent slot of a derived key; 0xFFFF for the root and for a key that was not derived. -/
  parent : Nat
  derived : Bool
  /-- The caller's context of a derivation. -/
  ctx : List Byte
  deriving DecidableEq, Repr

/-- A slot record of a key bank (R549): the slot with the slot context that its wrap key was derived under (R550). -/
structure BankRec where
  slot : Slot
  bound : List Byte
  deriving DecidableEq, Repr

/-- A key bank in FeRAM (R549): the root that its MAC key descends from stands for the MAC; `good` is false for a bank
whose write was torn. -/
structure Bank where
  seq : Nat
  secs : Nat
  recs : List (Nat × BankRec)
  root : List Byte
  good : Bool
  deriving DecidableEq, Repr

/-- An intent record of the journal (R549, R551). -/
structure Intent where
  target : Nat
  slot : Nat
  op : Nat
  complete : Bool
  /-- The root that its MAC key descends from. -/
  root : List Byte
  deriving DecidableEq, Repr

/-- The key store (R532 to R562). -/
structure KeySt where
  /-- The root secret in the battery-backed SRAM, while it is valid. -/
  root : Option (List Byte)
  slots : List (Nat × Slot)
  bank0 : Option Bank
  bank1 : Option Bank
  intent0 : Option Intent
  intent1 : Option Intent
  /-- The intent record last used. -/
  lastIntent : Nat
  /-- Last accepted replay counter of each slot, in the counter area, and the root whose MAC covers it. -/
  counters : List (Nat × Nat)
  countersRoot : List Byte
  /-- A purge took place since the last start-up (R557). -/
  purged : Bool
  /-- Consecutive TRNG health-test failures (R537). -/
  trngRun : Nat
  /-- Consecutive ticks for which each tamper source's condition has held (R556). -/
  filt : List Nat
  /-- The tamper-log trips not yet logged as events, taken on battery (R556). -/
  unlogged : List Nat
  deriving DecidableEq, Repr

/-! ### Logic cores and cyclic execution -/

/-- What a logical core does; OFF is its cluster's domain not being ON (R187). -/
inductive CoreMode where
  | idle
  | running
  | handler
  | held
  | faulted
  deriving DecidableEq, Repr

/-- One logical core: its program-visible registers and its binding (R153, R155, R187). -/
structure CoreSt where
  mode : CoreMode
  /-- The task on the core, outside IDLE. -/
  task : Nat
  /-- The physical core behind it (R24, R25). -/
  phys : Nat
  w : List DWord
  v : List DWord
  /-- c0 to c3. -/
  c : BitVec 4
  pc : BitVec 40
  fcsr : DWord
  qtest : DWord
  tvec : DWord
  tcause : DWord
  tpc : DWord
  tval : DWord
  /-- CCOUNT when `since` was taken, and the raw count then. -/
  ccount : Nat
  since : Nat
  /-- The fraction latched by the last TIME_SEC read. -/
  timeFrac : Word
  deriving DecidableEq, Repr

/-- Where a cycle stands (R203). -/
inductive CycPhase where
  /-- Outside its cycle. -/
  | idle
  /-- Waits for its copy-in. -/
  | copyIn
  /-- Waits for its core. -/
  | ready
  | running
  | preempted
  | held
  /-- Ended, copy-out not complete. -/
  | copyOut
  deriving DecidableEq, Repr

/-- The run-time state of one task. -/
structure TaskSt where
  phase : CycPhase
  /-- STOP_TASK has stopped it (R208). -/
  stopped : Bool
  /-- The release instant and tick index of the present cycle, and the raw count then. -/
  release : Instant
  releaseTick : Nat
  releaseRaw : Nat
  /-- The next release instant: the boundary of the present cycle. -/
  boundary : Instant
  /-- The tick of the last release made (R192). -/
  lastTick : Option Nat
  /-- The last grid tick released or counted in SKIPPED. -/
  seenTick : Nat
  /-- The present cycle has missed its output deadline (R204). -/
  overran : Bool
  /-- Consecutive faults and overruns (R242). -/
  faults : Nat
  overruns : Nat
  /-- Overruns since the last EV_CYC_OVERRUN and the raw count of that event. -/
  overrunSince : Nat
  overrunLogged : Option Nat
  /-- The instant at which the latest copy-out completed, and the boundary it is staged for. -/
  copiedOut : Option Instant
  stageFor : Option Instant
  /-- Cycle number of the last cycle whose copy-out completed (R278). -/
  lastDone : Nat
  /-- No station receives the outputs of the copy-out that CYC_STOP mode 1 found begun (R214). -/
  noStage : Bool
  /-- The boundary that gets no COMMIT because the cycle before it faulted (R208, R279). -/
  faultBoundary : Option Instant
  /-- The trap handler was running when the task lost its core. -/
  inHandler : Bool
  /-- Its cycle began before the mode change that is draining (R214). -/
  draining : Bool
  /-- The raw count when its save frame was written, and the latched fraction of TIME_FRAC then (R155, R159). -/
  savedRaw : Nat
  savedFrac : Word
  deriving DecidableEq, Repr

/-- A loaded, waiting or switching change (R223, R231). -/
structure Change where
  /-- A value change; otherwise a full change. -/
  values : Bool
  /-- The new image of a full change. -/
  image : List Byte
  /-- The change map's operations, or the value list, as bytes. -/
  body : List Byte
  releaseForces : Bool
  /-- Raw count at which the change became WAITING. -/
  waitFrom : Nat
  deriving DecidableEq, Repr

/-- An image or package being received in chunks. -/
structure Chunks where
  total : Nat
  bytes : List Byte
  deriving DecidableEq, Repr

/-- A background write of the program store (R232): the slot, and the image or the value list to append. -/
structure StoreJob where
  slot : Nat
  values : Bool
  bytes : List Byte
  deriving DecidableEq, Repr

/-- The cycle engine. -/
structure CycSt where
  tasks : List TaskSt
  /-- Transfers requested, in order of service: task and whether it is a copy-out (R198). -/
  xfer : List (Nat × Bool)
  prog : Option Prog
  /-- The data area has not been initialised since the program was placed (R217). -/
  fresh : Bool
  /-- The instant at which Run was entered (R190). -/
  runFrom : Instant
  /-- Causes of the mode change that drains: old mode, new mode, parameter B of EV_CYC_MODE. -/
  drain : Option (Nat × Nat × Nat)
  forces : List Force
  load : Option Chunks
  changeLoad : Option Chunks
  change : Option Change
  /-- Releases held at the switch point, with the tick of each: one for a task (R205, R225, R226). -/
  delayed : List (Nat × Nat)
  /-- Background writes of the program store, oldest first. -/
  store : List StoreJob
  /-- The cause code of a fixed-period entry that waits for the next frame start (R210). -/
  fixedDue : Option Nat
  /-- AUTOSTART may still act in this start-up (R141). -/
  autostart : Bool
  deriving DecidableEq, Repr

/-! ### Stations (spec 07) -/

/-- A join in progress (R267). -/
structure Join where
  mode : Nat
  serial : List Byte
  mac : Nat
  boxCrc : Nat
  token : Option Nat
  request : List Byte
  challenge : List Byte
  ctlNonce : List Byte
  ephPriv : List Byte
  proof : Option (List Byte)
  deriving DecidableEq, Repr

/-- A renewal of a segment key (R258, R271). -/
structure KeyWait where
  key : List Byte
  epoch : Nat
  left : List Nat
  cycles : Nat
  /-- The number of the bus cycle that its CONFIG items name. -/
  first : Nat
  deriving DecidableEq, Repr

/-- Where a segment stands in its bus cycle (R249). -/
inductive BusPhase where
  | idle
  | input
  | inputDone
  | stage
  | decided
  | commit
  | service
  deriving DecidableEq, Repr

/-- What a stage phase has sent. -/
structure Staged where
  cycle : Nat
  claim : Nat
  nums : List Nat
  /-- Fraction of device time at which the first STAGE frame of the phase was sent. -/
  sendFrac : Nat
  /-- How long after that the frame with the record of each station was sent. -/
  sentAt : List (Nat × Instant)
  bitmap : Nat
  deriving DecidableEq, Repr

/-- One segment. -/
structure SegSt where
  /-- Present W (R268). -/
  w : Nat
  phase : BusPhase
  /-- B of the present bus cycle, and its period. -/
  boundary : Instant
  period : Instant
  /-- Bus cycles left without STAGE and COMMIT after a step of device time (R448). -/
  settle : Nat
  /-- In the service window: the instant up to which its line is taken (R420). -/
  lineFree : Instant
  key : List Byte
  epoch : Nat
  txSeq : Nat
  newKey : Option KeyWait
  staged : Option Staged
  joinReqs : Nat
  /-- Frames that wait for the next service window: station number, type and body. -/
  svcq : List (Nat × Nat × List Byte)
  joins : List (Nat × Join)
  /-- CONFIG frames not acknowledged: sequence, station number and kind (1 Boxwood, 3 key). -/
  cfgWait : List (Nat × Nat × Nat)
  failLogged : Option Nat
  /-- A disable waits for the start to end. -/
  wantOff : Bool
  /-- The start under way was held pending while the segment stopped (R294). -/
  pended : Bool
  /-- The registers of STN.QCLASS as they were when the input phase began (R291). -/
  classes : List (Nat × Word)
  /-- The sequence number of the last group frame accepted from the peer under the segment key (R258). -/
  peerSeq : Nat
  deriving DecidableEq, Repr

/-- The station engine. -/
structure StnSt where
  segs : List SegSt
  /-- Contexts by 64 × segment + station number. -/
  ctxs : List (Nat × Ctx)
  /-- Raw counts of the join failures of a serial number, and the end of its lockout (R269). -/
  fails : List (Nat × List Nat)
  locks : List (Nat × Nat)
  deriving DecidableEq, Repr

/-! ### Metering (spec 10) -/

/-- What a virtual meter takes from one INPUT frame (R377): counters are none under status 0b10 or 0b11, temperatures
are FP64 and none where not usable; `bits` is the counters' width. -/
structure MeterSample where
  time : Instant
  bits : Nat
  fwd : Option Nat
  rev : Option Nat
  sup : Option Nat
  ret : Option Nat
  deriving DecidableEq, Repr

/-- The increments of a set's block over (t0, t1]: active, reactive and apparent register and energy (R372, R373). -/
structure SetBlock where
  t0 : Instant
  t1 : Instant
  active : Nat × Int
  reactive : Nat × Int
  apparent : Nat × Int
  clipped : Bool
  deriving DecidableEq, Repr

/-- A metering channel of R365: meter n, or electric set n − 2,048. -/
structure MetCh where
  /-- Accumulators and written totals of registers 0 to 7 (R386). -/
  acc : List Int
  tot : List Int
  /-- Record flags and recorded loss bound (R394). -/
  flags : Byte
  bound : Nat
  /-- The record write in flight: the copy and its 80 bytes (R389). -/
  writing : Option (Nat × List Byte)
  /-- Increments that wait for it. -/
  samples : List MeterSample
  blocks : List SetBlock
  base : Option Baseline
  /-- Counts since the last record write (R388). -/
  cntF : Nat
  cntR : Nat
  /-- The last valid pair and its sample instant (R380). -/
  pair : Option (Nat × Nat × Instant)
  /-- Start and end of the open window in seconds; 0 without a grid. -/
  winFrom : Nat
  winEnd : Nat
  /-- Flags, fault time, clipped blocks and highest demand (FP32) of the open window (R396). -/
  wflags : Byte
  fault : Nat
  clips : Nat
  high : Nat
  /-- The instant up to which windows ended while metering was stopped or frozen (R406). -/
  mark : Instant
  /-- Energies of blocks integrated while frozen (R398). -/
  held : List Int
  /-- +A energy of the present demand window, its end, and whether the set has run through all of it (R408). -/
  demand : Int
  demEnd : Nat
  demWhole : Bool
  /-- Ended demand windows not yet evaluated: start, energy, whole. -/
  demDone : List (Nat × Int × Bool)
  deriving DecidableEq, Repr

/-- An analog channel's running values, in units of one code. -/
structure AnCh where
  /-- The last raw code was at a rail (R369). -/
  rail : Bool
  /-- A clipped sample lies in the present block. -/
  clip : Bool
  /-- Raw count of the last EV_MET_PEAK. -/
  peakLog : Option Nat
  /-- An over-current excursion lasts (R375). -/
  isOver : Bool
  /-- Sum of squares of the present block, and sums and counts of the last 20 blocks. -/
  sq : Int
  hist : List (Int × Nat)
  /-- Sum of squares and samples of the present half cycle. -/
  hcSq : Int
  hcN : Nat
  /-- Sign of the voltage beyond the hysteresis. -/
  pos : Bool
  deriving DecidableEq, Repr

/-- One pulse output (R391). -/
structure Pulse where
  /-- Units of the register since the last pulse. -/
  div : Nat
  waiting : Nat
  /-- 0 idle, 1 high, 2 pause; and the raw count at which the timer runs out. -/
  phase : Nat
  until_ : Nat
  /-- EV_MET_PULSE_OVERFLOW has been logged in the open window. -/
  logged : Bool
  deriving DecidableEq, Repr

/-- The metering engine. -/
structure MetSt where
  /-- The epoch that is open, while one is (R399). -/
  epoch : Option Nat
  frozen : Bool
  /-- A restore waits for the end of the FeRAM hold (R127). -/
  waits : Bool
  /-- The store was restored at order 3 of R138 and PD_MET has not been powered up since. -/
  restored : Bool
  chs : List (Nat × MetCh)
  analog : List AnCh
  /-- The last 5 samples of all channels, newest first, each with its stamp (R366, R368). -/
  hist : List (Instant × List Int)
  /-- The present block: start, end and samples; and the sum of v·i of each set. -/
  blkFrom : Instant
  blkTo : Instant
  blkN : Nat
  vi : List Int
  /-- Sums of v·i of each set's last 20 blocks. -/
  viHist : List (List (Int × Nat))
  /-- Channels, sets and user layer in force since the last block boundary. -/
  chans : List (Nat × AnCfg)
  sets : List (Nat × SetCfg)
  cal : List (Nat × Int × Int)
  /-- The grid in force; a new one waits in the configuration for the end of the open window (R407). -/
  grid : Option Tariff
  /-- The last window ends, oldest first, and whether each ends a transition window; the last is the open window's. -/
  ends : List (Nat × Bool)
  /-- RESET_MAX waits for the end of this demand window, in seconds. -/
  resetMax : Option Nat
  /-- Latched closing records, and the channels whose record waits to be written (R405). -/
  snap : List (Nat × List Byte)
  closeQ : List Nat
  pulses : List Pulse
  deriving DecidableEq, Repr

/-! ### CAN channels (spec 13) -/

/-- An entry of a transmit queue (R478). -/
structure CanTx where
  idWord : Word
  dlc : Nat
  flags : Byte
  tag : Nat
  data : List Byte
  program : Bool
  attempts : Nat
  clashes : Nat
  /-- CAN_ABORT has found its frame on the wire (R481). -/
  marked : Bool
  deriving DecidableEq, Repr

/-- A frame of the reference service that is offered ahead of the queue: the reference frame, or the follow-up with the
sequence number and SOF of its reference frame (R493). -/
inductive CanRef where
  | ref
  | fup (seq : Nat) (sof : Instant)
  deriving DecidableEq, Repr

/-- A CAN channel; CH, ERR and their neighbours are fields of `CAN.STATE`. -/
structure CanCh where
  tx : List CanTx
  tec : Nat
  rec_ : Nat
  /-- The present recovery is automatic. -/
  recAuto : Bool
  /-- The present start was a pending enable. -/
  pendStart : Bool
  offers : List CanRef
  refSeq : Nat
  refDue : Nat
  /-- The last reference frame received: sequence, SOF and raw count; and the raw count of the last accepted pair. -/
  lastRef : Option (Nat × Instant × Nat)
  lastPair : Nat
  rxSeq : Nat
  /-- Overflow drops since the last EV_CAN_RX_OVERFLOW and the raw count of that event. -/
  ovSince : Nat
  ovLogged : Option Nat
  deriving DecidableEq, Repr

/-- The CAN channels. -/
structure CanSt where
  chs : List CanCh
  /-- SOF time and AGE of the last frame of each latest-value buffer that has one. -/
  lvb : List (Nat × Instant × Nat)
  /-- CAN.PSEND_RESULT of each initiator. -/
  psend : List (Nat × Word)
  deriving DecidableEq, Repr

/-! ### Redundancy -/

/-- The redundancy block; ROLE and its neighbours are registers. -/
structure RedSt where
  /-- The role decision of start-up has not ended, and the raw count at which PD_LINK became ON (R501). -/
  deciding : Bool
  linkOnAt : Nat
  /-- The unit becomes STANDBY when the first full synchronisation ends (R501). -/
  standbyDue : Bool
  /-- Outgoing blocks are SILENT indications (R513, R523). -/
  silentInd : Bool
  /-- A notice of RED_LEAVE goes with the next heartbeat. -/
  leaving : Bool
  /-- The peer, in STANDBY, holds a complete state (R523, R524). -/
  peerSynced : Bool
  /-- The peer's unit identity; 0 when none. -/
  peerId : Nat
  /-- Heartbeats missed in a row, the tick of the first, and whether one has arrived since the last tick (R513, R519). -/
  missed : Nat
  firstMiss : Instant
  heard : Bool
  /-- The last COMMIT with the peer's claim at a segment port, and the apply time it commanded. -/
  peerCommit : Option Instant
  gapFrom : Option Instant
  /-- The first COMMIT after a takeover ends the gap (R521). -/
  gapOpen : Bool
  /-- A takeover goes on: its cause (R520), or 3 for a handover. -/
  takeover : Option Nat
  /-- A claim that waits for the power-fail save (R504). -/
  claimDue : Option Nat
  /-- EV_RED_TAKEOVER_BLOCKED, or EV_RED_LINK_DOWN with the peer alive, has been logged for the present cause. -/
  blockLogged : Bool
  /-- Cycle number and release tick of each task's last copied cycle, whether it was marked final, and the copied mode. -/
  copied : List (Nat × Nat × Nat × Bool)
  copiedMode : Nat
  /-- Raw count at which the present full synchronisation began. -/
  syncFrom : Nat
  /-- On the claiming unit: 256-byte granules written since the last copy, granules written by each task in its cycle,
  and the number of each task's last copied cycle (R514). -/
  dirty : List Nat
  taskDirty : List (Nat × List Nat)
  sent : List (Nat × Nat)
  /-- A handover goes on since this raw count (R524), and the tasks whose final copy has been sent. -/
  handover : Option Nat
  finalDone : List Nat
  /-- Birlith lanes that carry traffic, and the failing lane whose spare is being trained, with it (R512). -/
  active : List Nat
  training : Option (Nat × Nat)
  deriving DecidableEq, Repr

/-! ### Health (spec 17) -/

/-- A core that is retire-due, or named by HLT_SPARE_BRING_IN, and waits for its spare (R592 to R594). -/
structure CoreDue where
  phys : Nat
  commanded : Bool
  /-- Raw count at which the present attempt began; after an abandoned one, when the next begins. -/
  since : Nat
  retryAt : Option Nat
  /-- It has failed its self-test (R595). -/
  failed : Bool
  deriving DecidableEq, Repr

/-- A memory row that waits for its spare (R596). -/
structure RowDue where
  kind : Nat
  group : Nat
  addr : Nat
  deriving DecidableEq, Repr

/-- The health ledger (R587, R588): equivalent time in units of 2^-32 s, powered seconds, power-on resets, and the
device-time seconds of its last write. -/
structure Ledger where
  equiv : Nat
  powered : Nat
  cycles : Nat
  written : Nat
  deriving DecidableEq, Repr

/-- The spare maps (R589): spares used by kind and group, physical cores retired, cores without a successor, and
retired rows and sectors by kind and address. -/
structure SpareMaps where
  used : List (List Nat)
  retired : List Nat
  units : List (Nat × Nat)
  deriving DecidableEq, Repr

/-- Health, spares, scrubbing, performance counters and bandwidth windows. -/
structure HltSt where
  ledger : Ledger
  maps : SpareMaps
  fromDefault : Bool
  /-- Raw counts of the last sensor sample, equivalent-time tick and ledger write. -/
  sampleRaw : Nat
  tickRaw : Nat
  ledgerRaw : Nat
  due : List CoreDue
  /-- Raw counts of the machine checks of the last 24 h of each physical core. -/
  checks : List (Nat × List Nat)
  /-- Physical cores for which EV_HLT_NO_SPARE has been logged. -/
  noSpare : List Nat
  /-- Logical cores left without a core (R595). -/
  dead : List Nat
  rows : List RowDue
  /-- Corrections of each row: raw counts of the last 24 h. -/
  rowHist : List (Nat × List Nat)
  /-- Words that the last scrub pass over them corrected (R596). -/
  scrubbed : List Nat
  /-- The 64 performance counters, and the raw count up to which cycles have been counted. -/
  perf : List Nat
  perfAt : Nat
  /-- Bytes received and sent in the present bandwidth window, its length in ms and number, and PARTIAL to be. -/
  bwRx : List Nat
  bwTx : List Nat
  bwLen : Nat
  bwIx : Nat
  bwPartial : Bool
  /-- Start and length of the window whose counts are held. -/
  bwHeld : Nat × Nat
  deriving DecidableEq, Repr

/-! ### Optimiser (spec 08 and 09) -/

/-- One stage of a vector of the Karush-Kuhn-Tucker system, FP32 in scaled units: the inputs u_{k−1}, the states x_k, the
multipliers of the stage's dynamics, and one multiplier for each row, 0 for a row that is no EQUALITY row. -/
structure KktVec where
  u : List Nat
  x : List Nat
  y : List Nat
  nu : List Nat
  deriving DecidableEq, Repr

/-- The slack variables of one row: the slack and multiplier of each side, and a soft row's own slack with its multiplier;
0 where the row has no such side (R329). -/
structure RowPt where
  tLo : Nat
  tHi : Nat
  lLo : Nat
  lHi : Nat
  s : Nat
  ls : Nat
  deriving DecidableEq, Repr

/-- One stage of a point of the interior-point method. -/
structure StagePt where
  v : KktVec
  rows : List RowPt
  deriving DecidableEq, Repr

/-- A solve job in a context (R318, R327). -/
structure Job where
  id : Nat
  slot : Nat
  ver : Nat
  bank : Nat
  noApply : Bool
  prio : Nat
  /-- Deadline; 0 for none. -/
  deadline : Instant
  resAddr : Nat
  tag : Nat
  /-- Submitted by the host. -/
  host : Bool
  /-- The number of its submission. -/
  order : Nat
  /-- 0 QUEUED, 1 RUNNING, 2 ENDED. -/
  state : Nat
  /-- The value (FP32) of each input binding, by binding index, and how many were substituted. -/
  inputs : List (Nat × Nat)
  subst : Nat
  submitted : Instant
  started : Option Instant
  startRaw : Nat
  /-- Bit n: SEn serves the job. -/
  engines : Nat
  /-- Iterations completed on real inputs, and speculative ones kept. -/
  iters : Nat
  spec : Nat
  ranAhead : Bool
  /-- The bank's generation at the start. -/
  gen : Nat
  /-- The bank as the engines last read it: at the start in resident placement, at each sweep in streaming (R302). -/
  data : List Byte
  /-- The present point, by stage. -/
  pt : List StagePt
  pivots : Nat
  retries : Nat
  refine : Nat
  firstRetry : Nat
  inertia : Bool
  refineLimit : Bool
  /-- Lanes that have shown a residue mismatch in this job. -/
  mism : List Nat
  /-- After the end: status, the result record, the parts of it read (offset and length), and the raw count of the end. -/
  status : Status
  record : List Byte
  reads : List (Nat × Nat)
  endRaw : Nat
  deriving DecidableEq, Repr

/-- Run-ahead work in a context (R347, R348). -/
structure Ahead where
  slot : Nat
  ver : Nat
  bank : Nat
  gen : Nat
  engines : Nat
  inputs : List (Nat × Nat)
  /-- The bank as the engines last read it, and the speculative point. -/
  data : List Byte
  pt : List StagePt
  /-- Iterations completed. -/
  iters : Nat
  parked : Bool
  startRaw : Nat
  mism : List Nat
  deriving DecidableEq, Repr

/-- A result that waits for its carrier's copy-out (R314, R315). -/
structure PlanWait where
  slot : Nat
  ver : DescVer
  order : Nat
  status : Status
  plan : Option (List Nat)
  /-- The carrier's copy-out has begun since the result was confirmed. -/
  taken : Bool
  deriving DecidableEq, Repr

/-- The lanes of an engine (R356 to R358). -/
structure LaneMap where
  /-- Physical lanes in service. -/
  inUse : List Nat
  faulty : List Nat
  deriving DecidableEq, Repr

/-- The solver. Engine states are fields of SOLV.ENG_STATE. -/
structure SolvSt where
  slots : List DescSlot
  jobs : List (Nat × Job)
  ahead : List (Nat × Ahead)
  /-- The use count of the next job of each context. -/
  uses : List Nat
  nextOrder : Nat
  nextVer : Nat
  /-- A load in chunks: slot, total length, home and the bytes so far (R325). -/
  load : Option (Nat × Nat × Nat × List Byte)
  /-- The stored descriptors with an area in DDR wait for DDR before they are restored (R308). -/
  restoreDue : Bool
  /-- Of each carrier task, the number of the submission whose result was last applied (R315). -/
  applied : List (Nat × Nat)
  results : List PlanWait
  /-- SOLV.PSUBMIT_RESULT of each initiator. -/
  psub : List (Nat × Word)
  lanes : List LaneMap
  /-- Faulty lanes that wait for a spare, oldest first, as 128 × engine + lane. -/
  laneDue : List Nat
  /-- Bit n: a disable of engine n waits for its start; its present start was a pending enable; a job has used its local
  memory since its domain came up, so the contents are open. -/
  disableWaiting : BitVec 4
  startPending : BitVec 4
  localUsed : BitVec 4
  /-- Of an engine, the part of its local memory (offset and length) that reads 0: the workspace of run-ahead work, until a
  job starts there (R41, R349). -/
  hidden : List (Nat × (Nat × Nat))
  deriving DecidableEq, Repr

/-! ### What FeRAM's persistent configuration keeps -/

/-- The persistent configuration (R138 order 1). -/
structure Nv where
  /-- Registers kept in persistent configuration, by address. -/
  regs : List (Nat × Word)
  /-- The bank that the boot selection record names (R134). -/
  bootSel : Option Nat
  ptp : PtpCfg
  /-- The endorsement of the identity key (R533). -/
  endorsement : List Byte
  /-- The active slot of the program store (R233). -/
  activeSlot : Nat
  /-- Segment configurations, and whether each was last enabled (R248, R292). -/
  segs : List (Nat × SegCfg)
  segOn : BitVec 20
  /-- Admission records by 64 × segment + station number (R248), and join tokens (R266). -/
  adms : List (Nat × Adm)
  tokens : List (Nat × Token)
  /-- Metering configuration. -/
  met : MetCfg
  ledger : Ledger
  maps : SpareMaps
  /-- Lane maps of the solver engines (R358). -/
  lanes : List LaneMap
  deriving DecidableEq, Repr

/-! ### The block -/

/-- Everything that the spec gives the block, and the queue of waiting commands. -/
structure State where
  /-- Commands waiting, first in first out. -/
  pending : List Instr
  /-- The registers by address, in canonical form: an unlisted register holds its reset value. -/
  regs : List (Nat × Word)
  /-- The addressed memories by address, in canonical form: an unlisted byte is 0. -/
  mem : List Host.Cell
  /-- The 64-bit words, by address, that hold an uncorrectable error until they are written (R596). -/
  poison : List Nat
  /-- The 64-bit words, by address, that hold a single-bit error which nothing has read since (R27). -/
  weak : List Nat
  /-- The octal-SPI flash by offset: an unlisted byte is erased, 0xFF. -/
  flash : List Host.Cell
  /-- Problem descriptors in the descriptor areas of the flash, by 16 × program slot + descriptor slot: home and bytes
  (R308). -/
  descArea : List (Nat × Nat × List Byte)
  /-- What the block has sent, newest first. -/
  out : List Out
  /-- How many free values have been drawn. -/
  draws : Nat
  host : HostSt
  evr : EvrSt
  pwr : PwrSt
  xing : XingSt
  net : NetSt
  time : TimeSt
  rtc : RtcSt
  key : KeySt
  /-- Logical cores 0 to 15. -/
  cores : List CoreSt
  cyc : CycSt
  stn : StnSt
  met : MetSt
  solv : SolvSt
  can : CanSt
  red : RedSt
  hlt : HltSt
  /-- Persistent configuration as FeRAM holds it. -/
  nv : Nv
  /-- Persistent configuration as it will be when the held writes of R127 have been made. -/
  nvNext : Nv
  deriving DecidableEq, Repr

/-! ### Reset -/

/-- The host side after reset: every ring DISABLED, nothing in flight. -/
def HostSt.reset : HostSt :=
  { bme := false, held := [], ended := [], inflight := [], nextId := 0, last := List.replicate 16 ⟨none, none⟩, datagrams := [],
    nextDatagram := 0, assocs := [], authFails := [], lockUntil := none, latches := [], heldLo := [], drops := [],
    dropLogged := none }

/-- The recorder after reset: an empty queue, and an empty log (the FeRAM of a new part).
[DESIGN CHOICE, log entry 4] -/
def EvrSt.reset : EvrSt :=
  { queue := [], log := [], own := [], writePos := 0, firstLost := none, freezeEnd := 0, restored := false }

/-- Start-up and power at the release of the power-on reset: phase SUPPLY_WAIT, every switched domain OFF (R129, R151). -/
def PwrSt.reset : PwrSt :=
  { main := true, pfwLow := true, feramHold := false, mgtResets := [], mgtRuns := false, resetDue := none, resetWaits := false,
    startCfg := 0x603, disableWaiting := 0,
    pendingStart := 0, changedAt := List.replicate 12 0, meas := List.replicate 4 (List.replicate 48 0),
    fwWrite := none, saving := false, ddrZeroing := false, inReset := false, powerOn := true,
    ddrWait := false, minSvn := 0, alertLow := true, gibSet := false }

/-- Crossings and event inputs after reset: nothing discarded, nothing withheld. [DESIGN CHOICE, log entry 161] -/
def XingSt.reset : XingSt :=
  { lost := List.replicate 13 0, blockedAt := List.replicate 13 0, evtStamp := List.replicate 8 0, evtRaw := List.replicate 8 0,
    evtLogged := 0, pins := 0 }

/-- The switch after reset: no association, no VLAN, nothing learned. -/
def NetSt.reset : NetSt :=
  { sas := [], vlans := [], fdb := [], queues := [], dropsSince := List.replicate 21 0,
    dropLogged := List.replicate 21 none }

/-- The PTP values before TIME_CONFIG first sets them: priority1 and priority2 are 128 (R444). -/
def PtpCfg.reset : PtpCfg := { logSync := 0, logAnnounce := 1, logDelay := 0, priority1 := 128, priority2 := 128 }

/-- The time block after reset: raw count 0 (R430), RATE 0, servo FREE (R433). -/
def TimeSt.reset : TimeSt :=
  { raw := 0, cb := 0, tb := 946684800 * 2 ^ 64, rI := 0, cfg := PtpCfg.reset, parent := none, announces := [], tcWait := [],
    lastSeq := none,
    lastAccept := none, waitFrom := 0, lockRun := 0, failRun := 0, holdoverAt := 0, lastEdge := none, steps := 0,
    rejSince := 0, rejLogged := none, onRef := false, due := [], seqs := [] }

/-- The RTC at its initialisation: 2000-01-01 00:00:00 TAI, weekday 0, no alarm (R455).
[DESIGN CHOICE, log entry 4] -/
def RtcSt.reset : RtcSt :=
  { count := 946684800 * 2 ^ 32, sub := 0, adjLeft := 0, weekday := 0, secTick := false, stepTo := none, pend := [],
    nextOp := 0, heldAt := 0, subAtHalt := 0, learnSum := 0, learnN := 0, unlogged := [] }

/-- The key store after reset: no root secret has been confirmed, every slot EMPTY. [DESIGN CHOICE, log entry 4] -/
def KeySt.reset : KeySt :=
  { root := none, slots := [], bank0 := none, bank1 := none, intent0 := none, intent1 := none, lastIntent := 1,
    counters := [], countersRoot := [], purged := false, trngRun := 0, filt := List.replicate 7 0, unlogged := [] }

/-- A core between cycles, with nothing in its registers. [DESIGN CHOICE, log entry 2] -/
def CoreSt.empty (phys : Nat) : CoreSt :=
  { mode := .idle, task := 0, phys := phys, w := List.replicate 16 0, v := List.replicate 16 0, c := 0, pc := 0,
    fcsr := 0, qtest := 0xC0C0, tvec := 0, tcause := 0, tpc := 0, tval := 0, ccount := 0, since := 0, timeFrac := 0 }

/-- Logical cores 0 to 7 map to LC0 to LC7, 8 to 15 to LC9 to LC16; LC8 and LC17 are the spares (R24, R187). -/
def coresReset : List CoreSt := (List.range 16).map fun l => CoreSt.empty (if l < 8 then l else l + 1)

/-- A task outside any cycle. [DESIGN CHOICE, log entry 2] -/
def TaskSt.empty : TaskSt :=
  { phase := .idle, stopped := false, release := 0, releaseTick := 0, releaseRaw := 0, boundary := 0, lastTick := none,
    seenTick := 0, overran := false, faults := 0, overruns := 0, overrunSince := 0, overrunLogged := none,
    copiedOut := none, stageFor := none, lastDone := 0, noStage := false, faultBoundary := none, inHandler := false, draining := false,
    savedRaw := 0, savedFrac := 0 }

/-- The cycle engine after reset: Stop mode, no program placed, no force. -/
def CycSt.reset : CycSt :=
  { tasks := List.replicate 32 TaskSt.empty, xfer := [], prog := none, fresh := true, runFrom := 0, drain := none,
    forces := [], load := none, changeLoad := none, change := none, delayed := [], store := [], fixedDue := none,
    autostart := false }

/-- A segment with nothing under way. [DESIGN CHOICE, log entry 2] -/
def SegSt.empty : SegSt :=
  { w := 0, phase := .idle, boundary := 0, period := 0, settle := 0, lineFree := 0, key := [], epoch := 0, txSeq := 0, newKey := none,
    staged := none, joinReqs := 0, svcq := [], joins := [], cfgWait := [], failLogged := none, wantOff := false,
    pended := false, classes := [], peerSeq := 0 }

/-- The station engine after reset. -/
def StnSt.reset : StnSt := { segs := List.replicate 20 SegSt.empty, ctxs := [], fails := [], locks := [] }

/-- No metering configuration. -/
def MetCfg.reset : MetCfg :=
  { chans := [], sets := [], meters := [], cal := [], tables := [], tariff := none, pulses := [] }

/-- A metering channel that has counted nothing (R400, fourth case). [DESIGN CHOICE, log entry 2] -/
def MetCh.empty : MetCh :=
  { acc := List.replicate 8 0, tot := List.replicate 8 0, flags := 0, bound := 0, writing := none, samples := [],
    blocks := [], base := none, cntF := 0, cntR := 0, pair := none, winFrom := 0, winEnd := 0, wflags := 0, fault := 0,
    clips := 0, high := 0, mark := 0, held := List.replicate 8 0, demand := 0, demEnd := 0, demWhole := false,
    demDone := [] }

/-- An analog channel before its first sample. [DESIGN CHOICE, log entry 2] -/
def AnCh.empty : AnCh :=
  { rail := false, clip := false, peakLog := none, isOver := false, sq := 0, hist := [], hcSq := 0, hcN := 0,
    pos := false }

/-- The metering engine before any restore. [DESIGN CHOICE, log entry 4] -/
def MetSt.reset : MetSt :=
  { epoch := none, frozen := false, waits := false, restored := false, chs := [], analog := List.replicate 32 AnCh.empty, hist := [],
    blkFrom := 0, blkTo := 0, blkN := 0, vi := List.replicate 32 0, viHist := List.replicate 32 [], chans := [],
    sets := [], cal := [], grid := none, ends := [], resetMax := none, snap := [], closeQ := [],
    pulses := List.replicate 16 ⟨0, 0, 0, 0, false⟩ }

/-- The redundancy block after reset: SILENT, no peer heard. -/
def RedSt.reset : RedSt :=
  { deciding := false, linkOnAt := 0, standbyDue := false, silentInd := false, leaving := false, peerSynced := false,
    peerId := 0, missed := 0, firstMiss := 0, heard := false, peerCommit := none, gapFrom := none, gapOpen := false,
    takeover := none, claimDue := none, blockLogged := false, copied := [], copiedMode := 0, syncFrom := 0, dirty := [],
    taskDirty := [], sent := [], handover := none, finalDone := [], active := [], training := none }

/-- A new part's ledger. -/
def Ledger.reset : Ledger := { equiv := 0, powered := 0, cycles := 0, written := 0 }

/-- No spare used: the groups of R589. -/
def SpareMaps.reset : SpareMaps :=
  { used := [[0, 0], [0, 0, 0, 0], [0, 0], [0, 0, 0, 0, 0, 0, 0, 0], [0], [0, 0, 0, 0], [0], [0]], retired := [], units := [] }

/-- Health after reset: the ledger of a new part, counters 0, no window yet. -/
def HltSt.reset : HltSt :=
  { ledger := Ledger.reset, maps := SpareMaps.reset, fromDefault := false, sampleRaw := 0, tickRaw := 0, ledgerRaw := 0,
    due := [], checks := [], noSpare := [], dead := [], rows := [], rowHist := [], scrubbed := [],
    perf := List.replicate 64 0, perfAt := 0, bwRx := List.replicate 21 0, bwTx := List.replicate 21 0, bwLen := 1000,
    bwIx := 0, bwPartial := true, bwHeld := (0, 1000) }

/-- An empty descriptor slot. [DESIGN CHOICE, log entry 2] -/
def DescSlot.empty : DescSlot :=
  { cur := none, old := [], emptying := false, last := [], tail := none, substLog := none, pivotLog := none }

/-- The lanes of a new engine: 0 to 63 in service, 64 to 71 spare. -/
def LaneMap.reset : LaneMap := { inUse := List.range 64, faulty := [] }

/-- The solver after reset: every engine OFF, nothing loaded. -/
def SolvSt.reset : SolvSt :=
  { slots := List.replicate 16 DescSlot.empty, jobs := [], ahead := [], uses := List.replicate 64 0, nextOrder := 1,
    nextVer := 1, load := none, restoreDue := false, applied := [], results := [], psub := [], lanes := List.replicate 4 LaneMap.reset, laneDue := [],
    disableWaiting := 0, startPending := 0, localUsed := 0, hidden := [] }

/-- A channel with nothing queued. [DESIGN CHOICE, log entry 2] -/
def CanCh.empty : CanCh :=
  { tx := [], tec := 0, rec_ := 0, recAuto := false, pendStart := false, offers := [], refSeq := 0, refDue := 0,
    lastRef := none, lastPair := 0, rxSeq := 0, ovSince := 0, ovLogged := none }

/-- The CAN channels after reset. -/
def CanSt.reset : CanSt := { chs := List.replicate 4 CanCh.empty, lvb := [], psend := [] }

/-- The persistent configuration of a new part: every default. [DESIGN CHOICE, log entry 4] -/
def Nv.reset : Nv :=
  { regs := [], bootSel := none, ptp := PtpCfg.reset, endorsement := [], activeSlot := 0, segs := [], segOn := 0,
    adms := [], tokens := [], met := MetCfg.reset,
    ledger := Ledger.reset, maps := SpareMaps.reset, lanes := List.replicate 4 LaneMap.reset }

/-- The block at the release of the internal power-on reset (t0 of R129).
[DESIGN CHOICE, log entries 2, 4; DEDUCED, log entry 3] -/
def State.reset : State :=
  { pending := [], regs := [], mem := [], poison := [], weak := [], flash := [], descArea := [], out := [], draws := 0, host := HostSt.reset, evr := EvrSt.reset,
    pwr := PwrSt.reset, xing := XingSt.reset, net := NetSt.reset, time := TimeSt.reset, rtc := RtcSt.reset,
    key := KeySt.reset, cores := coresReset, cyc := CycSt.reset, stn := StnSt.reset, met := MetSt.reset,
    solv := SolvSt.reset, can := CanSt.reset, red := RedSt.reset, hlt := HltSt.reset, nv := Nv.reset, nvNext := Nv.reset }

end Sys2Proof.Machine
end

