-- ==== Sys2Proof/Machine/Codes.lean ====
section
/-! DEFINITION. The numbers of status codes (R123), event codes with their severities (R84, R124, R152, R569 and the event
table of every chapter) and opcodes (R120). -/

namespace Sys2Proof.Machine

/-- The status code of a status (R123). -/
def Status.code : Status → Nat
  | .ok => 0x0000
  | .pending => 0x0001
  | .busy => 0x0002
  | .solvBestEffort => 0x0401
  | .solvFallback => 0x0402
  | .badOpcode => 0x8001
  | .badLength => 0x8002
  | .badFlags => 0x8003
  | .badParam => 0x8004
  | .sessionStale => 0x8005
  | .deadline => 0x8006
  | .domainOff => 0x8007
  | .chainBroken => 0x8008
  | .authRequired => 0x8009
  | .authFail => 0x800A
  | .authReplay => 0x800B
  | .authSlot => 0x800C
  | .authLockout => 0x800D
  | .bufFault => 0x800E
  | .locked => 0x800F
  | .role => 0x8010
  | .mode => 0x8011
  | .aborted => 0x8012
  | .duplicate => 0x8013
  | .internal => 0x8014
  | .fwSignature => 0x8101
  | .fwBank => 0x8102
  | .noDdr => 0x8103
  | .forceConflict => 0x8201
  | .changeTimeout => 0x8202
  | .imageInvalid => 0x8203
  | .imageTooLarge => 0x8204
  | .forceFull => 0x8205
  | .symbolUnknown => 0x8206
  | .changeActive => 0x8207
  | .stationUnknown => 0x8301
  | .segmentFull => 0x8302
  | .tokenInvalid => 0x8303
  | .solvNumeric => 0x8401
  | .solvDescriptor => 0x8402
  | .solvSize => 0x8403
  | .solvCancelled => 0x8404
  | .calInvalid => 0x8501
  | .meterUnknown => 0x8502
  | .tableInvalid => 0x8503
  | .saFull => 0x8601
  | .portInvalid => 0x8602
  | .timeStepRefused => 0x8603
  | .dateInvalid => 0x8701
  | .alarmInvalid => 0x8702
  | .idClash => 0x8801
  | .busOff => 0x8802
  | .canAborted => 0x8803
  | .slotEmpty => 0x8901
  | .slotUsage => 0x8902
  | .slotOccupied => 0x8903
  | .unwrapFail => 0x8904
  | .tampered => 0x8905
  | .peerAbsent => 0x8A01
  | .linkDown => 0x8A02
  | .logFrozen => 0x8B01
  | .recordNone => 0x8B02
  | .noSpare => 0x8C01
  | .counterInvalid => 0x8C02

/-- Codes 0x8000 and above are errors (R123). -/
def Status.isError (s : Status) : Bool := decide (0x8000 ≤ s.code)

/-! Event codes. -/
namespace Ev

abbrev SYS_START : Nat := 0x0110
abbrev SYS_FW_FALLBACK : Nat := 0x0111
abbrev SYS_ROOT_NEW : Nat := 0x0112
abbrev SYS_CONFIG_DEFAULT : Nat := 0x0113
abbrev SYS_LOG_REPAIRED : Nat := 0x0114
abbrev SYS_DOMAIN_ON : Nat := 0x0115
abbrev SYS_DOMAIN_OFF : Nat := 0x0116
abbrev SYS_DOMAIN_ENABLE_CANCELLED : Nat := 0x0117
abbrev SYS_DOMAIN_FAULT : Nat := 0x0118
abbrev SYS_PFW : Nat := 0x0119
abbrev SYS_PFW_RECOVERED : Nat := 0x011A
abbrev SYS_MGT_RESET : Nat := 0x011B
abbrev SYS_ACCESS_FAULT : Nat := 0x0120
abbrev XING_RESYNC : Nat := 0x0140
abbrev XING_BLOCK_TIMEOUT : Nat := 0x0141
abbrev XING_ACK_WITHHELD : Nat := 0x0142
abbrev CMD_RING_ERROR : Nat := 0x0150
abbrev CMD_AUTH_FAIL : Nat := 0x0151
abbrev CMD_AUTH_LOCKOUT : Nat := 0x0152
abbrev CMD_AUTHORISED : Nat := 0x0153
abbrev CMD_ETH_DROP : Nat := 0x0154
abbrev CMD_INTERNAL : Nat := 0x0155
abbrev LC_TASK_FAULT : Nat := 0x0160
abbrev LC_HOLDPT : Nat := 0x0161
abbrev LC_MACHINE_CHECK : Nat := 0x0162
abbrev CYC_MODE : Nat := 0x0210
abbrev CYC_OVERRUN : Nat := 0x0211
abbrev CYC_WATCHDOG : Nat := 0x0212
abbrev CYC_TASK_STOPPED : Nat := 0x0213
abbrev CYC_FIXED : Nat := 0x0214
abbrev CYC_CHANGE_DONE : Nat := 0x0215
abbrev CYC_CHANGE_ABANDONED : Nat := 0x0216
abbrev CYC_FORCE_SET : Nat := 0x0217
abbrev CYC_FORCE_RELEASED : Nat := 0x0218
abbrev CYC_STORE_UPDATED : Nat := 0x0219
abbrev CYC_TIME_SKIP : Nat := 0x021A
abbrev CYC_OVERLAY_BAD : Nat := 0x021B
abbrev STN_ADMITTED : Nat := 0x0310
abbrev STN_REJOINED : Nat := 0x0311
abbrev STN_ABSENT : Nat := 0x0312
abbrev STN_LOST : Nat := 0x0313
abbrev STN_JOIN_FAIL : Nat := 0x0314
abbrev STN_BOXWOOD_NEEDED : Nat := 0x0315
abbrev STN_BOXWOOD_LOADED : Nat := 0x0316
abbrev STN_SEGMENT_UP : Nat := 0x0317
abbrev STN_SEGMENT_DOWN : Nat := 0x0318
abbrev STN_SEGMENT_ENABLE_CANCELLED : Nat := 0x0319
abbrev STN_REMOVED : Nat := 0x031A
abbrev SOLV_DESC_LOADED : Nat := 0x0410
abbrev SOLV_DESC_STORED : Nat := 0x0411
abbrev SOLV_DESC_UNBOUND : Nat := 0x0412
abbrev SOLV_DESC_DISCARDED : Nat := 0x0413
abbrev SOLV_BANK_WRITTEN : Nat := 0x0414
abbrev SOLV_INPUT_SUBST : Nat := 0x0415
abbrev SOLV_JOB_DONE : Nat := 0x0420
abbrev SOLV_LATE : Nat := 0x0421
abbrev SOLV_NUMERIC : Nat := 0x0422
abbrev SOLV_PIVOT_REG : Nat := 0x0423
abbrev SOLV_LANE_FAULT : Nat := 0x0424
abbrev SOLV_LANE_SPARED : Nat := 0x0425
abbrev SOLV_ENGINE_DEGRADED : Nat := 0x0426
abbrev SOLV_ENGINE_ON : Nat := 0x0427
abbrev SOLV_ENGINE_OFF : Nat := 0x0428
abbrev SOLV_ENGINE_ENABLE_CANCELLED : Nat := 0x0429
abbrev MET_SAVE : Nat := 0x0510
abbrev MET_LOSS_BOUND : Nat := 0x0511
abbrev MET_GAP : Nat := 0x0512
abbrev MET_COUNTER_JUMP : Nat := 0x0513
abbrev MET_SENSOR : Nat := 0x0514
abbrev MET_OVERCURRENT : Nat := 0x0515
abbrev MET_PEAK : Nat := 0x0516
abbrev MET_PULSE_OVERFLOW : Nat := 0x0517
abbrev MET_CAL_CHANGED : Nat := 0x0518
abbrev MET_CLOSE_INCOMPLETE : Nat := 0x0519
abbrev NET_LINK_UP : Nat := 0x0610
abbrev NET_LINK_DOWN : Nat := 0x0611
abbrev NET_SA_PN_LOW : Nat := 0x0612
abbrev NET_SA_EXHAUSTED : Nat := 0x0613
abbrev NET_SA_REMOVED : Nat := 0x0614
abbrev NET_MACSEC_DROP : Nat := 0x0615
abbrev TIME_STEP : Nat := 0x0620
abbrev TIME_LOCKED : Nat := 0x0621
abbrev TIME_UNLOCKED : Nat := 0x0622
abbrev TIME_HOLDOVER : Nat := 0x0623
abbrev TIME_FREE : Nat := 0x0624
abbrev TIME_REF_LOST : Nat := 0x0625
abbrev TIME_PARENT : Nat := 0x0626
abbrev TIME_REJECT : Nat := 0x0627
abbrev RTC_ALARM : Nat := 0x0710
abbrev RTC_SET : Nat := 0x0711
abbrev RTC_FOLLOW_STEP : Nat := 0x0712
abbrev RTC_LOST : Nat := 0x0713
abbrev RTC_UTC : Nat := 0x0714
abbrev RTC_HALT_OVF : Nat := 0x0715
abbrev RTC_AUTO_RELEASE : Nat := 0x0716
abbrev CAN_ID_CLASH : Nat := 0x0810
abbrev CAN_ERR_STATE : Nat := 0x0811
abbrev CAN_BUS_OFF : Nat := 0x0812
abbrev CAN_RECOVERED : Nat := 0x0813
abbrev CAN_RX_OVERFLOW : Nat := 0x0814
abbrev CAN_CHANNEL_UP : Nat := 0x0815
abbrev CAN_CHANNEL_DOWN : Nat := 0x0816
abbrev CAN_ENABLE_CANCELLED : Nat := 0x0817
abbrev CAN_REF_STALE : Nat := 0x0818
abbrev KEY_UPDATE_TORN : Nat := 0x0910
abbrev KEY_PURGE : Nat := 0x0911
abbrev KEY_TAMPER_ALERT : Nat := 0x0912
abbrev KEY_SEALED_MISMATCH : Nat := 0x0913
abbrev KEY_PROVISIONED : Nat := 0x0914
abbrev KEY_SLOT_CHANGED : Nat := 0x0915
abbrev KEY_TRNG_FAIL : Nat := 0x0916
abbrev KEY_BANK_DAMAGED : Nat := 0x0917
abbrev RED_ROLE : Nat := 0x0A10
abbrev RED_TAKEOVER : Nat := 0x0A11
abbrev RED_DISPLACED : Nat := 0x0A12
abbrev RED_UNSYNCED : Nat := 0x0A13
abbrev RED_SYNCED : Nat := 0x0A14
abbrev RED_TAKEOVER_BLOCKED : Nat := 0x0A15
abbrev RED_LINK_DOWN : Nat := 0x0A16
abbrev RED_LANE_SPARED : Nat := 0x0A17
abbrev RED_DEADMAN : Nat := 0x0A18
abbrev RED_CLAIM_UNKNOWN : Nat := 0x0A19
abbrev RED_SWITCH_ABANDONED : Nat := 0x0A1A
abbrev EVENTS_LOST : Nat := 0x0B10
abbrev LOG_CLEARED : Nat := 0x0B11
abbrev EVR_THAWED : Nat := 0x0B12
abbrev EVR_CONFIG : Nat := 0x0B13
abbrev EVR_INPUT : Nat := 0x0B20
abbrev HLT_SPARED : Nat := 0x0C10
abbrev HLT_NO_SPARE : Nat := 0x0C11
abbrev HLT_RETIRE_DUE : Nat := 0x0C12
abbrev HLT_BRING_IN_WAIT : Nat := 0x0C13
abbrev HLT_RESERVE : Nat := 0x0C14
abbrev HLT_ECC_UNCORR : Nat := 0x0C15
abbrev HLT_LEDGER : Nat := 0x0C16

end Ev

/-- The fixed severity of an event code (R569, R609). -/
def severity (code : Nat) : Nat :=
  if code = 0x0911 ∨ code = 0x0A18 then 7
  else if code = 0x0118 ∨ code = 0x0160 ∨ (0x0212 ≤ code ∧ code ≤ 0x0213) ∨ code = 0x0426 ∨ code = 0x0511 ∨ code = 0x0812 ∨ code = 0x0912 ∨ (0x0916 ≤ code ∧ code ≤ 0x0917) ∨ (0x0A11 ≤ code ∧ code ≤ 0x0A12) ∨ code = 0x0A15 ∨ code = 0x0B10 ∨ code = 0x0C11 then 6
  else if (0x0111 ≤ code ∧ code ≤ 0x0113) ∨ code = 0x011B ∨ code = 0x0141 ∨ code = 0x0152 ∨ code = 0x0155 ∨ code = 0x0162 ∨ code = 0x0214 ∨ code = 0x021B ∨ (0x0412 ≤ code ∧ code ≤ 0x0413) ∨ code = 0x0422 ∨ code = 0x0515 ∨ code = 0x0613 ∨ code = 0x0625 ∨ code = 0x0713 ∨ code = 0x0810 ∨ code = 0x0910 ∨ code = 0x0913 ∨ code = 0x0A16 ∨ code = 0x0A19 ∨ code = 0x0B11 ∨ code = 0x0C15 then 5
  else if code = 0x0114 ∨ code = 0x0119 ∨ code = 0x0120 ∨ code = 0x0140 ∨ code = 0x0142 ∨ (0x0150 ≤ code ∧ code ≤ 0x0151) ∨ code = 0x0211 ∨ code = 0x0216 ∨ code = 0x021A ∨ (0x0312 ≤ code ∧ code ≤ 0x0315) ∨ (0x0414 ≤ code ∧ code ≤ 0x0415) ∨ code = 0x0421 ∨ code = 0x0424 ∨ (0x0512 ≤ code ∧ code ≤ 0x0514) ∨ (0x0516 ≤ code ∧ code ≤ 0x0517) ∨ (0x0611 ≤ code ∧ code ≤ 0x0612) ∨ code = 0x0615 ∨ code = 0x0620 ∨ (0x0622 ≤ code ∧ code ≤ 0x0624) ∨ code = 0x0712 ∨ (0x0715 ≤ code ∧ code ≤ 0x0716) ∨ code = 0x0811 ∨ code = 0x0814 ∨ code = 0x0818 ∨ code = 0x0A10 ∨ code = 0x0A13 ∨ code = 0x0A1A ∨ (0x0C12 ≤ code ∧ code ≤ 0x0C14) then 4
  else if code = 0x0110 ∨ code = 0x011A ∨ code = 0x0154 ∨ code = 0x0161 ∨ code = 0x0210 ∨ code = 0x0215 ∨ (0x0217 ≤ code ∧ code ≤ 0x0218) ∨ code = 0x0318 ∨ code = 0x031A ∨ code = 0x0423 ∨ code = 0x0425 ∨ code = 0x0510 ∨ (0x0518 ≤ code ∧ code ≤ 0x0519) ∨ code = 0x0614 ∨ (0x0626 ≤ code ∧ code ≤ 0x0627) ∨ code = 0x0711 ∨ code = 0x0714 ∨ code = 0x0813 ∨ (0x0914 ≤ code ∧ code ≤ 0x0915) ∨ code = 0x0A17 ∨ (0x0B12 ≤ code ∧ code ≤ 0x0B13) ∨ code = 0x0C10 ∨ code = 0x0C16 then 3
  else if (0x0115 ≤ code ∧ code ≤ 0x0117) ∨ code = 0x0153 ∨ code = 0x0219 ∨ (0x0310 ≤ code ∧ code ≤ 0x0311) ∨ (0x0316 ≤ code ∧ code ≤ 0x0317) ∨ code = 0x0319 ∨ code = 0x0410 ∨ (0x0427 ≤ code ∧ code ≤ 0x0429) ∨ code = 0x0610 ∨ code = 0x0621 ∨ code = 0x0710 ∨ (0x0815 ≤ code ∧ code ≤ 0x0817) ∨ code = 0x0A14 ∨ code = 0x0B20 then 2
  else if code = 0x0411 ∨ code = 0x0420 then 1
  else 0

/-! Opcodes. -/
namespace Op

abbrev SYS_NOP : Nat := 0x0100
abbrev SYS_HELLO : Nat := 0x0101
abbrev SYS_GET_INFO : Nat := 0x0102
abbrev SYS_READ : Nat := 0x0103
abbrev SYS_WRITE : Nat := 0x0104
abbrev SYS_DOMAIN_ENABLE : Nat := 0x0105
abbrev SYS_DOMAIN_DISABLE : Nat := 0x0106
abbrev SYS_DOMAIN_STATUS : Nat := 0x0107
abbrev SYS_RESET : Nat := 0x0108
abbrev SYS_FW_WRITE : Nat := 0x0109
abbrev SYS_FW_ACTIVATE : Nat := 0x010A
abbrev SYS_LOCK : Nat := 0x010B
abbrev CYC_LOAD_PROGRAM : Nat := 0x0200
abbrev CYC_START : Nat := 0x0201
abbrev CYC_STOP : Nat := 0x0202
abbrev CYC_HOLD : Nat := 0x0203
abbrev CYC_STATUS : Nat := 0x0204
abbrev CYC_TASK_CONFIG : Nat := 0x0205
abbrev CYC_FORCE_SET : Nat := 0x0206
abbrev CYC_FORCE_RELEASE : Nat := 0x0207
abbrev CYC_FORCE_LIST : Nat := 0x0208
abbrev CYC_CHANGE_LOAD : Nat := 0x0209
abbrev CYC_CHANGE_APPLY : Nat := 0x020A
abbrev CYC_CHANGE_VALUES : Nat := 0x020B
abbrev CYC_CHANGE_CANCEL : Nat := 0x020C
abbrev CYC_READ_SIGNALS : Nat := 0x020D
abbrev CYC_WRITE_SIGNALS : Nat := 0x020E
abbrev STN_SEGMENT_CONFIG : Nat := 0x0300
abbrev STN_SEGMENT_ENABLE : Nat := 0x0301
abbrev STN_SEGMENT_DISABLE : Nat := 0x0302
abbrev STN_ADMIT : Nat := 0x0303
abbrev STN_REMOVE : Nat := 0x0304
abbrev STN_TOKEN_ISSUE : Nat := 0x0305
abbrev STN_BOXWOOD_SET : Nat := 0x0306
abbrev STN_STATUS : Nat := 0x0307
abbrev STN_LIST : Nat := 0x0308
abbrev SOLV_DESCRIPTOR_LOAD : Nat := 0x0400
abbrev SOLV_SUBMIT : Nat := 0x0401
abbrev SOLV_CANCEL : Nat := 0x0402
abbrev SOLV_STATUS : Nat := 0x0403
abbrev SOLV_RESULT_READ : Nat := 0x0404
abbrev SOLV_ENGINE_ENABLE : Nat := 0x0405
abbrev SOLV_ENGINE_DISABLE : Nat := 0x0406
abbrev MET_CHANNEL_CONFIG : Nat := 0x0500
abbrev MET_METER_CONFIG : Nat := 0x0501
abbrev MET_USER_CAL_WRITE : Nat := 0x0502
abbrev MET_MEDIUM_TABLE_WRITE : Nat := 0x0503
abbrev MET_TARIFF_CONFIG : Nat := 0x0504
abbrev MET_PULSE_CONFIG : Nat := 0x0505
abbrev MET_READ_TOTALS : Nat := 0x0506
abbrev MET_READ_INTERVAL : Nat := 0x0507
abbrev NET_PORT_CONFIG : Nat := 0x0600
abbrev NET_VLAN_CONFIG : Nat := 0x0601
abbrev NET_SA_INSTALL : Nat := 0x0602
abbrev NET_SA_REMOVE : Nat := 0x0603
abbrev NET_PORT_STATUS : Nat := 0x0604
abbrev TIME_CONFIG : Nat := 0x0605
abbrev TIME_STATUS : Nat := 0x0606
abbrev TIME_STEP : Nat := 0x0607
abbrev RTC_READ : Nat := 0x0700
abbrev RTC_SET_CALENDAR : Nat := 0x0701
abbrev RTC_SET_COUNT : Nat := 0x0702
abbrev RTC_HALT : Nat := 0x0703
abbrev RTC_RELEASE : Nat := 0x0704
abbrev RTC_ALARM_SET : Nat := 0x0705
abbrev RTC_ALARM_CLEAR : Nat := 0x0706
abbrev RTC_SET_WEEKDAY : Nat := 0x0707
abbrev RTC_UTC_OFFSET : Nat := 0x0708
abbrev CAN_CONFIG : Nat := 0x0800
abbrev CAN_ENABLE : Nat := 0x0801
abbrev CAN_DISABLE : Nat := 0x0802
abbrev CAN_SEND : Nat := 0x0803
abbrev CAN_ABORT : Nat := 0x0804
abbrev CAN_RECOVER : Nat := 0x0805
abbrev CAN_STATUS : Nat := 0x0806
abbrev KEY_LOAD : Nat := 0x0900
abbrev KEY_GENERATE : Nat := 0x0901
abbrev KEY_DERIVE : Nat := 0x0902
abbrev KEY_DELETE : Nat := 0x0903
abbrev KEY_EXPORT_WRAPPED : Nat := 0x0904
abbrev KEY_CRYPT : Nat := 0x0905
abbrev KEY_ATTEST : Nat := 0x0906
abbrev KEY_SLOT_INFO : Nat := 0x0907
abbrev RED_CONFIG : Nat := 0x0A00
abbrev RED_JOIN : Nat := 0x0A01
abbrev RED_LEAVE : Nat := 0x0A02
abbrev RED_MAINTENANCE : Nat := 0x0A03
abbrev RED_SWITCHOVER : Nat := 0x0A04
abbrev RED_STATUS : Nat := 0x0A05
abbrev EVR_READ_SEQ : Nat := 0x0B00
abbrev EVR_READ_TIME : Nat := 0x0B01
abbrev EVR_FREEZE : Nat := 0x0B02
abbrev EVR_THAW : Nat := 0x0B03
abbrev EVR_CLEAR : Nat := 0x0B04
abbrev EVR_CONFIG : Nat := 0x0B05
abbrev EVR_STATUS : Nat := 0x0B06
abbrev HLT_LEDGER : Nat := 0x0C00
abbrev HLT_SENSORS : Nat := 0x0C01
abbrev HLT_SPARE_BRING_IN : Nat := 0x0C02
abbrev HLT_PERF_CONFIG : Nat := 0x0C03
abbrev HLT_PERF_READ : Nat := 0x0C04
abbrev HLT_BANDWIDTH : Nat := 0x0C05

end Op

end Sys2Proof.Machine
end

