-- ==== Sys2Proof/Machine/Ops.lean ====
section
/-! DEFINITION. The named operations over registers, memories, outputs, time and events that every meaning uses. -/

namespace Sys2Proof.Machine

/-- The outcome of a command: always a next state of the block. -/
abbrev Res := Host.Outcome State Fault Refusal

namespace State

/-! ### Registers -/

/-- The stored value of the register at an address (R10); registers computed from other state are read by `regView`. -/
def reg (s : State) (a : Nat) : Word := cget regReset s.regs a

/-- Stores a register value. -/
def setReg (a : Nat) (v : Word) (s : State) : State := { s with regs := cput regReset s.regs a v }

/-- Changes a register. -/
def modReg (a : Nat) (f : Word → Word) (s : State) : State := s.setReg a (f (s.reg a))

/-- The bits `[hi:lo]` of a register. -/
def regField (s : State) (a hi lo : Nat) : Nat := field (s.reg a) hi lo

/-- Replaces the bits `[hi:lo]` of a register. -/
def setRegField (a hi lo v : Nat) (s : State) : State := s.modReg a (setField · hi lo v)

/-- Bit `i` of a register. -/
def regBit (s : State) (a i : Nat) : Bool := bit (s.reg a) i

/-- Sets or clears bit `i` of a register. -/
def setRegBit (a i : Nat) (b : Bool) (s : State) : State := s.modReg a (setBit · i b)

/-- Adds to a counter that saturates at all ones. -/
def bump (a k : Nat) (s : State) : State := s.modReg a (satAdd · k)

/-- Adds to a counter that saturates at 65,535 (its upper half is reserved). -/
def bump16 (a k : Nat) (s : State) : State :=
  s.modReg a fun w => BitVec.ofNat 32 (satTo 16 (w.toNat + k))

/-- Raises a register to a value if it lies below (the maxima of R13). -/
def regMax (a v : Nat) (s : State) : State :=
  if (s.reg a).toNat < v then s.setReg a (BitVec.ofNat 32 v) else s

/-- The 64-bit value of a `_LO`, `_HI` pair. -/
def reg64 (s : State) (lo hi : Nat) : Nat := (s.reg lo).toNat + 2 ^ 32 * (s.reg hi).toNat

/-- Stores a `_LO`, `_HI` pair. -/
def setReg64 (lo hi v : Nat) (s : State) : State :=
  (s.setReg lo (BitVec.ofNat 32 v)).setReg hi (BitVec.ofNat 32 (v / 2 ^ 32))

/-- The key of what an initiator or channel holds or has latched for a register (R16, R17). -/
def holdKey (who a : Nat) : Nat := who * 2 ^ 41 + a

/-- The word that an initiator wrote to a `_LO` register and holds there (R17). -/
def heldLo (s : State) (who a : Nat) : Word := (tget s.host.heldLo (holdKey who a)).getD 0

/-- The held word of a `_LO` register has been applied (R17). -/
def dropHeld (who a : Nat) (s : State) : State :=
  { s with host := { s.host with heldLo := tdel s.host.heldLo (holdKey who a) } }

/-! ### Memories -/

/-- One byte of the addressed memories; an unlisted byte is 0. [DESIGN CHOICE, log entry 5] -/
def byteAt (s : State) (a : Nat) : Byte := cget (fun _ => 0) s.mem a

/-- The granules written since the last state copy, with one more: kept while the unit is PRIMARY (R514). -/
def withGranule (s : State) (a : Nat) : List Nat :=
  if s.regField R.RED_ROLE 2 0 = 1 ∧ !s.red.dirty.contains (a / 256) then a / 256 :: s.red.dirty else s.red.dirty

/-- Stores one byte; a word with an uncorrectable error is good again once written (R596). -/
def setByte (a : Nat) (b : Byte) (s : State) : State :=
  { s with mem := cput (fun _ => 0) s.mem a b, poison := s.poison.filter (· != a / 8 * 8),
           weak := s.weak.filter (· != a / 8 * 8),
           red := { s.red with dirty := s.withGranule a } }

/-- Stores bytes from an address on. -/
def setBytes (a : Nat) : List Byte → State → State
  | [], s => s
  | b :: bs, s => setBytes (a + 1) bs (s.setByte a b)

/-- `n` bytes from an address. -/
def bytesAt (s : State) (a : Nat) : Nat → List Byte
  | 0 => []
  | n + 1 => s.byteAt a :: s.bytesAt (a + 1) n

/-- The little-endian number of `n` bytes at an address (R9). -/
def numAt (s : State) (a n : Nat) : Nat := leNat (s.bytesAt a n)

/-- Stores the `n` low bytes of a number, little-endian (R9). -/
def setNum (a n v : Nat) (s : State) : State := s.setBytes a (leBytes n v)

/-- Clears every byte of `[lo, hi)`. -/
def clearMem (lo hi : Nat) (s : State) : State :=
  { s with mem := s.mem.filter fun c => decide (c.1 < lo ∨ hi ≤ c.1),
           poison := s.poison.filter fun a => decide (a < lo ∨ hi ≤ a),
           weak := s.weak.filter fun a => decide (a < lo ∨ hi ≤ a) }

/-- One byte of the flash; an unlisted byte is erased. [DEDUCED, log entry 6] -/
def flashAt (s : State) (a : Nat) : Byte := cget (fun _ => 0xFF) s.flash a

/-- `n` bytes of the flash. -/
def flashBytes (s : State) (a : Nat) : Nat → List Byte
  | 0 => []
  | n + 1 => s.flashAt a :: s.flashBytes (a + 1) n

/-- Programs bytes of the flash. [DEDUCED, log entry 6] -/
def setFlash (a : Nat) : List Byte → State → State
  | [], s => s
  | b :: bs, s => setFlash (a + 1) bs { s with flash := cput (fun _ => 0xFF) s.flash a b }

/-- Erases `[lo, hi)` of the flash. -/
def eraseFlash (lo hi : Nat) (s : State) : State :=
  { s with flash := s.flash.filter fun c => decide (c.1 < lo ∨ hi ≤ c.1) }

/-! ### Free values -/

/-- Draws a fresh value that the spec leaves open; `tag` names the place. [DESIGN CHOICE, log entry 13] -/
def draw (tag : Nat) (s : State) : Nat × State :=
  (Config.freeValue tag s.draws, { s with draws := s.draws + 1 })

/-- `n / d` rounded to one of the two nearest integers; where the quotient is not whole the spec leaves the choice
open, and it is a free value. [DESIGN CHOICE, log entry 14] -/
def roundFree (tag : Nat) (n : Int) (d : Nat) (s : State) : Int × State :=
  let up := s.draw tag
  (n / (d : Int) + (if n % (d : Int) = 0 then 0 else up.1 % 2 : Nat), if n % (d : Int) = 0 then s else up.2)

/-! ### Outputs -/

/-- Sends something out. -/
def emit (o : Out) (s : State) : State := { s with out := o :: s.out }

/-- Crossing `n` is blocked for resynchronisation: no traffic passes it in either direction (R79).
[DEDUCED, log entry 53] -/
def crossBlocked (s : State) (n : Nat) : Bool := s.regBit R.XING_RESYNC_STATUS n

/-- A write to host memory or an MSI-X message, held while Bus Master Enable is 0 (R95) or crossing 0 is blocked (R79). -/
def emitHost (o : Out) (s : State) : State :=
  if s.host.bme && !s.crossBlocked 0 then s.emit o else { s with host := { s.host with held := s.host.held ++ [o] } }

/-- The held writes are made once nothing holds them: Bus Master Enable is 1 and crossing 0 is open (R79, R95). A
commanded reset whose status entry waited follows 1 ms later (R144). -/
def releaseHeld (s : State) : State :=
  if s.host.bme && !s.crossBlocked 0 then
    let s : State := match s.pwr.resetDue with
      | some (_, kind) =>
        if s.pwr.resetWaits then
          { s with pwr := { s.pwr with resetDue := some (s.time.raw + 250000, kind), resetWaits := false } }
        else s
      | none => s
    s.host.held.foldl (fun s o => s.emit o) { s with host := { s.host with held := [] } }
  else s

/-! ### Device time -/

/-- RATE, a signed count of units of 2^-40 (R431). -/
def rate (s : State) : Int := (s.reg R.TIME_RATE).toInt

/-- T in units of 2^-64 s × 250,000,000: the exact model value of R431. -/
def exactTime (s : State) : Nat :=
  (s.time.tb * 250000000 + (((s.time.raw - s.time.cb) * 2 ^ 24 : Nat) : Int) * (2 ^ 40 + s.rate)).toNat

/-- Device time now, rounded down to 2^-32 s (R431). -/
def now (s : State) : Instant := s.exactTime / (250000000 * 2 ^ 32)

/-- Device-time seconds now. -/
def nowSec (s : State) : Nat := s.now / 2 ^ 32

/-- The raw count now: durations inside the controller are taken from it (R448). -/
def raw (s : State) : Nat := s.time.raw

/-- One CK_PTP period passes: the raw count rises by one (R430). [DESIGN CHOICE, log entry 1] -/
def tick (s : State) : State := { s with time := { s.time with raw := s.time.raw + 1 } }

/-- Raw counts of a number of microseconds: CK_PTP is 250 MHz (R43). -/
def rawUs (us : Nat) : Nat := 250 * us

/-! ### Addresses (R414) -/

/-- The fused base MAC address: a multiple of 32. [DESIGN CHOICE, log entry 8] -/
def baseMac : Nat := Config.fuseMac % 2 ^ 43 * 32

/-- Installed DDR in bytes (R36). -/
def ddrSize (s : State) : Nat := s.regField R.SYS_MEMCFG 4 0 * 2 ^ 30

/-! ### Power domains -/

/-- State of switched domain `k`: 0 OFF, 1 STARTING, 2 ON, 3 STOPPING (R148). -/
def domState (s : State) (k : Nat) : Nat := s.regField R.SYS_DOMAIN_STATE (2 * k + 1) (2 * k)

/-- Domain `k` is ON. -/
def domOn (s : State) (k : Nat) : Bool := s.domState k == 2

/-- The boot phase (R151). -/
def phase (s : State) : Nat := s.regField R.SYS_BOOT_STATUS 3 0

/-- The persistent configuration changes, at once or when the FeRAM hold ends (R127). -/
def updNv (f : Nv → Nv) (s : State) : State :=
  let n := f s.nvNext
  { s with nvNext := n, nv := if s.pwr.feramHold then s.nv else n }

/-- A register's value goes to persistent configuration. -/
def nvReg (a : Nat) (s : State) : State := s.updNv fun n => { n with regs := tput n.regs a (s.reg a) }

end State

/-! ### Events (R570 to R572) -/

/-- Sources that are no initiator (R568). -/
abbrev srcSec : Nat := 0x20
abbrev srcTime : Nat := 0x21
abbrev srcCan : Nat := 0x22
abbrev srcRtc : Nat := 0x23
abbrev srcTamper : Nat := 0x24
abbrev srcXing : Nat := 0x25
abbrev srcPower : Nat := 0x26
/-- The initiators that report: management core, supervisor, host command engine, cycle, station and metering engine,
event recorder, redundancy block (R52). -/
abbrev srcMgt : Nat := 18
abbrev srcSup : Nat := 19
abbrev srcHost : Nat := 24
abbrev srcCyc : Nat := 26
abbrev srcStn : Nat := 27
abbrev srcMet : Nat := 28
abbrev srcEvr : Nat := 29
abbrev srcRed : Nat := 30
/-- The switch reports through its internal port, initiator 31. -/
abbrev srcNet : Nat := 31

/-- An entry merges into a holder when code, source and parameters agree and its stamp is less than the window after
the holder's (R571); an event of the compatibility handshake is never merged with the next (R76). -/
def QEntry.mergesInto (e h : QEntry) (window : Instant) : Bool :=
  window != 0 && !e.alone && !h.alone && e.code == h.code && e.source == h.source && e.a == h.a && e.b == h.b &&
    decide (e.stamp < h.stamp + window)

/-- The flags byte of a record or entry with one flag bit set (R564). -/
def QEntry.withFlag (i : Nat) (e : QEntry) : QEntry := { e with sevFlags := setBit e.sevFlags i true }

/-- The severity of an entry. -/
def QEntry.sev (e : QEntry) : Nat := field e.sevFlags 2 0

/-- The CRC field of an entry with a sequence: CRC-16 over the record with its own bytes zero (R563, R565). -/
def recordBytes (r : LogRec) : List Byte :=
  let front := instantBytes r.ev.stamp ++ leBytes 4 r.seq.toNat ++ leBytes 2 r.ev.code.toNat ++ [r.ev.source] ++
    [r.ev.sevFlags] ++ leBytes 2 r.ev.rep.toNat
  let back := leBytes 4 r.ev.a.toNat ++ leBytes 4 r.ev.b.toNat
  front ++ leBytes 2 (crc16 (front ++ zeros 2 ++ back)).toNat ++ back

/-- The last packet number of an SA (R429). -/
def Sa.lastPn (a : Sa) : Nat := if a.xpn then 2 ^ 64 - 1 else 2 ^ 32 - 1
/-- The secure channel of an SA: its port and SCI (R425, R426). -/
def Sa.channel (a : Sa) : Nat := 32 * a.sci + a.port
/-- The packet number at which EV_NET_SA_PN_LOW is logged (R429). -/
def Sa.lowPn (a : Sa) : Nat := if a.xpn then 2 ^ 62 else 0xC0000000

namespace State

/-- The repeat window of R571. -/
def repeatWindow (s : State) : Instant := usToUnits (1000 * s.regField R.EVR_CONFIG 15 0)

/-- The log is frozen (R577). -/
def frozen (s : State) : Bool := s.regField R.EVR_STATUS 1 0 == 1

/-- The recorder may write to the log: not frozen, not held by a power fail, and restored (R138, R574, R577).
[DEDUCED, log entry 127] -/
def logWritable (s : State) : Bool := !s.frozen && !s.pwr.feramHold && s.evr.restored

/-- The slot and record with the newest sequence. -/
def newestRec (s : State) : Option (Nat × LogRec) :=
  s.evr.log.find? fun p => p.2.seq == s.reg R.EVR_SEQ_NEWEST

/-- Counts one merge and adds to the newest record's repeat count (R571). [DEDUCED, log entry 127] -/
def mergeNewest (slot k : Nat) (s : State) : State :=
  { s with evr := { s.evr with log := tmod (fun r : LogRec => { r with ev := { r.ev with rep := satAdd r.ev.rep k } })
                                          s.evr.log slot } }.bump R.EVR_REPEATS 1

/-- An event with a given stamp is discarded, merged, queued or lost (R570 to R572). -/
def raiseAt (stamp : Instant) (src code a b : Nat) (s : State) : State :=
  let sev := severity code
  if sev < s.regField R.EVR_CONFIG 18 16 then s
  else
    let unlocked := s.regField R.TIME_STATE 1 0 != 2
    let e : QEntry :=
      { stamp := stamp, code := BitVec.ofNat 16 code, source := BitVec.ofNat 8 src,
        sevFlags := setBit (setBit (setBit (BitVec.ofNat 8 sev) 3 unlocked) 4 (!s.evr.restored)) 6 s.frozen,
        rep := 0, a := BitVec.ofNat 32 a, b := BitVec.ofNat 32 b, alone := false }
    match s.evr.queue.getLast? with
    | some h =>
      if e.mergesInto h s.repeatWindow then
        { s with evr := { s.evr with queue := s.evr.queue.dropLast ++ [{ h with rep := satAdd h.rep 1 }] } }.bump
          R.EVR_REPEATS 1
      else enqueueEvent e s
    | none =>
      match s.newestRec with
      | some (slot, r) =>
        if s.logWritable && e.mergesInto r.ev s.repeatWindow then s.mergeNewest slot 1 else enqueueEvent e s
      | none => enqueueEvent e s
where
  /-- Takes a queue entry the event may use, or loses it (R570, R572). -/
  enqueueEvent (e : QEntry) (s : State) : State :=
    let n := s.evr.queue.length
    if n < 240 ∨ (6 ≤ e.sev ∧ n < 256) then
      { s with evr := { s.evr with queue := s.evr.queue ++ [e] } }.regMax R.EVR_QUEUE_PEAK (n + 1)
    else
      let s := { s with evr := { s.evr with firstLost := s.evr.firstLost.or (some e.stamp) } }
      (s.bump R.EVR_LOST_PENDING 1).bump R.EVR_LOST_TOTAL 1

/-- An event stamped now (R567). -/
def raise (src code a b : Nat) (s : State) : State := s.raiseAt s.now src code a b

/-- EV_SYS_ACCESS_FAULT for an access of an initiator (R34, R568, R569). -/
def accessFault (ini a : Nat) (s : State) : State :=
  s.raise ini Ev.SYS_ACCESS_FAULT (a % 2 ^ 32) (ini + 2 ^ 8 * (a / 2 ^ 32 % 2 ^ 8))

/-! ### Performance counters (R602, R603) -/

/-- Adds to counter `i`: a wrap at 2^48 counts in the next counter if that one is chained, and sets the overflow bit
otherwise. -/
def perfAdd : Nat → Nat → Nat → State → State
  | 0, _, _, s => s
  | fuel + 1, i, k, s =>
    let v := nth 0 s.hlt.perf i + k
    let s := { s with hlt := { s.hlt with perf := modNth (fun _ => v % 2 ^ 48) s.hlt.perf i } }
    if v < 2 ^ 48 then s
    else if i < 63 ∧ s.regBit (R.HLT_PERF_SEL (i + 1)) 13 then perfAdd fuel (i + 1) 1 s
    else if i < 32 then s.setRegBit R.HLT_PERF_OVF_LO i true
    else s.setRegBit R.HLT_PERF_OVF_HI (i - 32) true

/-- The counters run. -/
def perfRuns (s : State) : Bool := s.regBit R.HLT_PERF_CTRL 0

/-- An event of a unit happens: every counter that selects it counts; a chained counter counts nothing but wraps. -/
def perfCount (ev unit : Nat) (s : State) : State :=
  if s.perfRuns then
    (List.range 64).foldl (fun s i =>
      if s.regField (R.HLT_PERF_SEL i) 7 0 = ev ∧ s.regField (R.HLT_PERF_SEL i) 12 8 = unit ∧
          !s.regBit (R.HLT_PERF_SEL i) 13 then s.perfAdd 64 i 1 else s) s
  else s

/-! ### MACsec transmission and notification -/

/-- The transmit SA in use on a port. -/
def txSa (s : State) (p : Nat) : Option (Nat × Sa) :=
  s.net.sas.find? fun x => x.2.port == p && !x.2.rx && x.2.inUse

/-- Uses one packet number of transmit SA `i`, with the events of R429. -/
def usePn (i : Nat) (a : Sa) (s : State) : State :=
  let low := !a.lowLogged && decide (a.lowPn ≤ a.pn + 1)
  let last := decide (a.lastPn ≤ a.pn)
  let a' := { a with pn := a.pn + 1, lowLogged := a.lowLogged || low, exhausted := last }
  let s := { s with net := { s.net with sas := tput s.net.sas i a' } }
  let s := if low then s.raise srcNet Ev.NET_SA_PN_LOW i 0 else s
  if last then (s.raise srcNet Ev.NET_SA_EXHAUSTED i 0).setRegBit (R.NET_PORT_STATE a.port) 4 false else s

/-- Whether a frame can leave by a port that MACsec protects: `none` when it is dropped (R427, R429). -/
def protect (p : Nat) (s : State) : Option State :=
  if s.regField (R.NET_PORT_CFG p) 7 6 = 0 then some s
  else
    match s.txSa p with
    | none => none
    | some (i, a) => if a.exhausted then none else some (s.usePn i a)

/-- Bytes of what goes out on a port (R606): the headers of a datagram are 42 bytes. -/
def outLen : Out → Nat
  | .frame _ b => b.length
  | .datagram _ _ _ b => 42 + b.length
  | .ptp _ _ b => 14 + b.length
  | _ => 0

/-- Sends a frame on an external port, counting it or its drop. -/
def sendFrame (p : Nat) (o : Out) (s : State) : State :=
  match s.protect p with
  | none => s.bump (R.NET_PORT_DROPS p) 1
  | some s =>
    let s := { s with hlt := { s.hlt with bwTx := modNth (· + outLen o) s.hlt.bwTx p } }
    (s.bump (R.NET_PORT_TX p) 1).emit o

/-- A secure channel is a command association while a receive SA of it carries the COMMAND flag (R428). -/
def commandChannel (s : State) (ch : Nat) : Bool :=
  s.net.sas.any fun x => x.2.rx && x.2.command && x.2.channel == ch

/-- Sends a UDP payload from a command association through the transmit SA in use on its port (R112, R428). -/
def sendDatagram (assoc addr port : Nat) (bytes : List Byte) (s : State) : State :=
  if s.domOn 6 && s.commandChannel assoc then s.sendFrame (assoc % 32) (.datagram assoc addr port bytes) else s

/-- Sends an MSI-X message, or sets its pending bit while the vector is masked (R106). [PRESUMED, log entry 11] -/
def msix (v : Nat) (s : State) : State :=
  if bit (s.reg (R.BAR2_MSIX v 3)) 0 then s.setRegBit R.BAR2_PBA v true else s.emitHost (.msix v)

/-- The datagram that carries notification bit `k` (R115, R118); the spec gives its sequence field no value.
[DESIGN CHOICE, log entry 35] -/
def notifyDatagram (k seq : Nat) : List Byte :=
  leBytes 2 0x5A47 ++ [0x01, 0x02, 0x00, 0, 0, 0] ++ leBytes 4 seq ++ leBytes 4 k

/-- Sends notification `k` to the last requesting address of every command association (R118).
[DESIGN CHOICE, log entry 35] -/
def notifyEth (k : Nat) : List (Nat × Assoc) → State → State
  | [], s => s
  | (a, x) :: rest, s =>
    let (seq, s) := s.draw 1
    notifyEth k rest (s.sendDatagram a x.addr x.port (notifyDatagram k seq))

/-- The condition of vector `v` occurs (R106, R118): its NOTIFY_STATUS bit is set, and a change from 0 to 1 while the
bit is enabled sends the vector. -/
def notify (v : Nat) (s : State) : State :=
  let k := v - 16
  let was := s.regBit R.CMD_NOTIFY_STATUS k
  let s := s.setRegBit R.CMD_NOTIFY_STATUS k true
  if was || !s.regBit R.CMD_NOTIFY_ENABLE k then s
  else
    let s := s.msix v
    if s.regBit R.CMD_ETH_CFG 2 then s.notifyEth k s.host.assocs else s

/-! ### The ALERT_N pin (R614) -/

/-- A junction sensor of R591 reads 110.0 °C or more, or sensor 31 lies outside 776 to 824 mV; 0x8000 is no reading. -/
def sensorAlert (s : State) : Bool :=
  ((List.range 8).any fun i =>
    let w := s.regField (R.HLT_SENSOR_LO (23 + i)) 15 0
    w != 0x8000 && decide (1100 ≤ toSigned 16 w)) ||
  (let v := s.regField (R.HLT_SENSOR_LO 31) 15 0
   v != 0x8000 && (decide (toSigned 16 v < 776) || decide (824 < toSigned 16 v)))

/-- A condition that holds ALERT_N low. -/
def alertHolds (s : State) : Bool :=
  decide (s.phase < 5) || s.sensorAlert || s.regBit R.KEY_TAMPER_STATUS 16 || s.reg R.SYS_DOMAIN_FAULT != 0

/-- ALERT_N follows its conditions; each fall raises vector 17. -/
def alertUpdate (s : State) : State :=
  let low := s.alertHolds
  let was := s.pwr.alertLow
  let s := { s with pwr := { s.pwr with alertLow := low } }
  if low && !was then s.notify 17 else s

end State

end Sys2Proof.Machine
end

