-- ==== Sys2Proof/Machine/Ecc.lean ====
section
/-! DEFINITION. Error correction of the SECDED memories and DDR: upsets, corrections, uncorrectable errors and the memory
rows that become due for a spare (spec 01 R27; spec 17 R596, R601). -/

namespace Sys2Proof.Machine

/-- The kind and group of the memory row at an address, for the memories that have row spares (R32, R589). -/
def rowGroup (a : Nat) : Option (Nat × Nat) :=
  if a < 0x800000 then some (2, a / 0x400000)
  else if 0x1000000 ≤ a ∧ a < 0x2000000 then some (3, a / 256 % 8)
  else if 0x2000000 ≤ a ∧ a < 0x3000000 then some (5, (a - 0x2000000) / 0x400000)
  else if 0x3000000 ≤ a ∧ a < 0x3100000 then some (4, 0)
  else none

/-- The memory number of HLT.ECC_CORR for an address (R601). -/
def eccMemory (a : Nat) : Option Nat :=
  if a < 0x800000 then some 0
  else if 0x1000000 ≤ a ∧ a < 0x2000000 then some 1
  else if 0x3000000 ≤ a ∧ a < 0x3100000 then some 2
  else if 0x2000000 ≤ a ∧ a < 0x3000000 then some (3 + (a - 0x2000000) / 0x400000)
  else if 0x1000000000 ≤ a ∧ a < 0x1400000000 then some 7
  else none

namespace State

/-- The row at an address becomes due for a spare (R596). [DESIGN CHOICE, log entry 159] -/
def rowDue (addr : Nat) (s : State) : State :=
  let a := addr / 1024 * 1024
  match rowGroup addr with
  | none => s
  | some (k, g) =>
    if (s.hlt.rows.any fun r => r.kind == k && r.addr == a) || s.hlt.maps.units.contains (k, a) then s
    else { s with hlt := { s.hlt with rows := s.hlt.rows ++ [⟨k, g, a⟩] } }

/-- A single-bit error is corrected in a word (R27, R596, R601). -/
def eccCorrect (scrub : Bool) (addr : Nat) (s : State) : State :=
  match eccMemory addr with
  | none => s
  | some m =>
    let s := s.bump (R.HLT_ECC_CORR m) 1
    let a := addr / 1024 * 1024
    let old := (tget s.hlt.rowHist a).getD []
    let recent := (old.filter fun t => decide (s.raw < t + rawUs 86400000000)) ++ [s.raw]
    let s := { s with hlt := { s.hlt with rowHist := tput s.hlt.rowHist a recent } }
    if 3 ≤ recent.length ∨ (scrub ∧ s.hlt.scrubbed.contains (addr / 8 * 8)) then s.rowDue addr else s

/-- An uncorrectable error is found in a word (R596, R601). -/
def eccUncorrectable (addr : Nat) (s : State) : State :=
  match eccMemory addr with
  | none => s
  | some m => ((s.bump (R.HLT_ECC_UNCORR m) 1).raise srcSup Ev.HLT_ECC_UNCORR m addr).rowDue addr

/-- A word with an uncorrectable error lies under an access. -/
def poisoned (s : State) (addr : Nat) : Bool := s.poison.contains (addr / 8 * 8)

/-- A word with a single-bit error that nothing has read since. -/
def weakAt (s : State) (addr : Nat) : Bool := s.weak.contains (addr / 8 * 8)

/-- A bit of a protected word flips: a second flip in a word that nothing has corrected makes its error uncorrectable
(R27). -/
def upset (addr : Nat) (s : State) : State :=
  let w := addr / 8 * 8
  if (eccMemory addr).isNone ∨ s.poisoned addr then s
  else if s.weakAt addr then { s with weak := s.weak.filter (· != w), poison := w :: s.poison }
  else { s with weak := w :: s.weak }

/-- An access of `n` bytes corrects the single-bit errors that it meets, and writes the words back (R27, R601). -/
def eccMeet (addr n : Nat) (s : State) : State :=
  let hit (w : Nat) : Bool := decide (addr / 8 * 8 ≤ w ∧ w < addr + n)
  (s.weak.filter hit).foldl (fun s w => s.eccCorrect false w) { s with weak := s.weak.filter fun w => !hit w }

/-- Copies 16 bytes of memory: a source word with an uncorrectable error is counted, and its copy is no more readable than
it (R596). [DESIGN CHOICE, log entry 162] -/
def copyEntry (dst src : Nat) (s : State) : State :=
  let s := s.eccMeet src 16
  let lost := [0, 8].filter fun k => s.poisoned (src + k)
  let t := s.setBytes dst (s.bytesAt src 16)
  lost.foldl (fun t k => { t with poison := (dst + k) / 8 * 8 :: t.poison }.eccUncorrectable ((src + k) / 8 * 8)) t

end State

end Sys2Proof.Machine
end

