-- ==== Sys2Proof/Machine/CycOps.lean ====
section
/-! DEFINITION. The cycle engine's shared operations: the release grid, image sections and copies, starting,
pre-empting and ending a cycle, traps and task faults, roles and mode changes (spec 05 R156 to R159, R179; spec 06). -/

namespace Sys2Proof.Machine

/-! ### The release grid (R189) -/

/-- The instant of tick index `i`. -/
def tickAt (i : Nat) : Instant := i / 4000 * 2 ^ 32 + roundDiv (i % 4000 * 2 ^ 32) 4000

/-- The index of the last tick at or before an instant. -/
def tickOf (t : Instant) : Nat :=
  let n := t % 2 ^ 32 * 4000 / 2 ^ 32
  let base := t / 2 ^ 32 * 4000
  if tickAt (base + n + 1) ≤ t then base + n + 1 else base + n

/-- The first grid tick after index `i` of a task with a period and a phase (R190). -/
def nextGrid (period phase i : Nat) : Nat :=
  if period = 0 then i + 1
  else i + 1 + (phase + period - (i + 1) % period) % period

/-- Shared data SRAM's base (R32). -/
abbrev sramBase : Nat := 0x1000000
abbrev sramSize : Nat := 0x1000000

/-- A code SRAM address (R32). -/
def inCode (a : Nat) : Bool := decide (a < 0x800000)

/-- The cycle-end address (R156). -/
abbrev cycleEnd : DWord := 0xFFFFFFFFFFFFFFF0#64

/-- Marks a result that the carrier task `t` takes. -/
def PlanWait.mark (t : Nat) (b : Bool) (r : PlanWait) : PlanWait :=
  if fieldAt r.ver.bytes 0x1D 1 = t then { r with taken := b } else r

namespace State

/-! ### Reading the tables -/

def core (s : State) (l : Nat) : CoreSt := nth (CoreSt.empty 0) s.cores l
def setCore (l : Nat) (c : CoreSt) (s : State) : State := { s with cores := modNth (fun _ => c) s.cores l }
def task (s : State) (t : Nat) : TaskSt := nth TaskSt.empty s.cyc.tasks t
def setTask (t : Nat) (x : TaskSt) (s : State) : State :=
  { s with cyc := { s.cyc with tasks := modNth (fun _ => x) s.cyc.tasks t } }
def modTask (t : Nat) (f : TaskSt → TaskSt) (s : State) : State := s.setTask t (f (s.task t))

def taskEnabled (s : State) (t : Nat) : Bool := s.regBit (R.CYC_TASK_CFG t) 0
/-- The logical core of a task. -/
def lcore (s : State) (t : Nat) : Nat := s.regField (R.CYC_TASK_CFG t) 7 4
/-- The priority of a task on its core, 0 highest. -/
def prio (s : State) (t : Nat) : Nat := s.regField (R.CYC_TASK_CFG t) 12 8
def period (s : State) (t : Nat) : Nat := (s.reg (R.CYC_PERIOD t)).toNat
def taskPhase (s : State) (t : Nat) : Nat := (s.reg (R.CYC_PHASE t)).toNat
/-- The watchdog limit in ticks: 0 means 4 × period, capped at 240,000 (R193). -/
def wdogTicks (s : State) (t : Nat) : Nat :=
  let w := (s.reg (R.CYC_WDOG t)).toNat
  if w = 0 then min (4 * s.period t) 240000 else w
def inCount (s : State) (t : Nat) : Nat := (s.reg (R.CYC_IN_COUNT t)).toNat
def outCount (s : State) (t : Nat) : Nat := (s.reg (R.CYC_OUT_COUNT t)).toNat
/-- Address of a task's input section; the output section follows it (R195). -/
def inSection (s : State) (t : Nat) : Nat := sramBase + (s.reg (R.CYC_BUF_OFF t)).toNat
def outSection (s : State) (t : Nat) : Nat := s.inSection t + 16 * s.inCount t
def cycleNo (s : State) (t : Nat) : Nat := s.reg64 (R.CYC_CYCLE_LO t) (R.CYC_CYCLE_HI t)
/-- The STAGE_LEAD of a task as a duration. -/
def stageLead (s : State) (t : Nat) : Instant := usToUnits (s.reg (R.CYC_STAGE_LEAD t)).toNat
/-- The output deadline of a task's present cycle (R201). -/
def outDeadline (s : State) (t : Nat) : Instant := (s.task t).boundary - s.stageLead t
/-- A task inside its cycle (R203). -/
def inside (s : State) (t : Nat) : Bool := (s.task t).phase != .idle
/-- The address of global image entry `i`. -/
def entryAddr (s : State) (i : Nat) : Nat := sramBase + (s.reg R.CYC_IMAGE_BASE).toNat + 16 * i
/-- CYC.MODE.MODE: 0 STOP, 1 RUN, 2 HOLD. -/
def mode (s : State) : Nat := s.regField R.CYC_MODE 1 0
def fixedRun (s : State) : Bool := s.regBit R.CYC_MODE 2
def loaded (s : State) : Bool := s.regBit R.CYC_MODE 3
def isDraining (s : State) : Bool := s.regBit R.CYC_MODE 5
/-- CYC.CHANGE_STATUS.STATE: 0 NONE, 1 LOADED, 2 WAITING, 3 SWITCHING. -/
def changeState (s : State) : Nat := s.regField R.CYC_CHANGE_STATUS 2 0
/-- The unit's role: 0 SOLO, 1 PRIMARY, 2 STANDBY, 3 SILENT, 4 MAINTENANCE. -/
def role (s : State) : Nat := s.regField R.RED_ROLE 2 0
/-- The Birlith link is UP or UP_DEGRADED (R511). -/
def linkUpNow (s : State) : Bool := s.domOn 11 && decide (2 ≤ s.regField R.RED_LINK 1 0)
/-- The claiming roles (R500). [DEDUCED, log entry 66] -/
def claiming (s : State) : Bool := s.role == 0 || s.role == 1 || s.role == 4

/-! ### Sections and copies (R196 to R200) -/

/-- The signal indices that a section map names, in order. -/
def mapIndices (s : State) (off runs : Nat) : List Nat :=
  (List.range runs).flatMap fun i =>
    let r : Word := BitVec.ofNat 32 (s.numAt (sramBase + off + 4 * i) 4)
    (List.range (field r 31 17 + 1)).map (field r 16 0 + ·)

def inIndices (s : State) (t : Nat) : List Nat :=
  s.mapIndices (s.reg (R.CYC_IN_MAP_OFF t)).toNat (s.reg (R.CYC_IN_RUNS t)).toNat
def outIndices (s : State) (t : Nat) : List Nat :=
  s.mapIndices (s.reg (R.CYC_OUT_MAP_OFF t)).toNat (s.reg (R.CYC_OUT_RUNS t)).toNat

/-- Copies 16-byte entries from the global image into a section. -/
def copyInto (dst : Nat) : List Nat → State → State
  | [], s => s
  | i :: is, s => copyInto (dst + 16) is (s.copyEntry dst (s.entryAddr i))

/-- Copies a section's 16-byte entries to the global image. -/
def copyOutOf (src : Nat) : List Nat → State → State
  | [], s => s
  | i :: is, s => copyOutOf (src + 16) is (s.copyEntry (s.entryAddr i) src)

/-! ### Symbols and forces (R218 to R220, R237) -/

end State

/-- One symbol entry (R237). -/
structure Sym where
  id : Nat
  kind : Nat
  type : Nat
  loc : Nat
  count : Nat
  name : Nat
  deriving DecidableEq, Repr

/-- The symbol entry at an offset of an image. -/
def symAt (img : List Byte) (off : Nat) : Sym :=
  { id := fieldAt img off 4, kind := fieldAt img (off + 4) 1, type := fieldAt img (off + 5) 1,
    loc := fieldAt img (off + 8) 4, count := fieldAt img (off + 12) 4, name := fieldAt img (off + 16) 4 }

/-- The symbols of an image. -/
def symbols (img : List Byte) : List Sym :=
  (List.range (fieldAt img 0x60 4)).map fun i => symAt img (fieldAt img 0x5C 4 + 24 * i)

/-- Value bytes that a type uses (R173). -/
def typeSize (ty : Nat) : Nat :=
  match ty with
  | 1 => 1 | 2 | 3 => 4 | 4 | 5 => 8 | 8 => 4 | 9 => 8 | _ => 0

namespace State

/-- The symbols of the placed program; none while no program is placed (R636). -/
def syms (s : State) : List Sym := (s.cyc.prog.map fun p => symbols p.image).getD []
def symById (s : State) (id : Nat) : Option Sym := s.syms.find? (·.id == id)

/-- Writes a forced value over an entry: the value bytes, and for an input the quality byte (R219, R220). -/
def writeForce (addr : Nat) (f : Force) (withQuality : Bool) (s : State) : State :=
  let s := s.setBytes addr (padTo 8 f.value)
  if withQuality then s.setByte (addr + 8) f.quality else s

/-- The force on the signal of an index, of the given symbol kinds. -/
def forceOn (s : State) (i : Nat) (input : Bool) : Option Force :=
  s.cyc.forces.find? fun f =>
    match s.symById f.id with
    | some y => y.loc == i && (if input then y.kind == 1 else y.kind == 2 || y.kind == 3)
    | none => false

/-- Applies input forces to an input section (R199, R219). -/
def forceInputs (dst : Nat) : List Nat → State → State
  | [], s => s
  | i :: is, s =>
    let s := match s.forceOn i true with | some f => s.writeForce dst f true | none => s
    forceInputs (dst + 16) is s

/-- A transfer has become the head: when it is a copy-out, the results confirmed so far are the ones it will apply
(R314). -/
def headBegins (s : State) : State :=
  match s.cyc.xfer with
  | (t, true) :: _ =>
    { s with solv := { s.solv with results := s.solv.results.map (PlanWait.mark t true) } }
  | _ => s

/-- The releases of two tasks were made in one cycle. -/
def releasedTogether (s : State) (t u : Nat) : Bool :=
  (s.task t).releaseTick == (s.task u).releaseTick && (s.task t).releaseRaw == (s.task u).releaseRaw

/-- A copy-in takes its place in the queue: last, but before copy-ins requested in the same cycle for tasks of higher
number (R198). -/
def queueCopyIn (s : State) (t : Nat) : List (Nat × Bool) → List (Nat × Bool)
  | [] => [(t, false)]
  | x :: rest =>
    if !x.2 ∧ t < x.1 ∧ s.releasedTogether t x.1 then (t, false) :: x :: rest else x :: s.queueCopyIn t rest

/-- Requests a transfer (R198). -/
def pushXfer (t : Nat) (out : Bool) (s : State) : State :=
  let first := s.cyc.xfer.isEmpty
  let queue := if out then s.cyc.xfer ++ [(t, out)] else s.queueCopyIn t s.cyc.xfer
  let s := { s with cyc := { s.cyc with xfer := queue } }
  if first then s.headBegins else s

/-- Withdraws the transfers of a task; results that an unfinished copy-out would have applied wait for the next. -/
def dropXfer (t : Nat) (s : State) : State :=
  let head := s.cyc.xfer.head?
  let s := { s with cyc := { s.cyc with xfer := s.cyc.xfer.filter fun x => x.1 != t } }
  if head.map (·.1) = some t then
    headBegins { s with solv := { s.solv with results := s.solv.results.map (PlanWait.mark t false) } }
  else s

/-- The head transfer is complete. -/
def popXfer (s : State) : State := headBegins { s with cyc := { s.cyc with xfer := s.cyc.xfer.drop 1 } }

/-- Applies output forces to the global image (R200, R220). -/
def forceOutputs : List Nat → State → State
  | [], s => s
  | i :: is, s =>
    forceOutputs is (match s.forceOn i false with | some f => s.writeForce (s.entryAddr i) f false | none => s)

/-! ### Cores (R156, R159, R202) -/

/-- The cluster domain of a logical core: PD_LCA for 0 to 7, PD_LCB for 8 to 15 (R24, R46). -/
def coreDomain (l : Nat) : Nat := if l < 8 then 0 else 1

/-- CCOUNT now: CK_CORE cycles since the cycle started, 800 MHz against the 250 MHz raw count.
[DEDUCED, log entry 18] -/
def ccountNow (s : State) (c : CoreSt) : Nat := c.ccount + (s.raw - c.since) * 16 / 5

/-- A task starts on its core (R156). -/
def startTask (l t : Nat) (s : State) : State :=
  let c := CoreSt.empty (s.core l).phys
  let w0 := BitVec.ofNat 64 t
  let w1 := BitVec.ofNat 64 (s.cycleNo t)
  let w2 := BitVec.ofNat 64 (s.reg64 (R.CYC_DATA_BASE_LO t) (R.CYC_DATA_BASE_HI t))
  let c := { c with
    mode := .running, task := t, w := [w0, w1, w2] ++ List.replicate 12 0 ++ [cycleEnd],
    pc := BitVec.ofNat 40 (s.reg (R.CYC_ENTRY t)).toNat, since := s.raw }
  (s.setCore l c).modTask t fun x => { x with phase := .running, inHandler := false }

/-- Address of a task's save area (R193). -/
def saveArea (s : State) (t : Nat) : Nat := sramBase + (s.reg (R.CYC_SAVE_OFF t)).toNat

/-- The 320-byte save frame of a core (R159). -/
def saveFrame (s : State) (c : CoreSt) : List Byte :=
  let d (x : DWord) : List Byte := leBytes 8 x.toNat
  (c.w.map d).flatten ++ (c.v.map d).flatten ++ leBytes 8 c.pc.toNat ++
    leBytes 4 (c.c.toNat + if c.mode = .handler then 16 else 0) ++ leBytes 4 c.fcsr.toNat ++ d c.qtest ++ d c.tvec ++
    d c.tcause ++ d c.tpc ++ d c.tval ++ leBytes 8 (s.ccountNow c)

/-- The core loses its task, whose save frame goes to its save area (R159, R202). -/
def saveTask (l : Nat) (ph : CycPhase) (s : State) : State :=
  let c := s.core l
  let s := s.setBytes (s.saveArea c.task) (s.saveFrame c)
  let s := s.modTask c.task fun x => { x with phase := ph, inHandler := c.mode == .handler, savedRaw := s.raw, savedFrac := c.timeFrac }
  s.setCore l (CoreSt.empty c.phys)

/-- The 64-bit word of a save frame. -/
def frameWord (s : State) (a off : Nat) : DWord := BitVec.ofNat 64 (s.numAt (a + off) 8)

/-- A pre-empted or held task resumes from its save frame (R159). CCOUNT has counted on since the frame was written. -/
def resumeTask (l t : Nat) (s : State) : State :=
  let a := s.saveArea t
  let fl := s.numAt (a + 0x108) 4
  let c : CoreSt :=
    { mode := if fl / 16 % 2 = 1 then .handler else .running, task := t, phys := (s.core l).phys,
      w := (List.range 16).map fun i => s.frameWord a (8 * i),
      v := (List.range 16).map fun i => s.frameWord a (0x80 + 8 * i),
      c := BitVec.ofNat 4 fl, pc := BitVec.ofNat 40 (s.numAt (a + 0x100) 8), fcsr := BitVec.ofNat 64 (s.numAt (a + 0x10C) 4),
      qtest := s.frameWord a 0x110, tvec := s.frameWord a 0x118, tcause := s.frameWord a 0x120,
      tpc := s.frameWord a 0x128, tval := s.frameWord a 0x130, ccount := s.numAt (a + 0x138) 8,
      since := (s.task t).savedRaw, timeFrac := (s.task t).savedFrac }
  (s.setCore l c).modTask t fun x => { x with phase := .running }

/-- The best of the tasks that wait for a logical core: ready or pre-empted, by priority. A pre-empted task waits while
a task of higher priority on the core is released and still in its copy-in (R202); in fixed-period execution, where a
core runs its tasks in PRIO order, so does one that has not started (R211). -/
def nextTask (s : State) (l : Nat) : Option Nat :=
  let best := (List.range 32).foldl (fun best t =>
    let ph := (s.task t).phase
    if s.lcore t = l ∧ (ph = .ready ∨ ph = .preempted) then
      match best with
      | some b => if s.prio t < s.prio b then some t else best
      | none => some t
    else best) none
  best.filter fun t =>
    ((s.task t).phase == .ready && !s.fixedRun) || !((List.range 32).any fun u =>
      s.lcore u == l && decide (s.prio u < s.prio t) && (s.task u).phase == .copyIn)

/-- The held task of a logical core, if there is one. -/
def heldTask (s : State) (l : Nat) : Option Nat :=
  (List.range 32).find? fun t => decide (s.lcore t = l) && (s.task t).phase == .held

/-- Gives the core to the task that should have it: the best waiting task when the core is free or runs a lower one;
HELD shows when only a held task remains (R180, R202). -/
def dispatchCore (l : Nat) (s : State) : State :=
  let c := s.core l
  let busy := c.mode == .running || c.mode == .handler
  let enter (t : Nat) (s : State) : State := if (s.task t).phase = .ready then s.startTask l t else s.resumeTask l t
  match s.nextTask l with
  | some t =>
    if !s.domOn (coreDomain l) then s
    else if busy then (if !s.fixedRun && decide (s.prio t < s.prio c.task) then enter t (s.saveTask l .preempted) else s)
    else enter t s
  | none =>
    if busy then s
    else
      match s.heldTask l with
      | some t => s.setCore l { c with mode := .held, task := t }
      | none => if c.mode = .faulted then s else s.setCore l { c with mode := .idle, task := 0 }

/-- Takes a task off its core, if it is on it. -/
def clearCore (t : Nat) (mode : CoreMode) (s : State) : State :=
  let l := s.lcore t
  let c := s.core l
  if c.task = t ∧ c.mode ≠ .idle then s.setCore l { CoreSt.empty c.phys with mode := mode, task := t } else s

/-! ### Roles (R500, R502) -/

/-- A change of role is logged and raises vector 18 (R502). -/
def setRole (r : Nat) (s : State) : State :=
  let old := s.role
  if old = r then s
  else
    let s := s.setRegField R.RED_ROLE 2 0 r
    (s.raise srcRed Ev.RED_ROLE (r + 0x100 * old) (s.reg R.RED_CLAIM).toNat).notify 18

/-! ### Releases (R190, R191, R205) -/

/-- Counts a release that is not made. -/
def skipRelease (t : Nat) (s : State) : State := s.bump (R.CYC_SKIPPED t) 1

/-- The first release instant of task `t` after tick `i`: the next grid tick, or in fixed-period execution the first
frame start after `i` for which the task falls due (R190, R201, R211). -/
def nextRelease (s : State) (t i : Nat) : Instant :=
  if s.fixedRun then
    let f := max 1 (s.reg R.CYC_FRAME).toNat
    tickAt ((nextGrid (s.period t) (s.taskPhase t) (i / f * f) + f - 1) / f * f)
  else tickAt (nextGrid (s.period t) (s.taskPhase t) i)

/-- The shortest period among the enabled tasks. -/
def shortestPeriod (s : State) : Nat :=
  max 1 (((List.range 32).filter s.taskEnabled).foldl (fun m t => if m = 0 then s.period t else min m (s.period t)) 0)

/-- CYC.FRAME shows the frame while fixed-period execution is active (R211, R241). -/
def showFrame (s : State) : State :=
  if s.fixedRun then s.setReg R.CYC_FRAME (BitVec.ofNat 32 s.shortestPeriod) else s

/-- The release of task `t` at tick `i`, outside its cycle: the cycle number advances, FAULTED ends on its core (R187)
and copy-in is requested. -/
def makeRelease (t i : Nat) (s : State) : State :=
  let s := s.setReg64 (R.CYC_CYCLE_LO t) (R.CYC_CYCLE_HI t) (s.cycleNo t + 1)
  let b := s.nextRelease t i
  let s := s.modTask t fun x =>
    { x with phase := .copyIn, release := tickAt i, releaseTick := i, releaseRaw := s.raw, boundary := b,
             lastTick := some i, seenTick := i, overran := false, draining := false }
  let l := s.lcore t
  let s := if (s.core l).mode = .faulted then s.setCore l (CoreSt.empty (s.core l).phys) else s
  s.pushXfer t false

/-- A release of task `t` at tick `i`, made or counted (R205). -/
def release (t i : Nat) (s : State) : State :=
  if s.inside t then (s.skipRelease t).modTask t fun x => { x with seenTick := i } else s.makeRelease t i

/-! ### Modes (R213, R214) -/

/-- Stop, with no drain under way (R214). -/
def stopped (s : State) : Bool := s.mode == 0 && !s.regBit R.CYC_MODE 5

/-- The cycles that a drain waits for: begun before the change and not held. -/
def drainingTasks (s : State) : List Nat :=
  (List.range 32).filter fun t => (s.task t).draining && (s.task t).phase != .idle && (s.task t).phase != .held

/-- DRAINING returns to 0 and EV_CYC_MODE is logged (R214). -/
def endDrain (s : State) : State :=
  match s.cyc.drain with
  | none => s
  | some (old, new, cause) =>
    let s := { s with cyc := { s.cyc with drain := none } }
    ((s.setRegBit R.CYC_MODE 5 false).raise srcCyc Ev.CYC_MODE (new + 0x100 * old) cause).notify 22

/-- A mode change: MODE takes its value at once, and the cycles that run drain (R214). -/
def changeMode (new cause : Nat) (s : State) : State :=
  let old := s.mode
  let s := s.endDrain
  let s := s.setRegField R.CYC_MODE 1 0 new
  let s := { s with cyc := { s.cyc with
    drain := some (old, new, cause),
    tasks := s.cyc.tasks.map (fun x : TaskSt => { x with draining := x.phase != CycPhase.idle }) } }
  let s := s.setRegBit R.CYC_MODE 5 true
  if s.drainingTasks.isEmpty then s.endDrain else s

/-- The delayed releases in task-number order: task and tick (R226). -/
def delayedInOrder (s : State) : List (Nat × Nat) :=
  (List.range 32).filterMap fun t => (tget s.cyc.delayed t).map fun i => (t, i)

/-- Makes the releases that a pending change has delayed, in task-number order (R226). -/
def flushDelayed (s : State) : State :=
  s.delayedInOrder.foldl (fun s x => s.release x.1 x.2) { s with cyc := { s.cyc with delayed := [] } }

/-- A WAITING change returns to LOADED with a result, and the releases it has delayed are made (R229, R230).
[DEDUCED, log entry 68] -/
def abandonChange (st : Status) (s : State) : State :=
  let kind := if s.regBit R.CYC_CHANGE_STATUS 3 then 1 else 0
  let s := (s.setRegField R.CYC_CHANGE_STATUS 2 0 1).setRegField R.CYC_CHANGE_STATUS 31 16 st.code
  ((s.raise srcCyc Ev.CYC_CHANGE_ABANDONED st.code kind).notify 23).flushDelayed

/-- Enters Stop at the boundary: running cycles finish and commit, a held task is stopped without copy-out (R214). -/
def enterStop (cause : Nat) (s : State) : State :=
  if s.mode = 0 then s
  else
    let s := if s.changeState = 2 then s.abandonChange .aborted else s
    let held := (List.range 32).filter fun t => (s.task t).phase == .held
    let s := held.foldl (fun s t => (s.clearCore t .idle).modTask t (fun x : TaskSt => { x with phase := .idle })) s
    let s := held.foldl (fun s t => s.dispatchCore (s.lcore t)) s
    s.changeMode 0 cause

/-! ### Task faults (R179, R204 to R209, R523) -/

/-- Applies FAULT_ACTION; `kind` is parameter B of EV_CYC_TASK_STOPPED: 1 trap, 2 watchdog, 3 overrun limit (R208). -/
def faultAction (t kind : Nat) (s : State) : State :=
  let n := (s.task t).faults + 1
  let s := s.modTask t fun x => { x with faults := n }
  match s.regField (R.CYC_TASK_CFG t) 14 13 with
  | 1 => (s.modTask t fun x => { x with stopped := true }).raise srcCyc Ev.CYC_TASK_STOPPED t kind
  | 2 => if max 1 (s.regField (R.CYC_TASK_CFG t) 31 24) ≤ n then s.enterStop 3 else s
  | _ => s.enterStop 3

/-- An overrun is counted, and logged at most once per task per second (R204). -/
def countOverrun (t : Nat) (s : State) : State :=
  let x := s.task t
  let due := match x.overrunLogged with | none => true | some r => decide (r + rawUs 1000000 ≤ s.raw)
  let n := x.overrunSince + 1
  let s := s.bump (R.CYC_OVERRUNS t) 1
  let s := s.setTask t { x with
    overran := true, overruns := x.overruns + 1, overrunSince := if due then 0 else n,
    overrunLogged := if due then some s.raw else x.overrunLogged }
  if due then (s.raise srcCyc Ev.CYC_OVERRUN t n).notify 22 else s.notify 22

/-- A task fault: the cycle ends without copy-out, as an overrun where its output deadline has come, and the unit acts on
it (R204, R208, R209, R523). The first boundary after the fault gets no COMMIT (R208). -/
def taskFault (t kind : Nat) (s : State) : State :=
  let l := s.lcore t
  let late := s.inside t && !(s.task t).overran && decide (s.outDeadline t ≤ s.now)
  let s := if late then s.countOverrun t else s
  let b := s.nextRelease t (tickOf s.now)
  let s := s.clearCore t .faulted
  let s := s.dropXfer t
  let s := s.modTask t fun x => { x with phase := .idle, stageFor := none, faultBoundary := some b }
  let s :=
    if s.role = 1 ∧ s.regBit R.RED_CFG 1 ∧ s.red.peerSynced then
      { s.setRole 3 with red := { s.red with silentInd := true, peerSynced := false } }
    else s.faultAction t kind
  s.dispatchCore l

/-- An overrun; the limit makes it a task fault (R204, R206). -/
def overrun (t : Nat) (s : State) : State :=
  let s := s.countOverrun t
  let limit := s.regField (R.CYC_TASK_CFG t) 23 16
  if limit ≠ 0 ∧ limit ≤ (s.task t).overruns then s.taskFault t 3 else s

/-- Counts the overrun of a cycle whose output deadline has passed before its copy-out completed (R204). -/
def checkOverrun (t : Nat) (s : State) : State :=
  let x := s.task t
  if x.phase ≠ .idle ∧ !x.overran ∧ s.outDeadline t < s.now then s.overrun t else s

/-! ### Traps (R177, R179, R187) -/

/-- The causes of R177. -/
inductive Cause where
  | illegal | busError | misaligned | imageRange | imageType | software | machineCheck | double
  deriving DecidableEq, Repr

def Cause.code : Cause → Nat
  | .illegal => 1 | .busError => 2 | .misaligned => 3 | .imageRange => 4 | .imageType => 5 | .software => 6
  | .machineCheck => 7 | .double => 8

/-- Records a trap in the LC registers (R187). -/
def recordTrap (l : Nat) (cause tpc tval : Nat) (imprecise handled : Bool) (s : State) : State :=
  let s := (s.bump (R.LC_TRAPS l) 1).perfCount 0x16 l
  let v := cause + (if imprecise then 0x100 else 0) + (if handled then 0x200 else 0) + 0x10000 * (s.core l).task
  let s := s.setReg (R.LC_LAST_CAUSE l) (BitVec.ofNat 32 v)
  (s.setReg64 (R.LC_LAST_PC_LO l) (R.LC_LAST_PC_HI l) tpc).setReg64 (R.LC_LAST_VAL_LO l) (R.LC_LAST_VAL_HI l) tval

/-- A trap on logical core `l` at address `tpc`: into the handler, or a task fault (R179). -/
def trapAt (l : Nat) (cause : Cause) (tpc : BitVec 40) (tval : DWord) (imprecise : Bool) (s : State) : State :=
  let c := s.core l
  if c.mode = .running ∧ c.tvec ≠ 0 then
    let s := s.recordTrap l cause.code tpc.toNat tval.toNat imprecise true
    s.setCore l { c with
      mode := .handler, tcause := BitVec.ofNat 64 cause.code, tpc := tpc.zeroExtend 64, tval := tval,
      pc := c.tvec.truncate 40 &&& ~~~3#40 }
  else
    let dbl := c.mode = .handler
    let code := if dbl then Cause.double.code else cause.code
    let val := if dbl then BitVec.ofNat 64 cause.code else tval
    let s := s.recordTrap l code tpc.toNat val.toNat imprecise false
    let a := code + 0x100 * c.task + 0x10000 * l
    (s.raise c.phys Ev.LC_TASK_FAULT a tpc.toNat).taskFault c.task 1

/-- A precise trap of the present instruction. [DEDUCED, log entry 57] -/
def trap (l : Nat) (cause : Cause) (tval : DWord) (s : State) : State := s.trapAt l cause (s.core l).pc tval false

/-! ### The end of a cycle (R157) -/

/-- The cycle of the task on core `l` ends, and its copy-out is requested (R157, R200). -/
def endCycle (l : Nat) (s : State) : State :=
  let t := (s.core l).task
  let s := s.modTask t fun x => { x with phase := .copyOut }
  let s := s.pushXfer t true
  (s.setCore l (CoreSt.empty (s.core l).phys)).dispatchCore l

end State

end Sys2Proof.Machine
end

