-- ==== Sys2Proof/Machine/OpTable.lean ====
section
/-! DEFINITION. The opcode table (R120): authorisation, power domain, the parameter lengths that the opcode fixes by
itself (R635), and the reply length where it is fixed. -/

namespace Sys2Proof.Machine

/-- Whether an opcode needs the authorisation trailer (R120). -/
inductive AuthNeed where
  | no
  | yes
  /-- SYS_WRITE: only when it names a privileged register. -/
  | privileged
  deriving DecidableEq, Repr

/-- What power domain step 10 of R103 checks. -/
inductive DomNeed where
  | none
  | dom (k : Nat)
  /-- At least one of PD_SE0 to PD_SE3. -/
  | anySolver
  deriving DecidableEq, Repr

/-- One row of the opcode table. -/
structure OpInfo where
  op : Nat
  auth : AuthNeed
  dom : DomNeed
  minLen : Nat
  maxLen : Nat
  /-- The reply bytes needed, where the opcode fixes them. -/
  reply : Nat
  deriving DecidableEq, Repr

/-- SYS opcodes. -/
def opsSys : List OpInfo :=
  [⟨Op.SYS_NOP, .no, .none, 0, 0, 0⟩, ⟨Op.SYS_HELLO, .no, .none, 0, 0, 0⟩, ⟨Op.SYS_GET_INFO, .no, .none, 0, 0, 512⟩,
   ⟨Op.SYS_READ, .no, .none, 12, 12, 0⟩, ⟨Op.SYS_WRITE, .privileged, .none, 16, 65532, 0⟩,
   ⟨Op.SYS_DOMAIN_ENABLE, .no, .none, 4, 4, 0⟩, ⟨Op.SYS_DOMAIN_DISABLE, .no, .none, 4, 4, 0⟩,
   ⟨Op.SYS_DOMAIN_STATUS, .no, .none, 0, 0, 12⟩, ⟨Op.SYS_RESET, .yes, .none, 4, 4, 0⟩,
   ⟨Op.SYS_FW_WRITE, .yes, .none, 16, 32780, 0⟩, ⟨Op.SYS_FW_ACTIVATE, .yes, .none, 4, 4, 0⟩,
   ⟨Op.SYS_LOCK, .yes, .none, 0, 0, 0⟩]

/-- CYC opcodes. -/
def opsCyc : List OpInfo :=
  [⟨Op.CYC_LOAD_PROGRAM, .yes, .none, 9, 65535, 0⟩, ⟨Op.CYC_START, .yes, .none, 4, 4, 0⟩,
   ⟨Op.CYC_STOP, .yes, .none, 4, 4, 0⟩, ⟨Op.CYC_HOLD, .yes, .none, 0, 0, 0⟩, ⟨Op.CYC_STATUS, .no, .none, 0, 0, 1040⟩,
   ⟨Op.CYC_TASK_CONFIG, .yes, .none, 68, 68, 0⟩, ⟨Op.CYC_FORCE_SET, .yes, .none, 16, 16, 0⟩,
   ⟨Op.CYC_FORCE_RELEASE, .yes, .none, 4, 4, 0⟩, ⟨Op.CYC_FORCE_LIST, .no, .none, 4, 4, 0⟩,
   ⟨Op.CYC_CHANGE_LOAD, .yes, .none, 9, 65535, 0⟩, ⟨Op.CYC_CHANGE_APPLY, .yes, .none, 4, 4, 0⟩,
   ⟨Op.CYC_CHANGE_VALUES, .yes, .none, 28, 65532, 0⟩, ⟨Op.CYC_CHANGE_CANCEL, .yes, .none, 0, 0, 0⟩,
   ⟨Op.CYC_READ_SIGNALS, .no, .none, 8, 16388, 0⟩, ⟨Op.CYC_WRITE_SIGNALS, .yes, .none, 20, 16388, 0⟩]

/-- STN opcodes. -/
def opsStn : List OpInfo :=
  [⟨Op.STN_SEGMENT_CONFIG, .yes, .none, 24, 24, 0⟩, ⟨Op.STN_SEGMENT_ENABLE, .no, .dom 6, 4, 4, 0⟩,
   ⟨Op.STN_SEGMENT_DISABLE, .no, .dom 6, 4, 4, 0⟩, ⟨Op.STN_ADMIT, .yes, .dom 6, 0x60, 0xA0, 0⟩,
   ⟨Op.STN_REMOVE, .yes, .dom 6, 8, 8, 0⟩, ⟨Op.STN_TOKEN_ISSUE, .yes, .none, 28, 28, 36⟩,
   ⟨Op.STN_BOXWOOD_SET, .yes, .dom 6, 12, 1456, 0⟩, ⟨Op.STN_STATUS, .no, .none, 8, 8, 48⟩,
   ⟨Op.STN_LIST, .no, .none, 4, 4, 256⟩]

/-- MET opcodes. -/
def opsMet : List OpInfo :=
  [⟨Op.MET_CHANNEL_CONFIG, .yes, .dom 8, 16, 24, 0⟩, ⟨Op.MET_METER_CONFIG, .yes, .dom 8, 64, 64, 0⟩,
   ⟨Op.MET_USER_CAL_WRITE, .yes, .dom 8, 400, 400, 0⟩, ⟨Op.MET_MEDIUM_TABLE_WRITE, .yes, .dom 8, 8, 776, 0⟩,
   ⟨Op.MET_TARIFF_CONFIG, .yes, .dom 8, 20, 20, 0⟩, ⟨Op.MET_PULSE_CONFIG, .yes, .dom 7, 16, 16, 0⟩,
   ⟨Op.MET_READ_TOTALS, .no, .none, 12, 12, 0⟩, ⟨Op.MET_READ_INTERVAL, .no, .none, 12, 12, 0⟩]

/-- HLT opcodes. -/
def opsHlt : List OpInfo :=
  [⟨Op.HLT_LEDGER, .no, .none, 0, 0, 64⟩, ⟨Op.HLT_SENSORS, .no, .none, 0, 0, 256⟩,
   ⟨Op.HLT_SPARE_BRING_IN, .yes, .none, 16, 16, 0⟩, ⟨Op.HLT_PERF_CONFIG, .no, .none, 12, 264, 0⟩,
   ⟨Op.HLT_PERF_READ, .no, .none, 8, 8, 0⟩, ⟨Op.HLT_BANDWIDTH, .no, .none, 0, 0, 352⟩]

/-- SOLV opcodes. -/
def opsSolv : List OpInfo :=
  [⟨Op.SOLV_DESCRIPTOR_LOAD, .yes, .none, 24, 65535, 0⟩, ⟨Op.SOLV_SUBMIT, .no, .anySolver, 48, 48, 0⟩,
   ⟨Op.SOLV_CANCEL, .no, .none, 4, 4, 0⟩, ⟨Op.SOLV_STATUS, .no, .none, 4, 4, 0⟩,
   ⟨Op.SOLV_RESULT_READ, .no, .none, 8, 8, 0⟩, ⟨Op.SOLV_ENGINE_ENABLE, .no, .none, 4, 4, 0⟩,
   ⟨Op.SOLV_ENGINE_DISABLE, .no, .none, 4, 4, 0⟩]

/-- NET and TIME opcodes. -/
def opsNet : List OpInfo :=
  [⟨Op.NET_PORT_CONFIG, .yes, .dom 6, 8, 8, 0⟩, ⟨Op.NET_VLAN_CONFIG, .yes, .dom 6, 16, 16, 0⟩,
   ⟨Op.NET_SA_INSTALL, .yes, .dom 6, 48, 48, 0⟩, ⟨Op.NET_SA_REMOVE, .yes, .dom 6, 4, 4, 0⟩,
   ⟨Op.NET_PORT_STATUS, .no, .none, 4, 4, 32⟩, ⟨Op.TIME_CONFIG, .yes, .none, 36, 36, 0⟩,
   ⟨Op.TIME_STATUS, .no, .none, 0, 0, 64⟩, ⟨Op.TIME_STEP, .yes, .none, 20, 20, 0⟩]

/-- RTC opcodes. -/
def opsRtc : List OpInfo :=
  [⟨Op.RTC_READ, .no, .none, 0, 0, 40⟩, ⟨Op.RTC_SET_CALENDAR, .yes, .none, 12, 12, 0⟩,
   ⟨Op.RTC_SET_COUNT, .yes, .none, 12, 12, 0⟩, ⟨Op.RTC_HALT, .yes, .none, 0, 0, 0⟩,
   ⟨Op.RTC_RELEASE, .yes, .none, 4, 4, 0⟩, ⟨Op.RTC_ALARM_SET, .no, .none, 16, 16, 0⟩,
   ⟨Op.RTC_ALARM_CLEAR, .no, .none, 4, 4, 0⟩, ⟨Op.RTC_SET_WEEKDAY, .yes, .none, 4, 4, 0⟩,
   ⟨Op.RTC_UTC_OFFSET, .yes, .none, 12, 12, 0⟩]

/-- CAN opcodes. -/
def opsCan : List OpInfo :=
  [⟨Op.CAN_CONFIG, .yes, .dom 7, 48, 432, 0⟩, ⟨Op.CAN_ENABLE, .no, .dom 7, 4, 4, 0⟩,
   ⟨Op.CAN_DISABLE, .no, .dom 7, 4, 4, 0⟩, ⟨Op.CAN_SEND, .no, .dom 7, 12, 76, 0⟩, ⟨Op.CAN_ABORT, .no, .dom 7, 8, 8, 0⟩,
   ⟨Op.CAN_RECOVER, .no, .dom 7, 4, 4, 0⟩, ⟨Op.CAN_STATUS, .no, .none, 4, 4, 116⟩]

/-- RED opcodes. -/
def opsRed : List OpInfo :=
  [⟨Op.RED_CONFIG, .yes, .dom 11, 8, 8, 0⟩, ⟨Op.RED_JOIN, .yes, .dom 11, 0, 0, 0⟩, ⟨Op.RED_LEAVE, .yes, .dom 11, 0, 0, 0⟩,
   ⟨Op.RED_MAINTENANCE, .yes, .dom 11, 4, 4, 0⟩, ⟨Op.RED_SWITCHOVER, .yes, .dom 11, 0, 0, 0⟩,
   ⟨Op.RED_STATUS, .no, .none, 0, 0, 48⟩]

/-- EVR opcodes. -/
def opsEvr : List OpInfo :=
  [⟨Op.EVR_READ_SEQ, .no, .none, 8, 8, 0⟩, ⟨Op.EVR_READ_TIME, .no, .none, 36, 36, 0⟩, ⟨Op.EVR_FREEZE, .no, .none, 4, 4, 0⟩,
   ⟨Op.EVR_THAW, .no, .none, 0, 0, 0⟩, ⟨Op.EVR_CLEAR, .yes, .none, 0, 0, 0⟩, ⟨Op.EVR_CONFIG, .yes, .none, 8, 8, 0⟩,
   ⟨Op.EVR_STATUS, .no, .none, 0, 0, 52⟩]

/-- KEY opcodes. -/
def opsKey : List OpInfo :=
  [⟨Op.KEY_LOAD, .yes, .dom 9, 108, 65535, 0⟩, ⟨Op.KEY_GENERATE, .yes, .dom 9, 8, 8, 0⟩,
   ⟨Op.KEY_DERIVE, .yes, .dom 9, 108, 172, 0⟩, ⟨Op.KEY_DELETE, .yes, .dom 9, 4, 4, 0⟩,
   ⟨Op.KEY_EXPORT_WRAPPED, .yes, .dom 9, 8, 8, 0⟩, ⟨Op.KEY_CRYPT, .no, .dom 9, 76, 65535, 0⟩,
   ⟨Op.KEY_ATTEST, .no, .dom 9, 36, 36, 544⟩, ⟨Op.KEY_SLOT_INFO, .no, .none, 4, 4, 32⟩]

/-- The rows of every opcode. -/
def opTable : List OpInfo := opsSys ++ opsCyc ++ opsStn ++ opsMet ++ opsSolv ++ opsHlt ++ opsNet ++ opsRtc ++ opsCan ++ opsRed ++ opsEvr ++ opsKey

/-- The row of an opcode; `none` for a value that R120 does not list. -/
def opInfo (op : Nat) : Option OpInfo := opTable.find? (·.op == op)

/-- The opcodes that RECOVERY accepts (R136). [DEDUCED, log entry 45] -/
def recoveryOps : List Nat :=
  [Op.SYS_HELLO, Op.SYS_GET_INFO, Op.SYS_READ, Op.SYS_FW_WRITE, Op.SYS_FW_ACTIVATE, Op.SYS_RESET]

end Sys2Proof.Machine
end

