-- ==== Sys2Proof/Machine/Host.lean ====
section
/-! DEFINITION. A host command from arrival to status: order, the checks of R103, authorisation, completion and
notification (spec 03, R98 to R118). -/

namespace Sys2Proof.Machine

/-- How a command's execution ends. -/
inductive CmdEnd where
  /-- With a status, RESULT0, RESULT1 and reply bytes. -/
  | done (st : Status) (r0 r1 : Nat) (reply : List Byte)
  /-- Not yet: the started command waits. -/
  | later (w : WaitFor)
  deriving DecidableEq, Repr

/-- A status without reply. -/
abbrev CmdEnd.st (st : Status) (r0 : Nat := 0) (r1 : Nat := 0) : CmdEnd := .done st r0 r1 []

namespace Cmd

def opcode (c : Cmd) : Nat := fieldAt c.entry 0 2
def tag (c : Cmd) : Nat := fieldAt c.entry 2 2
/-- The parameter length of the header. -/
def len (c : Cmd) : Nat := fieldAt c.entry 4 2
def flags (c : Cmd) : BitVec 16 := BitVec.ofNat 16 (fieldAt c.entry 6 2)
/-- ORDER (R64). -/
def order (c : Cmd) : Nat := field c.flags 1 0
def wantsNotify (c : Cmd) : Bool := bit c.flags 2
def auth (c : Cmd) : Bool := bit c.flags 3
def ext (c : Cmd) : Bool := bit c.flags 4
def session (c : Cmd) : Nat := fieldAt c.entry 8 4
/-- Deadline in µs after arrival; 0 means none. -/
def deadline (c : Cmd) : Nat := fieldAt c.entry 12 4
def replyAddr (c : Cmd) : Nat := fieldAt c.entry 0x18 8
/-- Length of the reply buffer: none without EXT (R98, R100). -/
def replyLen (c : Cmd) : Nat := if c.ext then fieldAt c.entry 0x20 4 else 0
/-- The operator slot of the trailer (R107). -/
def authSlot (c : Cmd) : Nat := fieldAt c.entry 0x28 2
def authCounter (c : Cmd) : Nat := fieldAt c.entry 0x2C 4
/-- The parameter field of `n` bytes at an offset. -/
def p (c : Cmd) (off n : Nat) : Nat := fieldAt c.params off n
def fromRing (c : Cmd) : Bool := match c.chan with | .ring _ => true | .eth .. => false

/-- Two commands of one ring for R64: one host ring, or one datagram (R113). -/
def sameRing (c d : Cmd) : Bool :=
  match c.chan, d.chan with
  | .ring n, .ring m => n == m
  | .eth a x _, .eth b y _ => a == b && x == y
  | _, _ => false

end Cmd

/-- The reply given, when it fits the reply buffer; otherwise ST_BAD_LENGTH with the bytes needed (R100). RESULT0 and
RESULT1 hold the number of reply bytes (R101). -/
def replyOr (c : Cmd) (bytes : List Byte) : CmdEnd :=
  let n := bytes.length
  if n ≤ c.replyLen then .done .ok (n % 65536) (n / 65536) bytes else .st .badLength n

/-- The status refused under step 2 of R635. -/
def badLen (need : Nat) : CmdEnd := .st .badLength (satTo 16 need) (satTo 16 need)

namespace State

/-! ### Rings -/

/-- Entries of both rings of pair `n` (R90). -/
def ringSize (s : State) (n : Nat) : Nat := 2 ^ s.regField (R.CMD_RING_CFG n) 7 4

/-- Commands of ring `n` in flight. -/
def ringInflight (s : State) (n : Nat) : Nat :=
  (s.host.inflight.filter fun x => x.2.chan == .ring n).length

/-- The shadow word: submission head and status tail (R94). -/
def writeShadow (n : Nat) (s : State) : State :=
  s.emitHost (.hostWrite (s.reg64 (R.CMD_RING_SHADOW_LO n) (R.CMD_RING_SHADOW_HI n))
    (leBytes 4 (s.reg (R.CMD_RING_SQ_HEAD n)).toNat ++ leBytes 4 (s.reg (R.CMD_RING_CQ_TAIL n)).toNat))

/-- A ring enters ERROR (R92, R94). -/
def ringError (n cause : Nat) (s : State) : State :=
  ((s.setRegField (R.CMD_RING_STATUS n) 1 0 3).setRegField (R.CMD_RING_STATUS n) 7 4 cause).raise 24
    Ev.CMD_RING_ERROR n cause

/-- The 16 bytes of a status (R101). -/
def statusBytes (s : State) (tag : Nat) (st : Status) (r0 r1 : Nat) : List Byte :=
  leBytes 2 tag ++ leBytes 2 st.code ++ leBytes 2 r0 ++ leBytes 2 r1 ++ leBytes 4 s.nowSec ++ leBytes 4 (s.now % 2 ^ 32)

/-- Posts a status entry to a ring: reply data, entry, shadow word and MSI-X message, in that order (R94, R106). -/
def postStatus (n : Nat) (c : Cmd) (st : Status) (r0 r1 : Nat) (reply : List Byte) (s : State) : State :=
  let s := if reply.isEmpty then s else s.emitHost (.hostWrite c.replyAddr reply)
  let tail := (s.reg (R.CMD_RING_CQ_TAIL n)).toNat
  let s := s.emitHost (.hostWrite (s.reg64 (R.CMD_RING_CQ_BASE_LO n) (R.CMD_RING_CQ_BASE_HI n) + 16 * tail)
    (s.statusBytes c.tag st r0 r1))
  let s := s.setReg (R.CMD_RING_CQ_TAIL n) (BitVec.ofNat 32 ((tail + 1) % s.ringSize n))
  let s := s.writeShadow n
  if c.wantsNotify then s.msix (s.regField (R.CMD_RING_CFG n) 11 8) else s

/-- The reply item of a datagram (R115). -/
def replyItem (s : State) (c : Cmd) (st : Status) (r0 r1 : Nat) (reply : List Byte) : List Byte :=
  s.statusBytes c.tag st r0 r1 ++ leBytes 4 reply.length ++ zeros 4 ++ padTo (8 * ((reply.length + 7) / 8)) reply

/-- The reply datagram: its header and its items in request order (R115, R116). -/
def replyBytes (d : Datagram) : List Byte :=
  leBytes 2 0x5A47 ++ [0x01, 0x01] ++ leBytes 1 d.items ++ zeros 3 ++ leBytes 4 d.seq ++ leBytes 4 d.echo ++
    (d.replies.map (·.2)).flatten

/-- Sends the reply of a request and keeps it among the last 8 of the association (R116, R117). -/
def sendReply (d : Datagram) (s : State) : State :=
  let bytes := replyBytes d
  let s := { s with host := { s.host with
    assocs := tmod (fun a : Assoc => { a with kept := ((d.seq, bytes) :: a.kept).take 8 }) s.host.assocs d.assoc } }
  s.sendDatagram d.assoc d.addr d.port bytes

/-- Adds an item's reply to its datagram, and sends the reply when every item has completed. -/
def postItem (dg item : Nat) (c : Cmd) (st : Status) (r0 r1 : Nat) (reply : List Byte) (s : State) : State :=
  match tget s.host.datagrams dg with
  | none => s
  | some d =>
    let d := { d with replies := tput d.replies item (s.replyItem c st r0 r1 reply) }
    if d.replies.length < d.items then
      { s with host := { s.host with datagrams := tput s.host.datagrams dg d } }
    else sendReply d { s with host := { s.host with datagrams := tdel s.host.datagrams dg } }

/-- What every completion does whatever the channel: counters, the event of ST_INTERNAL, and the status itself
(R89, R94, R123, R124). -/
def post (c : Cmd) (st : Status) (r0 r1 : Nat) (reply : List Byte) (s : State) : State :=
  let s := if st = .busy then s.bump R.CMD_BUSY_COUNT 1 else s
  let s := if st = .internal then s.raise srcHost Ev.CMD_INTERNAL c.opcode c.tag else s
  match c.chan with
  | .ring n => s.postStatus n c st r0 r1 reply
  | .eth _ dg item => s.postItem dg item c st r0 r1 reply

/-- Tells the commands behind a completed one, and its ring, how it ended (R64, R103 step 7). -/
def tellFollowers (id : Nat) (c : Cmd) (st : Status) (s : State) : State :=
  let upd (d : Cmd) : Cmd := if d.prevId = some id then { d with prevId := none, prevEnd := some (c.tag, st) } else d
  let last := match c.chan with
    | .ring n => modNth (fun l : RingLast => if l.id = some id then ⟨none, some (c.tag, st)⟩ else l) s.host.last n
    | .eth .. => s.host.last
  { s with host := { s.host with inflight := s.host.inflight.map fun x => (x.1, upd x.2), last := last } }

/-- Writes the status of the command in flight under a number and frees its place (R94, R101, R102). -/
def completeNow (id : Nat) (st : Status) (r0 r1 : Nat) (reply : List Byte) (s : State) : State :=
  match tget s.host.inflight id with
  | none => s
  | some c =>
    let s := { s with host := { s.host with inflight := tdel s.host.inflight id } }
    (s.tellFollowers id c st).post c st r0 r1 reply

/-- Completes the command in flight under a number. While Bus Master Enable is 0 the status entry of a ring command
waits, and the command keeps its place (R95, R102). -/
def complete (id : Nat) (st : Status) (r0 r1 : Nat) (reply : List Byte) (s : State) : State :=
  match tget s.host.inflight id with
  | none => s
  | some c =>
    if s.host.bme || !c.fromRing then s.completeNow id st r0 r1 reply
    else if c.wait = some .busMaster then s
    else
      { s with host := { s.host with
        inflight := tmod (fun c : Cmd => { c with wait := some .busMaster }) s.host.inflight id,
        ended := s.host.ended ++ [(id, st, r0, r1, reply)] } }

/-- Completes every command that waits for something (R149, R293, R355, R476). -/
def completeWaiting (w : WaitFor) (st : Status) (r0 : Nat) (s : State) : State :=
  (s.host.inflight.filter fun x => x.2.wait == some w).foldl (fun s x => s.complete x.1 st r0 0 []) s

/-! ### Order and authorisation -/

/-- Whether the command may start (step 6 of R103 under R64): its own wait, and no barrier before it. -/
def mayStart (s : State) (id : Nat) (c : Cmd) : Bool :=
  let earlier := s.host.inflight.filter fun x => decide (x.1 < id) && x.2.sameRing c
  !(earlier.any fun x => x.2.order == 2) &&
    (if c.order = 1 then c.prevId.isNone else if c.order = 2 then earlier.isEmpty else true)

/-- An IN_USE slot: while PD_SEC is not ON the working copies are zeroed and none is (R150).
[DEDUCED, log entry 122] -/
def slotInUse (s : State) (n : Nat) : Option Slot :=
  match tget s.key.slots n with
  | some k => if k.isSealed || !s.domOn 9 then none else some k
  | none => none

/-- An IN_USE slot with the OPERATOR flag (R540). -/
def operatorSlot (s : State) (n : Nat) : Option Slot :=
  match s.slotInUse n with
  | some k => if bit k.attr 20 then some k else none
  | none => none

/-- A store with no IN_USE OPERATOR slot (R553). -/
def unprovisioned (s : State) : Bool :=
  !(s.domOn 9 && s.key.slots.any fun x => !x.2.isSealed && bit x.2.attr 20)

/-- The lockout of R110 lasts. [DEDUCED, log entry 33] -/
def lockedOut (s : State) : Bool :=
  match s.host.lockUntil with
  | some t => decide (s.raw < t)
  | none => false

/-- The message that the CMAC of the trailer covers (R107). -/
def authMessage (c : Cmd) : List Byte :=
  slice c.entry 0 0x28 ++ (if c.ext then c.params else []) ++ slice c.entry 0x28 8

/-- The channel number that EV_CMD_AUTH_FAIL carries (R124). -/
def chanNumber (c : Cmd) : Nat := match c.chan with | .ring n => n | .eth .. => 0xFF

/-- A refusal with ST_AUTH_FAIL is counted and logged; the eighth within 60 s starts the lockout (R110, R124). -/
def authFailed (c : Cmd) (s : State) : State :=
  let s := (s.bump16 R.CMD_AUTH_FAILS 1).raise srcHost Ev.CMD_AUTH_FAIL c.authSlot (c.opcode + 0x10000 * chanNumber c)
  let recent := (s.host.authFails.filter fun t => decide (s.raw < t + rawUs 60000000)) ++ [s.raw]
  if recent.length < 8 then { s with host := { s.host with authFails := recent } }
  else
    { s with host := { s.host with authFails := [], lockUntil := some (s.raw + rawUs 60000000) } }.raise 24
      Ev.CMD_AUTH_LOCKOUT 60 0

/-- Step 9 of R103 for a command that is verified (R107 to R111, R554): the status on refusal, or the state with the
counter stored. [DEDUCED, log entry 33] -/
def authorise (c : Cmd) (s : State) : State × Option CmdEnd :=
  if s.lockedOut then (s, some (.st .authLockout))
  else if !c.auth then (s, some (.st .authRequired))
  else
    match s.operatorSlot c.authSlot with
    | none => (s, some (.st .authSlot))
    | some k =>
      if fieldAt c.entry 0x2A 2 ≠ 0 ∨ Config.aesCmac k.key (authMessage c) ≠ slice c.entry 0x30 16 then
        (s.authFailed c, some (.st .authFail))
      else
        let old := (tget s.key.counters c.authSlot).getD 0
        if c.authCounter ≤ old then (s, some (.st .authReplay (old % 65536) (old / 65536)))
        else if s.pwr.feramHold then (s, some (.st .busy 3))
        else
          let s := { s with key := { s.key with counters := tput s.key.counters c.authSlot c.authCounter } }
          (s.raise srcHost Ev.CMD_AUTHORISED (c.opcode + 0x10000 * c.authSlot) c.authCounter, none)

/-- The import of an operator slot, the one command that an UNPROVISIONED store accepts without a trailer (R553). -/
def operatorImport (c : Cmd) : Bool :=
  c.opcode == Op.KEY_LOAD && c.p 8 2 == 0xFFFF && bit (BitVec.ofNat 32 (c.p 4 4)) 20

/-- Whether an address names a privileged register (R87). -/
def privileged (a : Nat) : Bool := match regRow a with | some (r, _, _) => r.priv | none => false

/-- A SYS_WRITE that names a privileged register (R121). -/
def namesPrivileged (c : Cmd) : Bool :=
  let n := (c.params.length - 12) / 4
  (List.range n).any fun i => privileged (c.p 0 8 + 4 * i)

/-- Step 9 for any command: RECOVERY takes no trailer (R136), an UNPROVISIONED store accepts one import (R553).
[DEDUCED, log entry 33] -/
def step9 (i : OpInfo) (c : Cmd) (s : State) : State × Option CmdEnd :=
  if s.phase = 6 then (s, if c.auth then some (.st .authSlot) else none)
  else
    let needs := match i.auth with | .no => false | .yes => true | .privileged => namesPrivileged c
    if !needs && !c.auth then (s, none)
    else if s.unprovisioned && !c.auth && operatorImport c then
      (s, if c.fromRing then none else some (.st .authRequired))
    else if s.unprovisioned && !c.auth && !s.lockedOut then (s, some (.st .authSlot))
    else s.authorise c

/-- Step 10 of R103: the refusal when the domain is not ON. -/
def step10 (i : OpInfo) (s : State) : Option CmdEnd :=
  match i.dom with
  | .none => none
  | .dom k => if s.domOn k then none else some (.st .domainOff k)
  | .anySolver => if s.domOn 2 || s.domOn 3 || s.domOn 4 || s.domOn 5 then none else some (.st .domainOff 2)

/-- Step 7 of R103. -/
def step7 (c : Cmd) : Option CmdEnd :=
  if c.order = 1 then
    match c.prevEnd with
    | some (tag, st) => if st = .ok ∨ st = .pending then none else some (.st .chainBroken tag)
    | none => none
  else none

/-- Step 8 of R103: RESULT0 is the lateness in ms (R104, R123). [DESIGN CHOICE, log entry 14] -/
def step8 (c : Cmd) (s : State) : State × Option CmdEnd :=
  let limit := c.arrival + usToUnits c.deadline
  if c.deadline ≠ 0 ∧ limit ≤ s.now then
    let (ms, s) := s.roundFree 77 (((s.now - limit) * 1000 : Nat) : Int) (2 ^ 32)
    (s, some (.st .deadline (satTo 16 ms.toNat)))
  else (s, none)

/-- Steps 7 to 12 of R103 for a command that may start. -/
def runChecked (i : OpInfo) (c : Cmd) (body : Cmd → State → State × CmdEnd) (s : State) : State × CmdEnd :=
  match step7 c with
  | some e => (s, e)
  | none =>
    let (s, r) := s.step8 c
    match r with
    | some e => (s, e)
    | none =>
      let (s, r) := s.step9 i c
      match r with
      | some e => (s, e)
      | none =>
        match s.step10 i with
        | some e => (s, e)
        | none => body c s

/-- Ends a command as its execution says. -/
def finish (id : Nat) : State × CmdEnd → State
  | (s, .done st r0 r1 reply) => s.complete id st r0 r1 reply
  | (s, .later w) =>
    { s with host := { s.host with inflight := tmod (fun c : Cmd => { c with wait := some w }) s.host.inflight id } }

/-- The meaning of a host command row: the command in flight under `id`, when it has this opcode, has not started and
may start (step 6), goes through steps 7 to 12 with `body` as its execution. Otherwise nothing happens. -/
def runHost (op id : Nat) (body : Cmd → State → State × CmdEnd) (s : State) : State :=
  match tget s.host.inflight id, opInfo op with
  | some c, some i =>
    if c.opcode = op ∧ c.wait = none ∧ s.mayStart id c then finish id (runChecked i c body s) else s
  | _, _ => s

/-! ### Arrival (R98 to R103, steps 1 to 5) -/

/-- The parameter lengths that the entry's layout allows (R98). -/
def layoutMax (c : Cmd) : Nat := if c.ext then 65535 else if c.auth then 24 else 48

/-- Steps 1 to 5 of R103; `bufOk` tells whether the parameter buffer could be read. A length that only the layout of R98
forbids is answered with the opcode's bounds. [DEDUCED, log entry 31; DESIGN CHOICE, log entry 146] -/
def early (c : Cmd) (bufOk : Bool) (s : State) : Option CmdEnd :=
  if c.session ≠ (s.reg R.CMD_SESSION).toNat ∧ c.opcode ≠ Op.SYS_HELLO then some (.st .sessionStale)
  else if 32 ≤ c.flags.toNat ∨ c.order = 3 ∨ (c.ext ∧ fieldAt c.entry 0x24 4 ≠ 0) ∨
      (c.ext ∧ !c.fromRing ∧ !allZero (slice c.entry 0x10 16)) then some (.st .badFlags)
  else
    match opInfo c.opcode with
    | none => some (.st .badOpcode)
    | some i =>
      if s.phase = 6 ∧ ¬ c.opcode ∈ recoveryOps then some (.st .badOpcode)
      else if c.len < i.minLen ∨ i.maxLen < c.len ∨ layoutMax c < c.len ∨ 65535 < c.replyLen then
        some (.st .badLength (satTo 16 i.minLen) (satTo 16 i.maxLen))
      else if c.replyLen < i.reply then some (.st .badLength i.reply)
      else if !bufOk then some (.st .bufFault)
      else none

/-- How many commands of the Ethernet channel are in flight. -/
def ethInflight (s : State) : Nat :=
  (s.host.inflight.filter fun x => match x.2.chan with | .eth .. => true | .ring _ => false).length

/-- The in-flight limit of the Ethernet channel: 0 means 32 (R90). -/
def ethLimit (s : State) : Nat :=
  let n := s.regField R.CMD_ETH_CFG 15 8
  if n = 0 then 32 else n

/-- Whether an in-flight place is free for a command of a channel (R102). -/
def placeFree (s : State) (ch : Chan) : Bool :=
  decide (s.host.inflight.length < 128) &&
    match ch with
    | .ring _ => true
    | .eth .. => decide (s.ethInflight < s.ethLimit)

/-- A command takes its in-flight place and passes or fails steps 1 to 5. -/
def takeCmd (c : Cmd) (bufOk : Bool) (s : State) : State :=
  let id := s.host.nextId
  let s := { s with host := { s.host with inflight := tput s.host.inflight id c, nextId := id + 1 } }
  let s := s.regMax R.CMD_INFLIGHT_PEAK s.host.inflight.length
  let s := match c.chan with
    | .ring n => { s with host := { s.host with last := modNth (fun _ => ⟨some id, none⟩) s.host.last n } }
    | .eth .. => s
  match s.early c bufOk with
  | some (.done st r0 r1 reply) => s.complete id st r0 r1 reply
  | _ => s

/-- A relaxed command that finds no place completes at once with ST_BUSY (R102). -/
def refuseBusy (c : Cmd) (s : State) : State :=
  let s := s.post c .busy 1 0 []
  match c.chan with
  | .ring n => { s with host := { s.host with last := modNth (fun _ => ⟨none, some (c.tag, .busy)⟩) s.host.last n } }
  | .eth .. => s

/-- The command that an item of a datagram or a ring entry makes. -/
def mkCmd (s : State) (ch : Chan) (entry params : List Byte) (prev : RingLast) : Cmd :=
  { chan := ch, entry := padTo 64 entry, params := params, arrival := s.now, prevId := prev.id, prevEnd := prev.done,
    wait := none }

/-- The item before item `k` of a datagram: still in flight, or ended (R113). -/
def prevItem (s : State) (dg k : Nat) : RingLast :=
  if k = 0 then ⟨none, none⟩
  else
    match s.host.inflight.find? fun x => match x.2.chan with | .eth _ d i => d == dg && i + 1 == k | .ring _ => false with
    | some x => ⟨some x.1, none⟩
    | none =>
      match tget s.host.datagrams dg with
      | some d =>
        match tget d.replies (k - 1) with
        | some b => ⟨none, some (fieldAt b 0 2, if fieldAt b 2 2 = 0 then .ok else if fieldAt b 2 2 = 1 then .pending
                                                else .internal)⟩
        | none => ⟨none, none⟩
      | none => ⟨none, none⟩

/-- Lets the waiting items of one datagram arrive, in order, while places are free: a relaxed item that finds none is
answered ST_BUSY, an ordered one waits (R102, R113). [DEDUCED, log entry 31] -/
def admitItems (dg : Nat) : Nat → State → State
  | 0, s => s
  | fuel + 1, s =>
    match tget s.host.datagrams dg with
    | none => s
    | some d =>
      match d.todo with
      | [] => s
      | (entry, params) :: rest =>
        let c := { s.mkCmd (.eth d.assoc dg d.next) entry params (s.prevItem dg d.next) with arrival := d.arrival }
        let s' := { s with host := { s.host with
          datagrams := tput s.host.datagrams dg { d with todo := rest, next := d.next + 1 } } }
        if s.placeFree c.chan then admitItems dg fuel (s'.takeCmd c true)
        else if c.order = 0 then admitItems dg fuel (s'.refuseBusy c)
        else s

/-- Lets waiting items arrive after a place has become free. -/
def admitWaiting (s : State) : State :=
  (s.host.datagrams.map (·.1)).foldl (fun s dg => s.admitItems dg 16) s

end State

/-- A host command row as an outcome. -/
def hostRow (op id : Nat) (body : Cmd → State → State × CmdEnd) (s : State) : Res :=
  .next (State.admitWaiting (s.runHost op id body))

/-- A command that STANDBY and SILENT refuse (R517). -/
def roleGate (s : State) (k : State × CmdEnd) : State × CmdEnd :=
  if s.regField R.RED_ROLE 2 0 = 2 ∨ s.regField R.RED_ROLE 2 0 = 3 then (s, .st .role) else k

/-- A command whose FeRAM write the hold of R127 defers (R123). -/
def feramGate (s : State) (k : State × CmdEnd) : State × CmdEnd :=
  if s.pwr.feramHold then (s, .st .busy 3) else k

/-- The offset of the first parameter that fails. -/
def firstBad : List (Bool × Nat) → Option Nat
  | [] => none
  | (bad, off) :: rest => if bad then some off else firstBad rest

end Sys2Proof.Machine
end

