-- ==== Sys2Proof/Machine/HltOps.lean ====
section
/-! DEFINITION. Spares and reserve: the shared operations of every spare bring-in, retire-due cores, machine checks,
memory rows and FeRAM sectors (spec 17, R589 to R600). -/

namespace Sys2Proof.Machine

/-- A cache line's address (R184). -/
def lineOf (addr : Nat) : Nat := addr / 64 * 64

/-- Spares built in each group of a kind (R589). -/
def sparesBuilt (kind : Nat) : Nat := nth 1 [1, 8, 16, 32, 16, 32, 48, 1] kind

/-- The percentage left of a group. -/
def groupPercent (kind used : Nat) : Nat := 100 * (sparesBuilt kind - used) / sparesBuilt kind

/-- The smallest reserve over all groups and the kind that sets it (R590). -/
def reserveOf (used : List (List Nat)) : Nat × Nat :=
  (used.mapIdx fun k gs => (k, gs)).foldl (fun m x =>
    x.2.foldl (fun m u => if groupPercent x.1 u < m.1 then (groupPercent x.1 u, x.1) else m) m) (100, 0)

/-- The cluster of a physical core. -/
def coreCluster (phys : Nat) : Nat := if phys < 9 then 0 else 1
/-- The physical core built as a cluster's spare (R24). -/
def spareCore (cluster : Nat) : Nat := if cluster = 0 then 8 else 17

namespace State

/-- Spares used in a group. -/
def spareUsed (s : State) (kind group : Nat) : Nat := nth 0 (nth [] s.hlt.maps.used kind) group
/-- A group has a spare left. -/
def spareLeft (s : State) (kind group : Nat) : Bool := decide (s.spareUsed kind group < sparesBuilt kind)

/-- Shows the spare maps and the ledger in the registers (R589, R590). -/
def hltShow (s : State) : State :=
  let u := s.hlt.maps.used
  let s := (List.range 8).foldl (fun s k =>
    let gs := nth [] u k
    let w := sparesBuilt k * gs.length + 2 ^ 9 * gs.foldl (· + ·) 0 + 2 ^ 18 * gs.countP fun x => decide (sparesBuilt k ≤ x)
    s.setReg (R.HLT_SPARES k) (BitVec.ofNat 32 w)) s
  let (p, k) := reserveOf u
  let l := s.hlt.ledger
  let sec := l.equiv / 2 ^ 32
  let s := s.setReg R.HLT_RESERVE (BitVec.ofNat 32 (p + (if s.hlt.fromDefault then 128 else 0) + 256 * k))
  let s := s.setReg R.HLT_LIFE_USED (BitVec.ofNat 32 (satTo 16 (sec * 10000 / 946728000)))
  let s := s.setReg64 R.HLT_EQUIV_S_LO R.HLT_EQUIV_S_HI sec
  (s.setReg R.HLT_POWER_HOURS (BitVec.ofNat 32 (l.powered / 3600))).setReg R.HLT_POWER_CYCLES (BitVec.ofNat 32 l.cycles)

/-- Writes the ledger and the spare maps to persistent configuration (R588). -/
def ledgerWrite (s : State) : State :=
  let s := { s with hlt := { s.hlt with ledger := { s.hlt.ledger with written := s.nowSec }, ledgerRaw := s.raw } }
  s.updNv fun n => { n with ledger := s.hlt.ledger, maps := s.hlt.maps }

/-- A spare has been used: its unit is retired, the ledger is written, EV_HLT_SPARED and vector 21 follow, and
EV_HLT_RESERVE when the reserve has fallen (R600). -/
def spared (kind group unit : Nat) (s : State) : State :=
  let before := (reserveOf s.hlt.maps.used).1
  let m := s.hlt.maps
  let m := { m with used := modNth (fun gs => modNth (· + 1) gs group) m.used kind, units := m.units ++ [(kind, unit)] }
  let s := ({ s with hlt := { s.hlt with maps := m } }.hltShow).ledgerWrite
  let s := (s.raise srcSup Ev.HLT_SPARED (kind + 0x100 * group) unit).notify 21
  if (reserveOf m.used).1 < before then s.raise srcSup Ev.HLT_RESERVE (s.reg R.HLT_RESERVE).toNat 0 else s

/-- A spare fails its own test: it is retired without entering service and counts as used (R590). -/
def spareLost (kind group unit : Nat) (s : State) : State :=
  let before := (reserveOf s.hlt.maps.used).1
  let m := s.hlt.maps
  let m := { m with used := modNth (fun gs => modNth (· + 1) gs group) m.used kind, units := m.units ++ [(kind, unit)] }
  let s := ({ s with hlt := { s.hlt with maps := m } }.hltShow).ledgerWrite
  if (reserveOf m.used).1 < before then s.raise srcSup Ev.HLT_RESERVE (s.reg R.HLT_RESERVE).toNat 0 else s

/-- A bring-in finds its group empty (R599). -/
def noSpare (kind group unit : Nat) (s : State) : State :=
  s.raise srcSup Ev.HLT_NO_SPARE (kind + 0x100 * group) unit

/-- A FeRAM sector whose write fails its read-back is replaced at that write (R597). -/
def sectorSpare (addr : Nat) (s : State) : State :=
  let a := addr / 256 * 256
  if s.spareLeft 6 0 then s.spared 6 0 a else s.noSpare 6 0 a

/-- The logical core that a physical core stands behind. -/
def logicalOf (s : State) (phys : Nat) : Option Nat := (List.range 16).find? fun l => (s.core l).phys == phys

/-- A core becomes retire-due (R592): 1 sensor, 2 machine checks, 3 self-test. Without a spare it stays in service, or
after a failed self-test its logical core is left without a core (R595). -/
def retireDue (phys cause : Nat) (s : State) : State :=
  match s.logicalOf phys with
  | none => s
  | some l =>
    if s.hlt.maps.retired.contains phys then s
    else if s.hlt.due.any fun d => d.phys == phys then
      { s with hlt := { s.hlt with
        due := s.hlt.due.map fun d => if d.phys = phys then { d with failed := d.failed || cause == 3 } else d } }
    else if s.hlt.noSpare.contains phys then
      if cause = 3 ∧ !s.hlt.dead.contains l then { s with hlt := { s.hlt with dead := l :: s.hlt.dead } } else s
    else
      let s := s.raise srcSup Ev.HLT_RETIRE_DUE phys cause
      let c := coreCluster phys
      if s.spareLeft 0 c then
        { s with hlt := { s.hlt with due := s.hlt.due ++ [⟨phys, false, s.raw, none, cause == 3⟩] } }
      else
        let s := { s with hlt := { s.hlt with noSpare := phys :: s.hlt.noSpare,
                                              dead := if cause = 3 then l :: s.hlt.dead else s.hlt.dead } }
        s.noSpare 0 c phys

/-- A machine check on a physical core: the second within 24 h makes it retire-due (R592). -/
def machineCheck (phys : Nat) (s : State) : State :=
  let recent := (((tget s.hlt.checks phys).getD []).filter fun t => decide (s.raw < t + rawUs 86400000000)) ++ [s.raw]
  let s := { s with hlt := { s.hlt with checks := tput s.hlt.checks phys recent } }
  if 2 ≤ recent.length then s.retireDue phys 2 else s

/-- A core runs instructions: a task is on it and its cluster is powered. -/
def coreRuns (s : State) (l : Nat) : Bool :=
  ((s.core l).mode == .running || (s.core l).mode == .handler) && s.domOn (coreDomain l)

/-- The third parity failure in a row on a line of either cache: EV_LC_MACHINE_CHECK and a MACHINE_CHECK trap (R184).
[DESIGN CHOICE, log entry 59] -/
def parityTrap (l addr : Nat) (s : State) : State :=
  let phys := (s.core l).phys
  let line := lineOf addr
  let s := s.raise phys Ev.LC_MACHINE_CHECK (l + 0x100 * phys) (line % 2 ^ 32)
  (s.machineCheck phys).trap l .machineCheck (BitVec.ofNat 64 line)

/-- Parity failures of a line of a core's caches: each line fetched again is counted (R184).
[DESIGN CHOICE, log entry 59] -/
def parityCount (l parity : Nat) (s : State) : State :=
  if parity = 0 then s else s.bump (R.LC_PARITY_REFETCH l) parity

/-- The parity failures of one access to a line: two refetches at most, and the third failure in a row stops it (R184).
[DESIGN CHOICE, log entry 59] -/
def parityMeet (l addr : Nat) (parity : Fin 4) (go : State → State) (s : State) : State :=
  if parity.val = 3 then (s.parityCount l 2).parityTrap l addr else go (s.parityCount l parity)

/-- An upset of RTC_TICK: a flipped bit of a protected word (R27), or parity failures of an instruction line that the core
fetches (R184). [DESIGN CHOICE, log entry 139] -/
def applyUpset (s : State) : Upset → State
  | .word a => s.upset a.toNat
  | .fetch l line fails => if s.coreRuns l then s.parityMeet l line.toNat fails id else s

/-- Cycles counted up to now by the counters that select CK_CORE cycles (800 MHz against 250 MHz). -/
def perfSync (s : State) : State :=
  let n := s.raw * 16 / 5 - s.hlt.perfAt * 16 / 5
  let s := { s with hlt := { s.hlt with perfAt := s.raw } }
  if s.perfRuns then
    (List.range 64).foldl (fun s i =>
      if s.regField (R.HLT_PERF_SEL i) 7 0 = 1 ∧ !s.regBit (R.HLT_PERF_SEL i) 13 then s.perfAdd 64 i n else s) s
  else s

/-- Events that the model counts as they happen: retired instructions, traps, accepted Celkin frames and event
records; counter 0x00 counts nothing, and 0x01 counts with the raw count. [DESIGN CHOICE, log entry 128] -/
def perfExact (ev : Nat) : Bool := ev == 0 || ev == 1 || ev == 0x10 || ev == 0x16 || ev == 0x50 || ev == 0x60

/-- Captures a counter (R604): the events of pipelines, caches, spine and DDR since the last capture are a free
count. [DESIGN CHOICE, log entry 128] -/
def perfCapture (i : Nat) (s : State) : Nat × State :=
  let s := s.perfSync
  let ev := s.regField (R.HLT_PERF_SEL i) 7 0
  let s := if perfExact ev || s.regBit (R.HLT_PERF_SEL i) 13 || !s.perfRuns then s
    else
      let (v, s) := s.draw 11
      s.perfAdd 64 i (v % 2 ^ 48)
  (nth 0 s.hlt.perf i, s)

end State

end Sys2Proof.Machine
end

