-- ==== Sys2Proof/Machine/LogicOps.lean ====
section
/-! DEFINITION. The operand forms and shared operations of the logic-core instructions (spec 05). -/

namespace Sys2Proof.Machine

namespace CoreSt

/-- A general register (R153). -/
def getW (c : CoreSt) (i : Fin 16) : DWord := nth 0 c.w i
def setW (i : Fin 16) (v : DWord) (c : CoreSt) : CoreSt := { c with w := modNth (fun _ => v) c.w i }
/-- A floating-point register, all 64 bits. -/
def getV (c : CoreSt) (i : Fin 16) : DWord := nth 0 c.v i
def setV (i : Fin 16) (v : DWord) (c : CoreSt) : CoreSt := { c with v := modNth (fun _ => v) c.v i }
/-- The operand that an instruction of a precision reads (R154). -/
def getF (c : CoreSt) (dbl : Bool) (i : Fin 16) : Nat :=
  if dbl then (c.getV i).toNat else (c.getV i).toNat % 2 ^ 32
/-- The result that an instruction of a precision writes: an FP32 result clears the upper half (R154). -/
def setF (dbl : Bool) (i : Fin 16) (x : Nat) (c : CoreSt) : CoreSt :=
  c.setV i (BitVec.ofNat 64 (if dbl then x else x % 2 ^ 32))
/-- A condition flag. -/
def flag (c : CoreSt) (k : Fin 4) : Bool := c.c.getLsbD k
def setFlag (k : Fin 4) (b : Bool) (c : CoreSt) : CoreSt := { c with c := setBit c.c k b }
/-- The pc moves past an instruction of `n` bytes. -/
def advance (n : Nat) (c : CoreSt) : CoreSt := { c with pc := c.pc + BitVec.ofNat 40 n }
/-- The rounding mode of FCSR (R166). -/
def rm (c : CoreSt) : Nat := field c.fcsr 1 0
/-- Sets sticky flags of FCSR (R166). -/
def sticky (flags : Nat) (c : CoreSt) : CoreSt := { c with fcsr := c.fcsr ||| BitVec.ofNat 64 flags }
/-- A result with its flags goes to a v register. -/
def putF (dbl : Bool) (d : Fin 16) (r : FpRes) (c : CoreSt) : CoreSt := (c.setF dbl d r.bits).sticky r.flags
/-- A condition goes into a flag (R165). -/
def combine (comb : Comb) (k : Fin 4) (r : Bool) (c : CoreSt) : CoreSt :=
  match comb with
  | .set => c.setFlag k r
  | .and => c.setFlag k (c.flag k && r)
  | .or => c.setFlag k (c.flag k || r)

end CoreSt

/-- Bytes of an instruction with this immediate: 4, or 8 with a literal (R161). -/
def immLen {n : Nat} : Imm n → Nat
  | .short _ => 4
  | .literal _ => 8

/-- The immediate of arithmetic, compare, load and store instructions: sign-extended (R160, R161). -/
def immS {n : Nat} : Imm n → DWord
  | .short v => v.signExtend 64
  | .literal w => w.signExtend 64

/-- The immediate of ANDI, ORI, XORI and MOVHI: a literal is zero-extended (R160, R161). -/
def immZ {n : Nat} : Imm n → DWord
  | .short v => v.signExtend 64
  | .literal w => w.zeroExtend 64

/-- The offset of an image instruction: unsigned (R160, R174). -/
def immU {n : Nat} : Imm n → DWord
  | .short v => v.zeroExtend 64
  | .literal w => w.zeroExtend 64

/-- The conditions of R165. -/
def condOf : Cond → DWord → DWord → Bool
  | .eq, a, b => a == b
  | .ne, a, b => a != b
  | .lt, a, b => a.slt b
  | .ge, a, b => !a.slt b
  | .ltu, a, b => a.ult b
  | .geu, a, b => !a.ult b
  | .tst, a, b => a &&& b != 0

namespace State

/-- Changes a core. -/
def modCore (l : Nat) (f : CoreSt → CoreSt) (s : State) : State := s.setCore l (f (s.core l))

/-- An instruction retires, unless it has trapped: event 0x10 of the performance counters (R602). -/
def retire (l : Nat) (before after : State) : State :=
  if after.reg (R.LC_TRAPS l) = before.reg (R.LC_TRAPS l) then after.perfCount 0x10 l else after

/-- Logical core `l` executes one instruction at its pc: nothing happens while no task runs on it, and a pc outside code
SRAM, where no fetch is permitted, takes a BUS_ERROR trap with the access logged (R39, R163). -/
def onCore (l : Nat) (f : State → State) (s : State) : Res :=
  .next <|
    if s.coreRuns l then
      if inCode (s.core l).pc.toNat then retire l s (f s)
      else (s.accessFault (s.core l).phys (s.core l).pc.toNat).trap l .busError ((s.core l).pc.zeroExtend 64)
    else s

/-- An instruction that changes only its core and moves the pc past its `n` bytes. -/
def coreRow (l n : Nat) (f : CoreSt → CoreSt) (s : State) : Res :=
  s.onCore l fun s => s.modCore l fun c => (f c).advance n

/-- A load's meeting with its memory: parity failures of the line, then uncorrectable errors of the words it needs. It
goes on where none is lost; otherwise the pc moves past its `len` bytes, nothing is written and an imprecise BUS_ERROR
follows (R169, R184). -/
def meetLoad (l addr len : Nat) (parity : Fin 4) (words : List Nat) (go : State → State) (s : State) : State :=
  s.parityMeet l addr parity fun s =>
    match words.find? s.poisoned with
    | none => go s
    | some a =>
      let s := (s.modCore l fun c => c.advance len).eccUncorrectable (a / 8 * 8)
      s.trapAt l .busError (s.core l).pc (BitVec.ofNat 64 a) true

/-- The core continues at an address: the cycle-end address ends the cycle (R157), any other address outside code SRAM
takes a BUS_ERROR trap at fetch, with the access logged (R39, R163). -/
def goto (l : Nat) (target : DWord) (s : State) : State :=
  if target = cycleEnd then s.endCycle l
  else
    let pc := target.truncate 40 &&& ~~~3#40
    let s := s.modCore l fun c => { c with pc := pc }
    if inCode target.toNat then s else (s.accessFault (s.core l).phys target.toNat).trapAt l .busError pc target false

/-- A jump to a register's value: a misaligned target takes a MISALIGNED trap and changes nothing (R163). -/
def jump (l : Nat) (target : DWord) (link : CoreSt → CoreSt) (s : State) : State :=
  if field target 1 0 ≠ 0 then s.trap l .misaligned target
  else (s.modCore l link).goto l target

end State

end Sys2Proof.Machine
end

