-- ==== Sys2Proof/Machine/LogicSys.lean ====
section
/-! DEFINITION. Branches, system functions, fences, HOLDPT and traps of the logic cores, and the words that are no
instruction (spec 05, R155, R157, R160 to R163, R169, R170, R178 to R180). -/

namespace Sys2Proof.Machine

/-! ### Branches (R163) -/

/-- The pc moved by a signed count of words. -/
def pcRel {n : Nat} (off : BitVec n) (c : CoreSt) : CoreSt := { c with pc := c.pc + (off.signExtend 40 <<< 2) }

/-- The pc after the present instruction, as a register value. -/
def CoreSt.linkPc (c : CoreSt) : DWord := (c.pc + 4).zeroExtend 64

/-- B. -/
def execB (l : Fin 16) (off : BitVec 26) (s : State) : Res := s.onCore l fun s => s.modCore l (pcRel off)

/-- BC. -/
def execBc (l : Fin 16) (k : Fin 4) (t : Bool) (off : BitVec 22) (s : State) : Res :=
  s.onCore l fun s => s.modCore l fun c => if c.flag k = t then pcRel off c else c.advance 4

/-- CALL. -/
def execCall (l : Fin 16) (off : BitVec 26) (s : State) : Res :=
  s.onCore l fun s => s.modCore l fun c => pcRel off (c.setW 15 c.linkPc)

/-- JR. -/
def execJr (l a : Fin 16) (s : State) : Res := s.onCore l fun s => s.jump l ((s.core l).getW a) id

/-- CALLR: the target is the value that w[A] held before w[D] is written. -/
def execCallr (l d a : Fin 16) (s : State) : Res :=
  s.onCore l fun s => s.jump l ((s.core l).getW a) fun c => c.setW d c.linkPc

/-! ### NOP and fences: with one in-order sender every earlier access has been performed (R61, R62, R170) -/

/-- NOP. -/
def execNop (l : Fin 16) (s : State) : Res := s.coreRow l 4 id

/-- FENCE.LD. -/
def execFenceLd (l : Fin 16) (s : State) : Res := s.coreRow l 4 id

/-- FENCE.ST. -/
def execFenceSt (l : Fin 16) (s : State) : Res := s.coreRow l 4 id

/-- FENCE.ALL. -/
def execFenceAll (l : Fin 16) (s : State) : Res := s.coreRow l 4 id

/-- FENCE.IO. -/
def execFenceIo (l : Fin 16) (s : State) : Res := s.coreRow l 4 id

/-! ### CWAIT, TRAP, ERET, HOLDPT -/

/-- CWAIT (R157). -/
def execCwait (l : Fin 16) (s : State) : Res := s.onCore l fun s => s.endCycle l

/-- TRAP: a SOFTWARE trap with the code (R178). -/
def execTrap (l : Fin 16) (code : BitVec 12) (s : State) : Res :=
  s.onCore l fun s => s.trap l .software (code.zeroExtend 64)

/-- The instruction word of a system function (R160, R178). -/
def sysWord (d a num func : Nat) : DWord :=
  BitVec.ofNat 64 (0x38 * 2 ^ 26 + d * 2 ^ 22 + a * 2 ^ 18 + num * 2 ^ 10 + func)

/-- ERET (R178, R179). [DEDUCED, log entry 57] -/
def execEret (l : Fin 16) (s : State) : Res :=
  s.onCore l fun s =>
    if (s.core l).mode = .handler then
      (s.modCore l fun c => { c with mode := .running }).goto l (s.core l).tpc
    else s.trap l .illegal (sysWord 0 0 0 0x13)

/-- HOLDPT holds its core in Run, outside a drain, in SOLO or MAINTENANCE, where the core's enable is set; in every
other case it is a NOP that is counted (R180). -/
def execHoldpt (l : Fin 16) (code : BitVec 12) (s : State) : Res :=
  s.onCore l fun s =>
    let c := s.core l
    if s.regBit (R.LC_DEBUG l) 0 ∧ (s.role = 0 ∨ s.role = 4) ∧ s.mode = 1 ∧ !s.isDraining then
      let a := code.toNat + 0x10000 * c.task + 0x1000000 * l.val
      let s := (s.modCore l fun c => c.advance 4).saveTask l .held
      let s := s.raise c.phys Ev.LC_HOLDPT a c.pc.toNat
      ((s.changeMode 2 2).dispatchCore l)
    else (s.modCore l fun c => c.advance 4).bump (R.LC_HOLDPT_SKIPS l) 1

/-! ### System registers (R155) -/

/-- The value of a system register, with the core as the read leaves it; `none` for a number that R155 does not list. -/
def readSys (s : State) (l num : Nat) : Option (DWord × CoreSt) :=
  let c := s.core l
  let n (x : Nat) : Option (DWord × CoreSt) := some (BitVec.ofNat 64 x, c)
  match num with
  | 0x00 => n c.task
  | 0x01 => n (l + 0x100 * c.phys)
  | 0x02 => n (s.cycleNo c.task)
  | 0x03 => n ((s.task c.task).release / 2 ^ 32)
  | 0x04 => n ((s.task c.task).release % 2 ^ 32)
  | 0x05 => some (BitVec.ofNat 64 s.nowSec, { c with timeFrac := BitVec.ofNat 32 (s.now % 2 ^ 32) })
  | 0x06 => n c.timeFrac.toNat
  | 0x07 => n (s.ccountNow c)
  | 0x08 => n (s.inCount c.task)
  | 0x09 => n (s.outCount c.task)
  | 0x0A => n c.qtest.toNat
  | 0x0B => n c.fcsr.toNat
  | 0x0C => n c.tvec.toNat
  | 0x0D => n c.tcause.toNat
  | 0x0E => n c.tpc.toNat
  | 0x0F => n c.tval.toNat
  | _ => none

/-- MFS. -/
def execMfs (l d : Fin 16) (num : Byte) (s : State) : Res :=
  s.onCore l fun s =>
    match readSys s l num.toNat with
    | some (v, c) => s.setCore l ((c.setW d v).advance 4)
    | none => s.trap l .illegal (sysWord d 0 num.toNat 0x20)

/-- A write of a system register; `none` for one that is RO or not listed. -/
def writeSys (num : Nat) (v : DWord) (c : CoreSt) : Option CoreSt :=
  match num with
  | 0x0A => some { c with qtest := v &&& 0xFFFF }
  | 0x0B => some { c with fcsr := v &&& 0x1F3 }
  | 0x0C => some { c with tvec := v }
  | 0x0E => some { c with tpc := v }
  | _ => none

/-- MTS. -/
def execMts (l : Fin 16) (num : Byte) (a : Fin 16) (s : State) : Res :=
  s.onCore l fun s =>
    match writeSys num.toNat ((s.core l).getW a) (s.core l) with
    | some c => s.setCore l (c.advance 4)
    | none => s.trap l .illegal (sysWord 0 a num.toNat 0x21)

/-! ### Errors that return late, and words that are no instruction -/

/-- IMPRECISE_BUS_ERROR: taken at the next instruction boundary (R169). [DEDUCED, log entry 57] -/
def execImpreciseBusError (l : Fin 16) (addr : BitVec 40) (s : State) : Res :=
  .next <| if s.coreRuns l then s.trapAt l .busError (s.core l).pc (addr.zeroExtend 64) true else s

/-- Bits `[hi:lo]` of a word are zero. -/
def fieldZero (w : Word) (hi lo : Nat) : Bool := field w hi lo == 0

/-- An X bit of 1 needs a short immediate of 0 (R161). -/
def immOk (w : Word) (x n : Nat) : Bool := !bit w x || fieldZero w (n - 1) 0

/-- Whether a word is an instruction: its MAJOR and FUNC values are listed, and its reserved and unused fields are 0
(R160 to R178). -/
def legalWord (w : Word) : Bool :=
  let fn := field w 9 0
  let fp := field w 8 0
  let noC := fieldZero w 13 10
  let noB := fieldZero w 17 14
  match field w 31 26 with
  | 0x01 =>
    if fn = 0x30 then fieldZero w 13 12
    else if fn ∈ [0x40, 0x41, 0x42, 0x48, 0x49, 0x4A, 0x4B] then noB && noC
    else noC && (decide (fn ≤ 0x09) || fn ∈ [0x10, 0x11, 0x12, 0x14, 0x15, 0x16, 0x17, 0x20, 0x21, 0x22, 0x23])
  | 0x02 | 0x03 | 0x04 | 0x05 | 0x07 => immOk w 17 17
  | 0x06 => fieldZero w 17 17 && fieldZero w 16 8
  | 0x08 => decide (field w 25 24 < 3) && noC && decide (fn < 7)
  | 0x09 => decide (field w 25 24 < 3) && decide (field w 16 14 < 7) && immOk w 17 14
  | 0x10 | 0x11 | 0x12 | 0x13 | 0x14 | 0x15 | 0x16 | 0x18 | 0x19 | 0x1A | 0x1B | 0x1C | 0x1D | 0x1E | 0x1F =>
    immOk w 17 17
  | 0x20 =>
    decide (field w 3 0 < 10) && fieldZero w 9 7 && (if field w 3 0 = 9 then fieldZero w 13 12 else noC)
  | 0x24 =>
    let op := field w 14 12
    decide (op < 6) && immOk w 11 10 && (!bit w 10 || fieldZero w 21 18) &&
      (if op = 2 ∨ op = 3 then bit w 15 && fieldZero w 17 16 else if op = 5 then fieldZero w 17 16 else true)
  | 0x28 =>
    noC && (if fp ∈ [0, 1, 2, 3, 5, 6] then true
            else noB && decide (fp ∈ [4, 7, 8, 9, 0x10, 0x11, 0x12, 0x13, 0x14, 0x15]))
  | 0x29 => decide (fp < 4)
  | 0x2A => decide (field w 25 24 < 3) && noC && decide (fp < 4)
  | 0x30 | 0x32 => true
  | 0x31 => fieldZero w 22 22
  | 0x33 => noB && noC && (fn == 1 || (fn == 0 && fieldZero w 25 22))
  | 0x38 =>
    let rest := fieldZero w 25 22 && fieldZero w 21 18 && noB && noC
    if fn ∈ [0, 1, 2, 3, 4, 0x10, 0x13] then rest
    else if fn = 0x11 ∨ fn = 0x12 then fieldZero w 25 22
    else if fn = 0x20 then fieldZero w 21 18
    else if fn = 0x21 then fieldZero w 25 22
    else false
  | _ => false

/-- ILLEGAL_INSTRUCTION: a word that is no instruction takes an ILLEGAL trap (R162); a legal word is not this row's. -/
def execIllegalInstruction (l : Fin 16) (word : Word) (s : State) : Res :=
  if legalWord word then .next s else s.onCore l fun s => s.trap l .illegal (word.zeroExtend 64)

end Sys2Proof.Machine
end

