-- ==== Sys2Proof/Decode.lean ====
section
/-! DEFINITION. What words stand for. The opcode table gives no row of this block any bits: a command is an event or a
request of the outside with its operands, and no word of the table stands for it. The instruction words of the logic cores
have formats of their own (spec 05, R160 to R178), which take a word to the row of the instruction that it names. -/

namespace Sys2Proof

open Machine

/-- No row of the table has bits, so no word spells a command. [DEDUCED, log entry 3] -/
def decodeTableWord (_nbits _w : Nat) : Option Instr := none

/-- Bits `[lo+3:lo]` of a word as a register number. -/
def regAt (w : Word) (lo : Nat) : Fin 16 := Fin.ofNat 16 (field w (lo + 3) lo)

/-- Two bits of a word, from bit `lo` on, as the number of a flag. -/
def flagAt (w : Word) (lo : Nat) : Fin 4 := Fin.ofNat 4 (field w (lo + 1) lo)

/-- The immediate of a word whose X bit is bit `x`: its low `n` bits, or the literal (R161). -/
def immAt (n x : Nat) (w lit : Word) : Imm n := if bit w x then .literal lit else .short (w.truncate n)

/-- COMB (R165). -/
def combOf : Nat → Option Comb
  | 0 => some .set
  | 1 => some .and
  | 2 => some .or
  | _ => none

/-- The condition codes of R165. -/
def condCode : Nat → Option Cond
  | 0 => some .eq
  | 1 => some .ne
  | 2 => some .lt
  | 3 => some .ge
  | 4 => some .ltu
  | 5 => some .geu
  | 6 => some .tst
  | _ => none

/-- FUNC [6:5] of an atomic (R171). -/
def orderOf : Nat → AtomicOrder
  | 1 => .acq
  | 2 => .rel
  | 3 => .ar
  | _ => .none

/-- The ALU functions (R164). -/
def decodeAlu (l d a b : Fin 16) (c : Fin 4) : Nat → Option Instr
  | 0x000 => some (.add l d a b)
  | 0x001 => some (.sub l d a b)
  | 0x002 => some (.and l d a b)
  | 0x003 => some (.or l d a b)
  | 0x004 => some (.xor l d a b)
  | 0x005 => some (.andn l d a b)
  | 0x006 => some (.shl l d a b)
  | 0x007 => some (.shr l d a b)
  | 0x008 => some (.sar l d a b)
  | 0x009 => some (.ror l d a b)
  | 0x010 => some (.mul l d a b)
  | 0x011 => some (.mulh l d a b)
  | 0x012 => some (.mulhu l d a b)
  | 0x014 => some (.div l d a b)
  | 0x015 => some (.divu l d a b)
  | 0x016 => some (.rem l d a b)
  | 0x017 => some (.remu l d a b)
  | 0x020 => some (.min l d a b)
  | 0x021 => some (.max l d a b)
  | 0x022 => some (.minu l d a b)
  | 0x023 => some (.maxu l d a b)
  | 0x030 => some (.sel l d a b c)
  | 0x040 => some (.clz l d a)
  | 0x041 => some (.ctz l d a)
  | 0x042 => some (.popc l d a)
  | 0x048 => some (.sextB l d a)
  | 0x049 => some (.sextH l d a)
  | 0x04A => some (.sextW l d a)
  | 0x04B => some (.zextW l d a)
  | _ => none

/-- The immediate shifts (R163): `kind` is IMM17 [7:6]. -/
def decodeShift (l d a : Fin 16) (n : Fin 64) : Nat → Instr
  | 0 => .shli l d a n
  | 1 => .shri l d a n
  | 2 => .sari l d a n
  | _ => .rori l d a n

/-- Loads and stores by MAJOR (R163). A word says nothing of parity failures, which are an operand of the row. -/
def decodeMem (l d a : Fin 16) (imm : Imm 17) : Nat → Option Instr
  | 0x10 => some (.ldb l d a imm 0)
  | 0x11 => some (.ldbu l d a imm 0)
  | 0x12 => some (.ldh l d a imm 0)
  | 0x13 => some (.ldhu l d a imm 0)
  | 0x14 => some (.ldw l d a imm 0)
  | 0x15 => some (.ldwu l d a imm 0)
  | 0x16 => some (.ldd l d a imm 0)
  | 0x18 => some (.stb l d a imm)
  | 0x19 => some (.sth l d a imm)
  | 0x1A => some (.stw l d a imm)
  | 0x1B => some (.std l d a imm)
  | 0x1C => some (.flds l d a imm 0)
  | 0x1D => some (.fldd l d a imm 0)
  | 0x1E => some (.fsts l d a imm)
  | 0x1F => some (.fstd l d a imm)
  | _ => none

/-- The atomics by FUNC [3:0] (R171). -/
def decodeAtomic (l : Fin 16) (dbl : Bool) (ord : AtomicOrder) (d a b : Fin 16) (c : Fin 4) : Nat → Option Instr
  | 0 => some (.aswap l dbl ord d a b)
  | 1 => some (.aadd l dbl ord d a b)
  | 2 => some (.aand l dbl ord d a b)
  | 3 => some (.aor l dbl ord d a b)
  | 4 => some (.axor l dbl ord d a b)
  | 5 => some (.amin l dbl ord d a b)
  | 6 => some (.amax l dbl ord d a b)
  | 7 => some (.aminu l dbl ord d a b)
  | 8 => some (.amaxu l dbl ord d a b)
  | 9 => some (.acas l dbl ord d a b c)
  | _ => none

/-- The image instructions by OP (R174). -/
def decodeImage (l d : Fin 16) (base : Option (Fin 16)) (out : Bool) (k : Fin 4) (off : Imm 10) : Nat → Option Instr
  | 0 => some (.imldI l d base ⟨out, 0⟩ k off)
  | 1 => some (.imldF l d base ⟨out, 0⟩ k off)
  | 2 => some (.imstI l d base off)
  | 3 => some (.imstF l d base off)
  | 4 => some (.imq l d base ⟨out, 0⟩ k off)
  | 5 => some (.imts l d base ⟨out, 0⟩ off)
  | _ => none

/-- The FPU functions by FUNC [8:0] (R167). -/
def decodeFpu (l : Fin 16) (dbl : Bool) (d a b : Fin 16) : Nat → Option Instr
  | 0x000 => some (.fadd l dbl d a b)
  | 0x001 => some (.fsub l dbl d a b)
  | 0x002 => some (.fmul l dbl d a b)
  | 0x003 => some (.fdiv l dbl d a b)
  | 0x004 => some (.fsqrt l dbl d a)
  | 0x005 => some (.fmin l dbl d a b)
  | 0x006 => some (.fmax l dbl d a b)
  | 0x007 => some (.fabs l dbl d a)
  | 0x008 => some (.fneg l dbl d a)
  | 0x009 => some (.fmov l dbl d a)
  | 0x010 => some (.fcvt l dbl d a)
  | 0x011 => some (.ftoi l dbl d a)
  | 0x012 => some (.itof l dbl d a)
  | 0x013 => some (.utof l dbl d a)
  | 0x014 => some (.fmvtw l dbl d a)
  | 0x015 => some (.fmvfw l dbl d a)
  | _ => none

/-- The fused functions by FUNC [8:0] (R167). -/
def decodeFma (l : Fin 16) (dbl : Bool) (d a b c : Fin 16) : Nat → Option Instr
  | 0 => some (.fmadd l dbl d a b c)
  | 1 => some (.fmsub l dbl d a b c)
  | 2 => some (.fnmadd l dbl d a b c)
  | 3 => some (.fnmsub l dbl d a b c)
  | _ => none

/-- The floating-point compares by FUNC [8:0] (R167). -/
def decodeFcmp (l : Fin 16) (dbl : Bool) (comb : Comb) (k : Fin 4) (a b : Fin 16) : Nat → Option Instr
  | 0 => some (.fcmpEq l dbl comb k a b)
  | 1 => some (.fcmpLt l dbl comb k a b)
  | 2 => some (.fcmpLe l dbl comb k a b)
  | 3 => some (.fcmpUn l dbl comb k a b)
  | _ => none

/-- The system functions (R178); the code of HOLDPT and TRAP is the fields A, B and C, and the register number of MFS and
MTS is B and C. -/
def decodeSys (l d a : Fin 16) (w : Word) : Nat → Option Instr
  | 0x000 => some (.nop l)
  | 0x001 => some (.fenceLd l)
  | 0x002 => some (.fenceSt l)
  | 0x003 => some (.fenceAll l)
  | 0x004 => some (.fenceIo l)
  | 0x010 => some (.cwait l)
  | 0x011 => some (.holdpt l (BitVec.ofNat 12 (field w 21 10)))
  | 0x012 => some (.trap l (BitVec.ofNat 12 (field w 21 10)))
  | 0x013 => some (.eret l)
  | 0x020 => some (.mfs l d (BitVec.ofNat 8 (field w 17 10)))
  | 0x021 => some (.mts l (BitVec.ofNat 8 (field w 17 10)) a)
  | _ => none

/-- The instruction that a word names on logical core `l`, `lit` being the word behind it; none for a word that is no
instruction (R160 to R163). -/
def decodeCoreWord (l : Fin 16) (w lit : Word) : Option Instr :=
  let d := regAt w 22
  let a := regAt w 18
  let b := regAt w 14
  let c := regAt w 10
  let imm := immAt 17 17 w lit
  let dbl := bit w 9
  let major := field w 31 26
  if !legalWord w then none
  else
    match major with
    | 0x01 => decodeAlu l d a b (flagAt w 10) (field w 9 0)
    | 0x02 => some (.addi l d a imm)
    | 0x03 => some (.andi l d a imm)
    | 0x04 => some (.ori l d a imm)
    | 0x05 => some (.xori l d a imm)
    | 0x06 => some (decodeShift l d a (Fin.ofNat 64 (field w 5 0)) (field w 7 6))
    | 0x07 => some (.movhi l d a imm)
    | 0x08 =>
      (combOf (field w 25 24)).bind fun m => (condCode (field w 9 0)).map fun r => .cmp l m (flagAt w 22) r a b
    | 0x09 =>
      (combOf (field w 25 24)).bind fun m => (condCode (field w 16 14)).map fun r =>
        .cmpi l m (flagAt w 22) r a (immAt 14 17 w lit)
    | 0x20 => decodeAtomic l (bit w 4) (orderOf (field w 6 5)) d a b (flagAt w 10) (field w 3 0)
    | 0x24 =>
      decodeImage l d (if bit w 10 then none else some a) (bit w 15) (flagAt w 16) (immAt 10 11 w lit) (field w 14 12)
    | 0x28 => decodeFpu l dbl d a b (field w 8 0)
    | 0x29 => decodeFma l dbl d a b c (field w 8 0)
    | 0x2A => (combOf (field w 25 24)).bind fun m => decodeFcmp l dbl m (flagAt w 22) a b (field w 8 0)
    | 0x30 => some (.b l (w.truncate 26))
    | 0x31 => some (.bc l (flagAt w 24) (bit w 23) (w.truncate 22))
    | 0x32 => some (.call l (w.truncate 26))
    | 0x33 => if field w 9 0 = 0 then some (.jr l a) else some (.callr l d a)
    | 0x38 => decodeSys l d a w (field w 9 0)
    | _ => decodeMem l d a imm major

end Sys2Proof
end

