-- ==== Sys2Proof/Machine/CycImage.lean ====
section
/-! DEFINITION. Program images and change maps: their checks, placement in code SRAM, and the program store
(spec 06, R194, R196, R197, R217, R222, R233 to R240). -/

namespace Sys2Proof.Machine

/-! ### Areas of memory -/

/-- Two areas, each an address and a length, share a byte. -/
def overlaps (a b : Nat × Nat) : Bool :=
  decide (0 < a.2 ∧ 0 < b.2 ∧ a.1 < b.1 + b.2 ∧ b.1 < a.1 + a.2)

/-- An area lies inside another. -/
def inside (a b : Nat × Nat) : Bool := decide (b.1 ≤ a.1 ∧ a.1 + a.2 ≤ b.1 + b.2)

/-- No two areas of a list overlap. -/
def disjointAll : List (Nat × Nat) → Bool
  | [] => true
  | a :: rest => !(rest.any (overlaps a)) && disjointAll rest

/-- Shared data SRAM as offsets, the form that image fields use. -/
def sramOffsets : Nat × Nat := (0, sramSize)

/-! ### The header (R234) -/

abbrev hLen (img : List Byte) : Nat := fieldAt img 0x008 4
abbrev hProgramId (img : List Byte) : Nat := fieldAt img 0x00C 4
abbrev hBuildId (img : List Byte) : Nat := fieldAt img 0x010 8
abbrev hCodeOff (img : List Byte) : Nat := fieldAt img 0x018 4
abbrev hCodeLen (img : List Byte) : Nat := fieldAt img 0x01C 4
abbrev hRelocOff (img : List Byte) : Nat := fieldAt img 0x020 4
abbrev hRelocs (img : List Byte) : Nat := fieldAt img 0x024 4
abbrev hTaskOff (img : List Byte) : Nat := fieldAt img 0x028 4
abbrev hTasks (img : List Byte) : Nat := fieldAt img 0x02C 4
abbrev hTablesOff (img : List Byte) : Nat := fieldAt img 0x030 4
abbrev hTablesLen (img : List Byte) : Nat := fieldAt img 0x034 4
abbrev hTablesDest (img : List Byte) : Nat := fieldAt img 0x038 4
abbrev hImageBase (img : List Byte) : Nat := fieldAt img 0x03C 4
abbrev hSignals (img : List Byte) : Nat := fieldAt img 0x040 4
abbrev hTypesOff (img : List Byte) : Nat := fieldAt img 0x044 4
abbrev hDataBase (img : List Byte) : Nat := fieldAt img 0x048 8
abbrev hDataLen (img : List Byte) : Nat := fieldAt img 0x050 4
abbrev hInitOff (img : List Byte) : Nat := fieldAt img 0x054 4
abbrev hInitLen (img : List Byte) : Nat := fieldAt img 0x058 4
abbrev hSymOff (img : List Byte) : Nat := fieldAt img 0x05C 4
abbrev hSyms (img : List Byte) : Nat := fieldAt img 0x060 4
abbrev hStrOff (img : List Byte) : Nat := fieldAt img 0x064 4
abbrev hStrLen (img : List Byte) : Nat := fieldAt img 0x068 4

/-- The type byte of signal `i`. -/
def signalType (img : List Byte) (i : Nat) : Nat := fieldAt img (hTypesOff img + i) 1

/-- The types of R173. -/
def knownType (ty : Nat) : Bool := ty ∈ [0, 1, 2, 3, 4, 5, 8, 9]

/-! ### Task entries (R193) -/

/-- One task table entry: 16 words. -/
structure TaskEnt where
  words : List Nat
  deriving DecidableEq, Repr

namespace TaskEnt

/-- Word `n`, counted from 1 as R194 counts. -/
def word (e : TaskEnt) (n : Nat) : Nat := nth 0 e.words (n - 1)
def cfg (e : TaskEnt) : Word := BitVec.ofNat 32 (e.word 1)
def enabled (e : TaskEnt) : Bool := bit e.cfg 0
def lcore (e : TaskEnt) : Nat := field e.cfg 7 4
def prio (e : TaskEnt) : Nat := field e.cfg 12 8
def action (e : TaskEnt) : Nat := field e.cfg 14 13
def inMap (e : TaskEnt) : Nat × Nat := (e.word 10, 4 * e.word 11)
def outMap (e : TaskEnt) : Nat × Nat := (e.word 12, 4 * e.word 13)
def save (e : TaskEnt) : Nat × Nat := (e.word 9, 320)
/-- The task buffer for given section counts. -/
def buf (e : TaskEnt) (n : Nat) : Nat × Nat := (e.word 8, 16 * n)

end TaskEnt

/-- An entry of 64 bytes. -/
def taskEntAt (bs : List Byte) (off : Nat) : TaskEnt := ⟨(List.range 16).map fun i => fieldAt bs (off + 4 * i) 4⟩

/-- The entries of an image. -/
def imageTasks (img : List Byte) : List TaskEnt :=
  (List.range (hTasks img)).map fun i => taskEntAt img (hTaskOff img + 64 * i)

/-- The runs of a section map: first index and length (R196). -/
def runsOf (bytes : List Byte) (n : Nat) : List (Nat × Nat) :=
  (List.range n).map fun i =>
    let r : Word := BitVec.ofNat 32 (fieldAt bytes (4 * i) 4)
    (field r 16 0, field r 31 17 + 1)

/-- Signals that runs hold. -/
def runCount (rs : List (Nat × Nat)) : Nat := rs.foldl (fun n r => n + r.2) 0

/-- Every index of every run is below the signal count (R196). -/
def runsOk (signals : Nat) (rs : List (Nat × Nat)) : Bool := rs.all fun r => decide (r.1 + r.2 ≤ signals)

/-- What the validity of one entry depends on besides the entry (R194). -/
structure TableCtx where
  /-- The other tasks: entry and section counts. -/
  others : List (TaskEnt × Nat)
  /-- The section counts of this entry, as its maps give them. -/
  count : Nat
  /-- Whether an ENTRY value names a word of the program's code. -/
  codeOk : Nat → Bool
  image : Nat × Nat
  data : Nat × Nat
  inRuns : List (Nat × Nat)
  outRuns : List (Nat × Nat)
  signals : Nat
  /-- Output runs of the other tasks. -/
  otherOut : List (Nat × Nat)

/-- The areas of another task. -/
def taskAreas (x : TaskEnt × Nat) : List (Nat × Nat) := [x.1.buf x.2, x.1.save, x.1.inMap, x.1.outMap]

/-- The words of an enabled entry that fail, in rising order (R194). -/
def tableFaults (c : TableCtx) (e : TaskEnt) : List Nat :=
  let on := c.others.filter fun x => x.1.enabled
  let clashArea (a : Nat × Nat) : Bool :=
    !inside a sramOffsets || overlaps a c.image || overlaps a c.data || on.any fun x => (taskAreas x).any (overlaps a)
  let w1 := on.any fun x => x.1.lcore == e.lcore && x.1.prio == e.prio
  let w2 := decide (e.word 2 = 0 ∨ 240000 < e.word 2)
  let w3 := decide (e.word 2 ≤ e.word 3)
  let w5 := decide (e.word 5 % 4 ≠ 0) || !c.codeOk (e.word 5)
  let w8 := decide (e.word 8 % 64 ≠ 0) || clashArea (e.buf c.count)
  let w9 := decide (e.word 9 % 64 ≠ 0) || clashArea e.save
  let w10 := decide (e.word 10 % 4 ≠ 0) || clashArea e.inMap || !runsOk c.signals c.inRuns
  let w12 := decide (e.word 12 % 4 ≠ 0) || clashArea e.outMap || !runsOk c.signals c.outRuns ||
    c.outRuns.any fun r => c.otherOut.any (overlaps r)
  let w14 := on.any fun x => (x.1.word 14 &&& e.word 14) != 0
  (if w1 then [1] else []) ++ (if w2 then [2] else []) ++ (if w3 then [3] else []) ++ (if w5 then [5] else []) ++
    (if w8 then [8] else []) ++ (if w9 then [9] else []) ++ (if w10 then [10] else []) ++
    (if w12 then [12] else []) ++ (if w14 then [14] else [])

/-- The first failing word of an entry, enabled or not (R194). -/
def firstFault (c : TableCtx) (e : TaskEnt) : Option Nat :=
  if e.action = 3 then some 1 else if e.enabled then (tableFaults c e).head? else none

/-! ### Image checks (R236) -/

/-- What an image is checked against beside itself. -/
structure ImageEnv where
  /-- Installed DDR as an area. -/
  ddr : Nat × Nat
  /-- Loaded solver homes and banks (R307). -/
  solver : List (Nat × Nat)

/-- Check 1: constants, reserved bytes, and the range and alignment of every header field. -/
def check1 (img : List Byte) : Bool :=
  fieldAt img 0 4 == 0x50525A47 && fieldAt img 4 2 == 1 && fieldAt img 6 2 == 0 && allZero (slice img 0x6C 20) &&
    allZero (slice img 0xB0 80) && decide (256 ≤ img.length) &&
    decide (hLen img % 8 = 0 ∧ 256 ≤ hLen img ∧ hLen img ≤ 0x800000) &&
    hProgramId img != 0 && hBuildId img != 0 && hCodeOff img % 64 == 0 && hCodeLen img % 4 == 0 &&
    decide (1 ≤ hTasks img ∧ hTasks img ≤ 32) && hImageBase img % 64 == 0 &&
    decide (1 ≤ hSignals img ∧ hSignals img ≤ 131072) && decide (hInitLen img ≤ hDataLen img)

/-- Check 2: every part lies inside the image. -/
def check2 (img : List Byte) : Bool :=
  hLen img == img.length &&
    [(hCodeOff img, hCodeLen img), (hRelocOff img, 4 * hRelocs img), (hTaskOff img, 64 * hTasks img),
     (hTablesOff img, hTablesLen img), (hTypesOff img, hSignals img), (hInitOff img, hInitLen img),
     (hSymOff img, 24 * hSyms img), (hStrOff img, hStrLen img)].all fun a => decide (a.1 + a.2 ≤ hLen img)

/-- Check 3: the digest. -/
def check3 (img : List Byte) : Bool := Config.sha384 (img.drop 0x100) == slice img 0x80 48

/-- The signal array, tables destination and data area as addresses. -/
def imageAreas (img : List Byte) : List (Nat × Nat) :=
  [(sramBase + hImageBase img, 16 * hSignals img), (sramBase + hTablesDest img, hTablesLen img),
   (hDataBase img, hDataLen img)]

/-- The runs of a map that an image's tables hold, for a map at an offset in shared data SRAM. -/
def tableRuns (img : List Byte) (m : Nat × Nat) : List (Nat × Nat) :=
  runsOf (img.drop (hTablesOff img + (m.1 - hTablesDest img))) (m.2 / 4)

/-- The areas of an image that no solver home or bank may overlap: with those of its enabled tasks (R307). -/
def solverAreas (img : List Byte) : List (Nat × Nat) :=
  imageAreas img ++ ((imageTasks img).filter TaskEnt.enabled).flatMap fun e =>
    (taskAreas (e, runCount (tableRuns img e.inMap) + runCount (tableRuns img e.outMap))).map fun a => (sramBase + a.1, a.2)

/-- Check 4: the areas lie in memory and none overlaps another; none that R307 names overlaps a loaded solver home or
bank. -/
def check4 (e : ImageEnv) (img : List Byte) : Bool :=
  let sram := (sramBase, sramSize)
  let areas := imageAreas img
  decide (hCodeLen img ≤ 0x800000) && (areas.take 2).all (inside · sram) &&
    (areas.drop 2).all (fun a => inside a sram || inside a e.ddr) && disjointAll areas &&
    (solverAreas img).all fun a => !(e.solver.any (overlaps a))

/-- The context of one entry of an image for check 5. Run faults belong to check 6. -/
def imageCtx (img : List Byte) (i : Nat) : TableCtx :=
  let es := imageTasks img
  let count (e : TaskEnt) : Nat := runCount (tableRuns img e.inMap) + runCount (tableRuns img e.outMap)
  { others := (es.mapIdx fun j e => (j, e)).filterMap fun x => if x.1 = i then none else some (x.2, count x.2)
    count := count (nth ⟨[]⟩ es i)
    codeOk := fun x => decide (x < hCodeLen img)
    image := (hImageBase img, 16 * hSignals img)
    data := (hDataBase img - sramBase, if hDataBase img < sramBase then 0 else hDataLen img)
    inRuns := [], outRuns := [], signals := hSignals img, otherOut := [] }

/-- Check 5: the task table. -/
def check5 (img : List Byte) : Bool :=
  ((imageTasks img).mapIdx fun i e => (firstFault (imageCtx img i) e).isNone).all id

/-- The runs of a section map as the image carries it; the map of a disabled task may lie outside the tables, and then
holds none. [DEDUCED, log entry 149] -/
def imageRuns (img : List Byte) (m : Nat × Nat) : List (Nat × Nat) :=
  if inside m (hTablesDest img, hTablesLen img) then tableRuns img m else []

/-- No two output sections of a task table name one signal; one section may name a signal twice (R197). -/
def ownersOk : List (List (Nat × Nat)) → Bool
  | [] => true
  | a :: rest => !(rest.any fun b => a.any fun r => b.any (overlaps r)) && ownersOk rest

/-- Check 6: the section maps, of enabled and disabled tasks. [DEDUCED, log entry 149] -/
def check6 (img : List Byte) : Bool :=
  let dest := (hTablesDest img, hTablesLen img)
  ((imageTasks img).all fun e =>
    (!e.enabled || inside e.inMap dest && inside e.outMap dest) &&
      runsOk (hSignals img) (imageRuns img e.inMap) && runsOk (hSignals img) (imageRuns img e.outMap) &&
      (!inside e.inMap dest || runCount (imageRuns img e.inMap) == e.word 15) &&
      (!inside e.outMap dest || runCount (imageRuns img e.outMap) == e.word 16)) &&
    ownersOk ((imageTasks img).map fun e => imageRuns img e.outMap)

/-- How many output sections name a signal. -/
def outputOwners (img : List Byte) (i : Nat) : Nat :=
  (imageTasks img).countP fun e => (imageRuns img e.outMap).any fun r => decide (r.1 ≤ i ∧ i < r.1 + r.2)

/-- The bytes after a leading byte of UTF-8: how many, and the bounds of the first of them; none for a byte that leads
no character. [PRESUMED, log entry 150] -/
def utf8Lead (b : Nat) : Option (Nat × Nat × Nat) :=
  if b < 0x80 then some (0, 0x80, 0xBF)
  else if b < 0xC2 then none
  else if b < 0xE0 then some (1, 0x80, 0xBF)
  else if b < 0xF0 then some (2, if b = 0xE0 then 0xA0 else 0x80, if b = 0xED then 0x9F else 0xBF)
  else if b < 0xF5 then some (3, if b = 0xF0 then 0x90 else 0x80, if b = 0xF4 then 0x8F else 0xBF)
  else none

/-- Bytes are UTF-8 text, with `need` bytes of a character still to come, the first within bounds (R237). -/
def utf8From (need lo hi : Nat) : List Byte → Bool
  | [] => need == 0
  | b :: rest =>
    if need = 0 then
      match utf8Lead b.toNat with
      | some (n, lo, hi) => utf8From n lo hi rest
      | none => false
    else decide (lo ≤ b.toNat ∧ b.toNat ≤ hi) && utf8From (need - 1) 0x80 0xBF rest

/-- A name at an offset of the string table is UTF-8 and ends in a zero byte inside it, at most 255 bytes on (R237). -/
def nameOk (img : List Byte) (off : Nat) : Bool :=
  let s := ((slice img (hStrOff img) (hStrLen img)).drop off).take 256
  decide (off < hStrLen img) && s.any (· == 0) && utf8From 0 0x80 0xBF (s.takeWhile (· != 0))

/-- One symbol meets check 7. -/
def symOk (img : List Byte) (y : Sym) (off : Nat) : Bool :=
  y.id != 0 && fieldAt img (off + 6) 2 == 0 && fieldAt img (off + 0x14) 4 == 0 && decide (1 ≤ y.kind ∧ y.kind ≤ 5) &&
    knownType y.type && nameOk img y.name &&
    (if y.kind ≤ 3 then
      decide (y.loc < hSignals img) && y.count == 1 && signalType img y.loc == y.type &&
        outputOwners img y.loc == (if y.kind = 1 then 0 else 1)
     else decide (y.loc + y.count * typeSize y.type ≤ hDataLen img))

/-- Check 7: the symbols. -/
def check7 (img : List Byte) : Bool :=
  let ys := symbols img
  (ys.mapIdx fun i y => symOk img y (hSymOff img + 24 * i)).all id && decide (ys.map (·.id)).Nodup

/-- The relocations of an image. -/
def relocs (img : List Byte) : List Nat := (List.range (hRelocs img)).map fun i => fieldAt img (hRelocOff img + 4 * i) 4

/-- Check 8: the relocations. -/
def check8 (img : List Byte) : Bool := (relocs img).all fun r => r % 4 == 0 && decide (r + 4 ≤ hCodeLen img)

/-- The first check of 1 to 8 that an image fails. -/
def imageFault (e : ImageEnv) (img : List Byte) : Option Nat :=
  if !check1 img then some 1 else if !check2 img then some 2 else if !check3 img then some 3
  else if !check4 e img then some 4 else if !check5 img then some 5 else if !check6 img then some 6
  else if !check7 img then some 7 else if !check8 img then some 8 else none

/-! ### Change maps (R238, R239) -/

/-- One operation of a change map. -/
structure MapOp where
  op : Nat
  src : Nat
  dst : Nat
  fromTy : Nat
  toTy : Nat
  n : Nat
  deriving DecidableEq, Repr

/-- The operations of a change map. -/
def mapOps (m : List Byte) : List MapOp :=
  (List.range (fieldAt m 0x18 4)).map fun i =>
    let o := 32 + 16 * i
    { op := fieldAt m o 1, fromTy := fieldAt m (o + 1) 1, toTy := fieldAt m (o + 2) 1, src := fieldAt m (o + 4) 4,
      dst := fieldAt m (o + 8) 4, n := fieldAt m (o + 12) 4 }

/-- The conversions that R239 permits. -/
def convertOk (f t : Nat) : Bool :=
  (f, t) ∈ [(1, 2), (1, 3), (1, 4), (1, 5), (2, 4), (2, 8), (2, 9), (3, 5), (3, 4), (3, 8), (3, 9), (8, 9), (9, 8)]

/-- Bytes that an operation reads from the old data area, and bytes that it writes in the new one. -/
def MapOp.reads (o : MapOp) : Nat × Nat :=
  if o.op = 1 then (o.src, o.n) else if o.op = 2 then (o.src, o.n * typeSize o.fromTy) else (0, 0)
def MapOp.writes (o : MapOp) : Nat × Nat := (o.dst, if o.op = 2 then o.n * typeSize o.toTy else o.n)

/-- No operation reads a byte that an earlier one wrote. -/
def readsOk : List (Nat × Nat) → List MapOp → Bool
  | _, [] => true
  | done, o :: rest => !(done.any (overlaps o.reads)) && readsOk (o.writes :: done) rest

/-- Check 10: the change map against the old and the new image. -/
def check10 (old new m : List Byte) : Bool :=
  let ops := mapOps m
  fieldAt m 0 4 == 0x504D5A47 && decide (32 ≤ m.length) && fieldAt m 4 4 == hProgramId new &&
    fieldAt m 8 8 == hBuildId old && fieldAt m 0x10 8 == hBuildId new && decide (fieldAt m 0x18 4 ≤ 65536) &&
    fieldAt m 0x1C 4 == 0 && m.length == 32 + 16 * fieldAt m 0x18 4 &&
    ((List.range (fieldAt m 0x18 4)).all fun i => fieldAt m (32 + 16 * i + 3) 1 == 0) &&
    (ops.all fun o =>
      decide (1 ≤ o.op ∧ o.op ≤ 4) && inside o.writes (0, hDataLen new) && inside o.reads (0, hDataLen old) &&
        (o.op != 2 || convertOk o.fromTy o.toTy) && (o.op != 3 || decide (o.src + o.n ≤ hInitLen new))) &&
    readsOk [] ops && disjointAll (ops.map (·.writes))

/-- Check 9: identity, bases, and the new tables against the running ones. -/
def check9 (old new m : List Byte) : Bool :=
  hProgramId new == hProgramId old && fieldAt m 8 8 == hBuildId old && hImageBase new == hImageBase old &&
    hDataBase new == hDataBase old &&
    !overlaps (hTablesDest new, hTablesLen new) (hTablesDest old, hTablesLen old)

/-- The first check that a change package fails. -/
def changeFault (e : ImageEnv) (old new m : List Byte) : Option Nat :=
  match imageFault e new with
  | some k => some k
  | none => if !check9 old new m then some 9 else if !check10 old new m then some 10 else none

/-- One value converted (R239): rounding to nearest, the canonical NaN. -/
def convertValue (f t v : Nat) : Nat :=
  match f, t with
  | 2, 4 => ofSigned 64 (toSigned 32 v)
  | 2, 8 => (fpOfInt fp32 0 (toSigned 32 v)).bits
  | 2, 9 => (fpOfInt fp64 0 (toSigned 32 v)).bits
  | 3, 8 => (fpOfInt fp32 0 v).bits
  | 3, 9 => (fpOfInt fp64 0 v).bits
  | 8, 9 => (fpConvert fp32 fp64 0 v).bits
  | 9, 8 => (fpConvert fp64 fp32 0 v).bits
  | _, _ => v

namespace State

/-! ### Placement (R233, R235) -/

/-- Installed and ready DDR as an area (R31). -/
def ddrArea (s : State) : Nat × Nat := (0x1000000000, s.regField R.SYS_MEMCFG 4 0 * 2 ^ 30)

/-- The base of the code half that an image uses: an image above 4 MiB lies from half 0 on. -/
def halfBase (half : Nat) : Nat := half * 0x400000

/-- Places an image in code SRAM from the base of a half, and relocates its code (R233, R235). -/
def placeCode (img : List Byte) (base : Nat) (s : State) : State :=
  let code := base + hCodeOff img
  let s := s.setBytes base img
  (relocs img).foldl (fun s r => s.setNum (code + r) 4 (s.numAt (code + r) 4 + code)) s

/-- Writes the section maps to their destination. -/
def placeTables (img : List Byte) (s : State) : State :=
  s.setBytes (sramBase + hTablesDest img) (slice img (hTablesOff img) (hTablesLen img))

/-- The bits that each task register holds; the others are reserved and read 0 (R193). -/
def taskMasks : List Nat :=
  [0xFFFF7FF1, 0x3FFFF, 0x3FFFF, 0x3FFFF, 0x7FFFFF, 0xFFFFFFFF, 0xFF, 0xFFFFFF, 0xFFFFFF, 0xFFFFFF, 0xFFFF, 0xFFFFFF,
   0xFFFF, 0xFFFFF, 0x3FFFF, 0x3FFFF]

/-- Writes one task entry to the task registers, with the code start added to its ENTRY (R193, R235). -/
def installTask (base t : Nat) (e : TaskEnt) (s : State) : State :=
  (List.range 16).foldl (fun s w =>
    let v := e.word (w + 1)
    let v := if w = 4 then base + v else v
    s.setReg (R.CYC_TASK_CFG t + 4 * w) (BitVec.ofNat 32 (v &&& nth 0 taskMasks w))) s

/-- Installs the task table of an image; tasks beyond its count are cleared. -/
def installTable (img : List Byte) (base : Nat) (s : State) : State :=
  let es := imageTasks img
  (List.range 32).foldl (fun s t =>
    match es[t]? with
    | some e => s.installTask base t e
    | none => s.installTask 0 t ⟨List.replicate 16 0⟩) s

/-- The entry of a signal at placement: its type, and quality 0xC0 for an output signal or BAD_NO_DATA for an input
(R172, R273). [DESIGN CHOICE, log entry 132] -/
def freshEntry (img : List Byte) (i : Nat) : List Byte :=
  zeros 8 ++ [if outputOwners img i = 0 then 0 else 0xC0, BitVec.ofNat 8 (signalType img i)] ++ zeros 6

/-- A signal keeps its entry over a full change: the old image has it with the same type and direction.
[DESIGN CHOICE, log entry 132] -/
def keepsEntry (old new : List Byte) (i : Nat) : Bool :=
  decide (i < hSignals old) && signalType old i == signalType new i &&
    (outputOwners old i == 0) == (outputOwners new i == 0)

/-- The entries of the global image for a new image: every entry at placement, where `old` is empty (R172, R226).
[DESIGN CHOICE, log entry 132] -/
def installTypes (old img : List Byte) (s : State) : State :=
  (List.range (hSignals img)).foldl (fun s i =>
    if keepsEntry old img i then s else s.setBytes (s.entryAddr i) (freshEntry img i)) s

/-- Input signals whose entry is placed anew have had no sample accepted since (R273). -/
def resetSigs (kept : Nat → Bool) (s : State) : State :=
  let clean (x : Nat × Ctx) : Nat × Ctx :=
    match tget s.nvNext.adms x.1 with
    | some a =>
      let sigs := x.2.sigs.mapIdx fun j y => if kept (a.inFirst + j) then y else { y with last := none, first := true }
      (x.1, { x.2 with sigs := sigs })
    | none => x
  { s with stn := { s.stn with ctxs := s.stn.ctxs.map clean } }

/-- The identity registers of the running image (R241). -/
def installIds (img : List Byte) (half : Nat) (s : State) : State :=
  let s := s.setReg R.CYC_PROGRAM_ID (BitVec.ofNat 32 (hProgramId img))
  let s := s.setReg64 R.CYC_BUILD_ID_LO R.CYC_BUILD_ID_HI (hBuildId img)
  let s := s.setReg R.CYC_IMAGE_BASE (BitVec.ofNat 32 (hImageBase img))
  let s := s.setReg R.CYC_SIGNALS (BitVec.ofNat 32 (hSignals img))
  (s.setRegBit R.CYC_MODE 3 true).setRegBit R.CYC_MODE 4 (half == 1)

/-- The entries of every output section, by signal index. -/
def outEntries (s : State) : List (Nat × List Byte) :=
  ((List.range 32).filter s.taskEnabled).flatMap fun t =>
    (s.outIndices t).mapIdx fun j i => (i, s.bytesAt (s.outSection t + 16 * j) 16)

/-- The entries of a task's output section, which image stores give nothing but values (R176): type and quality of the
output signal, and the value that the program stored before, in `old`, where the type is the same, or the value of the
global image. [DESIGN CHOICE, log entry 132] -/
def installOut (old : List (Nat × List Byte)) (t : Nat) (s : State) : State :=
  if s.taskEnabled t then
    (s.outIndices t).mapIdx (fun j i => (j, i)) |>.foldl (fun s x =>
      let g := s.bytesAt (s.entryAddr x.2) 16
      let ty := nth 0 g 9
      let v := match old.find? fun e => e.1 == x.2 && nth 0 e.2 9 == ty with
        | some e => e.2
        | none => g
      s.setBytes (s.outSection t + 16 * x.1) (v.take 8 ++ [0xC0, ty] ++ zeros 6)) s
  else s

/-- The entries of every output section (R176). [DESIGN CHOICE, log entry 132] -/
def installOuts (old : List (Nat × List Byte)) (s : State) : State :=
  (List.range 32).foldl (fun s t => s.installOut old t) s

/-- Extends measurement `i` with the digest of a message (R137). -/
def extendMeas (i : Nat) (msg : List Byte) (s : State) : State :=
  { s with pwr := { s.pwr with
    meas := modNth (fun m => Config.sha384 (m ++ Config.sha384 msg)) s.pwr.meas i } }

/-- Places a program from a code half: code, tables, task table, signals and identity; M3 is extended (R137, R233). -/
def placeIn (half : Nat) (img : List Byte) (s : State) : State :=
  let base := halfBase half + hCodeOff img
  let s := s.placeCode img (halfBase half)
  let s := s.placeTables img
  let s := s.installTable img base
  let s := s.installIds img half
  let s := ((s.installTypes [] img).installOuts []).resetSigs fun _ => false
  let s := { s with cyc := { s.cyc with
    prog := some { image := img, codeBase := base }, fresh := true } }
  (s.extendMeas 3 img).showFrame

/-- Places a program from half 0, as a load and a start-up do (R141, R233). -/
def placeProgram (img : List Byte) (s : State) : State := s.placeIn 0 img

/-! ### The program store in flash (R233, R240) -/

/-- The base of a slot as an offset of the flash. -/
def slotBase (slot : Nat) : Nat := 0x2000000 + slot * 0x1000000
/-- The overlay area of a slot. -/
def overlayBase (slot : Nat) : Nat := slotBase slot + 0xF00000

/-- The image of a slot, whatever its flash holds. -/
def slotImage (s : State) (slot : Nat) : List Byte :=
  s.flashBytes (slotBase slot) (min (hLen (s.flashBytes (slotBase slot) 12)) 0x800000)

/-- Writes an image to a slot, with an empty overlay. -/
def writeSlot (slot : Nat) (img : List Byte) (s : State) : State :=
  (s.eraseFlash (slotBase slot) (slotBase slot + 0x1000000)).setFlash (slotBase slot) img

end State

/-- The items of a value list from its item bytes: offset and bytes; `none` when they do not exactly fill them. -/
def splitValues : Nat → List Byte → Option (List (Nat × List Byte))
  | 0, bs => if bs.isEmpty then some [] else none
  | n + 1, bs =>
    let len := fieldAt bs 4 4
    let padded := 4 * ((len + 3) / 4)
    if bs.length < 8 + padded then none
    else (splitValues n (bs.drop (8 + padded))).map ((fieldAt bs 0 4, slice bs 8 len) :: ·)

/-- The bytes that the items of a record take, by their own lengths. -/
def itemsLen : Nat → List Byte → Nat
  | 0, _ => 0
  | n + 1, bs =>
    let k := 8 + 4 * ((fieldAt bs 4 4 + 3) / 4)
    k + itemsLen n (bs.drop k)

/-- The records of an overlay area from its bytes, each with its items, up to the first bad one or an erased header; the
second
result is the index of a record with a bad CRC (R240). -/
def overlayRecords : Nat → Nat → List Byte → List (Nat × Nat × List (Nat × List Byte)) × Option Nat
  | 0, _, _ => ([], none)
  | fuel + 1, i, bs =>
    if bs.length < 20 ∨ (bs.take 16).all (· == 0xFF) then ([], none)
    else
      let n := fieldAt bs 12 4
      let body := if 1 ≤ n ∧ n ≤ 4096 then 16 + itemsLen n (bs.drop 16) else 0
      let rec' := bs.take body
      if body = 0 ∨ bs.length < body + 4 ∨ fieldAt bs body 4 ≠ (crc32 rec').toNat then ([], some i)
      else
        match splitValues n (rec'.drop 16) with
        | none => ([], some i)
        | some items =>
          let (rest, bad) := overlayRecords fuel (i + 1) (bs.drop (body + 4))
          ((fieldAt rec' 0 4, fieldAt rec' 4 8, items) :: rest, bad)

namespace State

/-- Writes the items of a value list into the data area. -/
def writeItems (base : Nat) (items : List (Nat × List Byte)) (s : State) : State :=
  items.foldl (fun s x => s.setBytes (base + x.1) x.2) s

/-- Applies the overlay of the active slot to the data area (R217, R240). -/
def applyOverlay (img : List Byte) (s : State) : State :=
  let (recs, bad) := overlayRecords 65536 0 (s.flashBytes (overlayBase s.nvNext.activeSlot) 0x100000)
  let s := recs.foldl (fun s r =>
    if r.1 = hProgramId img ∧ r.2.1 = hBuildId img then s.writeItems (hDataBase img) r.2.2 else s) s
  match bad with
  | some i => s.raise srcCyc Ev.CYC_OVERLAY_BAD i 0
  | none => s

/-- Initialises the data area (R217). -/
def initData (s : State) : State :=
  match s.cyc.prog with
  | none => s
  | some p =>
    let img := p.image
    let s := s.clearMem (hDataBase img) (hDataBase img + hDataLen img)
    let s := s.setBytes (hDataBase img) (slice img (hInitOff img) (hInitLen img))
    s.applyOverlay img

end State

end Sys2Proof.Machine
end

