-- ==== Sys2Proof/Machine/Rational.lean ====
section
/-! DEFINITION. Exact rational values for metering and the solver's scalings: a whole numerator over a whole positive
denominator. -/

namespace Sys2Proof.Machine

/-- The number n / d; d is positive in every value that the model builds. -/
structure Q where
  n : Int
  d : Nat
  deriving DecidableEq, Repr

namespace Q

def ofInt (i : Int) : Q := ⟨i, 1⟩
def add (a b : Q) : Q := ⟨a.n * b.d + b.n * a.d, a.d * b.d⟩
def neg (a : Q) : Q := ⟨-a.n, a.d⟩
def sub (a b : Q) : Q := a.add b.neg
def mul (a b : Q) : Q := ⟨a.n * b.n, a.d * b.d⟩
/-- The quotient by a number that is not 0. -/
def div (a b : Q) : Q := if b.n < 0 then ⟨-a.n * b.d, a.d * b.n.natAbs⟩ else ⟨a.n * b.d, a.d * b.n.natAbs⟩
def abs (a : Q) : Q := ⟨a.n.natAbs, a.d⟩
def lt (a b : Q) : Bool := decide (a.n * b.d < b.n * a.d)
def le (a b : Q) : Bool := decide (a.n * b.d ≤ b.n * a.d)

/-- m × 2^e. -/
def scaled (m : Int) (e : Int) : Q := if 0 ≤ e then ⟨m * 2 ^ e.toNat, 1⟩ else ⟨m, 2 ^ (-e).toNat⟩

/-- The value of a finite floating-point number; 0 for any other. -/
def ofFp (f : Fmt) (x : Nat) : Q :=
  match fpDecode f x with
  | .fin s m e => scaled (signedSig s m) e
  | _ => ⟨0, 1⟩

/-- Rounded to the nearest whole number, ties to even. -/
def round (a : Q) : Int := if a.n < 0 then -(roundDiv a.n.natAbs a.d : Int) else roundDiv a.n.natAbs a.d

/-- Rounded down. -/
def floor (a : Q) : Int := a.n / (a.d : Int)

/-- The nearest number of a format, ties to even. -/
def toFp (f : Fmt) (a : Q) : Nat :=
  if a.n = 0 then 0
  else
    let k := f.p + 4 + bitLen a.d
    let m := a.n.natAbs * 2 ^ k
    let sticky := if m % a.d = 0 then 0 else 1
    (fpRound f 0 (decide (a.n < 0)) (2 * (m / a.d) + sticky) (-(k : Int) - 1)).bits

/-- The nearest number of a format to the square root, ties to even; 0 below zero. -/
def sqrtFp (f : Fmt) (a : Q) : Nat :=
  if a.n ≤ 0 then 0
  else
    let k := f.p + 4 + bitLen a.d
    let m := a.n.natAbs * a.d * 2 ^ (2 * k)
    let r := isqrt m (bitLen m)
    let sticky := if r * r = m then 0 else 1
    -- √(n/d) = √(n·d)/d, kept to k bits beyond the point
    let den := a.d
    let j := f.p + 4 + bitLen den
    let q := (2 * r + sticky) * 2 ^ j
    let st2 := if q % den = 0 then 0 else 1
    (fpRound f 0 false (2 * (q / den) + st2) (-(k : Int) - 1 - j - 1)).bits

end Q

end Sys2Proof.Machine
end

