-- ==== Sys2Proof/Machine/SolvDesc.lean ====
section
/-! DEFINITION. Problem descriptors and Hedgerow banks: their layout, checks, placement and bindings (spec 08, R295 to
R316). -/

namespace Sys2Proof.Machine

/-! ### Sizes (R299, R300) -/

/-- P(n) of R299. -/
def pad16 (n : Nat) : Nat := (n + 15) / 16 * 16
/-- P64(n) of R299. -/
def pad64 (n : Nat) : Nat := (n + 63) / 64 * 64

/-! The header fields of a descriptor (R304). -/

abbrev dLen (d : List Byte) : Nat := fieldAt d 0x08 4
abbrev dProblem (d : List Byte) : Nat := fieldAt d 0x0C 4
abbrev dN (d : List Byte) : Nat := fieldAt d 0x10 2
abbrev dNx (d : List Byte) : Nat := fieldAt d 0x12 2
abbrev dNu (d : List Byte) : Nat := fieldAt d 0x14 2
abbrev dNd (d : List Byte) : Nat := fieldAt d 0x16 2
abbrev dNc (d : List Byte) : Nat := fieldAt d 0x18 2
abbrev dNz (d : List Byte) : Nat := dNu d + dNx d
abbrev dFlags (d : List Byte) : Nat := fieldAt d 0x1A 2
abbrev dMatVary (d : List Byte) : Bool := dFlags d % 2 == 1
abbrev dVecVary (d : List Byte) : Bool := dFlags d / 2 % 2 == 1
abbrev dBanked (d : List Byte) : Bool := dFlags d / 4 % 2 == 1
abbrev dRunAhead (d : List Byte) : Bool := dFlags d / 8 % 2 == 1
abbrev dEngines (d : List Byte) : Nat := fieldAt d 0x1C 1
abbrev dCarrier (d : List Byte) : Nat := fieldAt d 0x1D 1
abbrev dIterLimit (d : List Byte) : Nat := fieldAt d 0x1E 1
/-- The address of a bank. -/
abbrev dBank (d : List Byte) (b : Nat) : Nat := fieldAt d (0x20 + 8 * b) 8
abbrev dBankLen (d : List Byte) : Nat := fieldAt d 0x30 4
abbrev dBindings (d : List Byte) : Nat := fieldAt d 0x34 4
abbrev dBindOff (d : List Byte) : Nat := fieldAt d 0x38 4
abbrev dScaleOff (d : List Byte) : Nat := fieldAt d 0x3C 4
abbrev dInitOff (d : List Byte) : Nat := fieldAt d 0x40 4
abbrev dFeasTol (d : List Byte) : Nat := fieldAt d 0x44 4
abbrev dOptTol (d : List Byte) : Nat := fieldAt d 0x48 4
abbrev dAheadTol (d : List Byte) : Nat := fieldAt d 0x4C 4

/-- Sv of R299. -/
def vecSize (d : List Byte) : Nat :=
  64 + 4 * (pad16 (dNx d) + pad16 (dNz d) + pad16 (dNd d) + 4 * pad16 (dNc d)) + pad64 (dNc d)
/-- Sm of R299. -/
def matSize (d : List Byte) : Nat :=
  4 * (dNx d * pad16 (dNx d) + dNx d * pad16 (dNu d) + dNx d * pad16 (dNd d) + dNu d * pad16 (dNx d) +
    dNz d * pad16 (dNz d) + dNc d * pad16 (dNz d))
/-- The bank length of R300. -/
def bankLength (d : List Byte) : Nat :=
  64 + (if dMatVary d then dN d else 1) * matSize d + (if dVecVary d then dN d else 1) * vecSize d
/-- The shared parts, and the parts that vary, of one stage. -/
def sharedSize (d : List Byte) : Nat := (if dMatVary d then 0 else matSize d) + (if dVecVary d then 0 else vecSize d)
def varySize (d : List Byte) : Nat := (if dMatVary d then matSize d else 0) + (if dVecVary d then vecSize d else 0)
/-- Offset of the vector part of stage `k` in the bank. -/
def vecAt (d : List Byte) (k : Nat) : Nat :=
  if dVecVary d then 64 + sharedSize d + (k - 1) * varySize d else 64 + (if dMatVary d then 0 else matSize d)
/-- Offset of the matrix part of stage `k` in the bank. -/
def matAt (d : List Byte) (k : Nat) : Nat :=
  if dMatVary d then 64 + sharedSize d + (k - 1) * varySize d + (if dVecVary d then vecSize d else 0) else 64

/-- Words of one stage of a plan, and of the whole plan (R360). -/
def planStride (d : List Byte) : Nat := pad16 (dNu d) + pad16 (dNx d)
def planWords (d : List Byte) : Nat := dN d * planStride d

/-- The tail plan of a tail source (R344). -/
def shiftPlan (d : List Byte) (z : List Nat) : List Nat := z.drop (planStride d) ++ lastN (planStride d) z

/-- A word of a plan: element `i` of x_k, or of u_k (R360). -/
def planX (d : List Byte) (z : List Nat) (k i : Nat) : Nat := nth 0 z ((k - 1) * planStride d + pad16 (dNu d) + i)
def planU (d : List Byte) (z : List Nat) (k i : Nat) : Nat := nth 0 z (k * planStride d + i)

/-! ### Bindings (R305) -/

/-- One binding entry. -/
structure Bind where
  sym : Nat
  target : Nat
  policy : Nat
  elem : Nat
  k0 : Nat
  k1 : Nat
  resv : Nat
  gain : Nat
  off : Nat
  dflt : Nat
  deriving DecidableEq, Repr

/-- The entry at an offset. -/
def bindAt (d : List Byte) (o : Nat) : Bind :=
  { sym := fieldAt d o 4, target := fieldAt d (o + 4) 1, policy := fieldAt d (o + 5) 1, elem := fieldAt d (o + 6) 2,
    k0 := fieldAt d (o + 8) 1, k1 := fieldAt d (o + 9) 1, resv := fieldAt d (o + 10) 2, gain := fieldAt d (o + 12) 4,
    off := fieldAt d (o + 16) 4, dflt := fieldAt d (o + 20) 4 }

/-- The bindings of a descriptor. -/
def bindsOf (d : List Byte) : List Bind := (List.range (dBindings d)).map fun i => bindAt d (dBindOff d + 24 * i)

/-- An output target. -/
def Bind.isOut (b : Bind) : Bool := decide (0x10 ≤ b.target)

/-- An entry meets R305. -/
def Bind.ok (d : List Byte) (b : Bind) : Bool :=
  (if b.isOut then b.policy == 0 && dCarrier d != 0xFF && b.k1 == b.k0 else decide (b.policy < 8)) &&
    match b.target with
    | 0x01 => decide (b.elem < dNx d ∧ b.k0 = 0 ∧ b.k1 ≤ dN d)
    | 0x02 => decide (b.elem < dNd d) && stages
    | 0x03 => decide (b.elem < dNz d) && stages
    | 0x04 | 0x05 => decide (b.elem < dNc d) && stages
    | 0x10 => decide (b.elem < dNu d ∧ b.k0 < dN d)
    | 0x11 => decide (b.elem < dNx d ∧ 1 ≤ b.k0 ∧ b.k0 ≤ dN d)
    | 0x12 => decide (b.elem = 0 ∧ b.k0 = 0)
    | _ => false
where
  /-- The stage range of a target along the horizon. -/
  stages : Bool := decide (1 ≤ b.k0 ∧ b.k0 ≤ b.k1 ∧ b.k1 ≤ dN d)

/-! ### Checks of a descriptor (R306) -/

/-- The sections: header, bindings, scaling, initial bank. -/
def sections (d : List Byte) : List (Nat × Nat) :=
  [(0, 128), (dBindOff d, pad64 (24 * dBindings d)), (dScaleOff d, pad64 (pad16 (dNz d) + pad16 (dNc d)))] ++
    if dInitOff d = 0 then [] else [(dInitOff d, dBankLen d)]

/-- FP32 above 0. -/
def fpPositive (x : Nat) : Bool := (fpCompare fp32 1 0 x).1

/-- A signed exponent byte in −40 to +40. -/
def expOk (b : Byte) : Bool := decide (-40 ≤ b.toInt ∧ b.toInt ≤ 40)

/-- The scaling section: exponents in range, entries beyond the counts 0 (R303). -/
def scalingOk (d : List Byte) : Bool :=
  let sc := slice d (dScaleOff d) (pad64 (pad16 (dNz d) + pad16 (dNc d)))
  let e := sc.take (pad16 (dNz d))
  let f := slice sc (pad16 (dNz d)) (pad16 (dNc d))
  (e.take (dNz d)).all expOk && allZero (e.drop (dNz d)) && (f.take (dNc d)).all expOk && allZero (f.drop (dNc d)) &&
    allZero (sc.drop (pad16 (dNz d) + pad16 (dNc d)))

/-- Check 1: constants, codes, exponents and reserved bytes. -/
def descCheck1 (d : List Byte) : Bool :=
  let t := fieldAt d 6 1
  let r := fieldAt d 7 1
  fieldAt d 0 4 == 0x53445A47 && fieldAt d 4 2 == 1 && decide (t = 0 ∨ (8 ≤ t ∧ t ≤ 40)) &&
    decide (r = 0 ∨ (4 ≤ r ∧ r ≤ 40)) && decide (dLen d % 64 = 0 ∧ 256 ≤ dLen d ∧ dLen d ≤ 0x400000) &&
    dProblem d != 0 && decide (dFlags d < 16) && decide (dEngines d ∈ [0, 1, 4]) &&
    decide (dCarrier d < 32 ∨ dCarrier d = 0xFF) && decide (1 ≤ dIterLimit d ∧ dIterLimit d ≤ 200) &&
    expOk (BitVec.ofNat 8 (fieldAt d 0x1F 1)) && (dBanked d || dBank d 1 == 0) && decide (dBindings d ≤ 4096) &&
    fpPositive (dFeasTol d) && fpPositive (dOptTol d) && scalingOk d &&
    allZero (slice d (dBindOff d + 24 * dBindings d) (pad64 (24 * dBindings d) - 24 * dBindings d)) &&
    (bindsOf d).all fun b => b.resv == 0

/-- Check 2: the sections lie inside the descriptor and do not overlap. -/
def descCheck2 (d : List Byte) : Bool :=
  dLen d == d.length && ((sections d).all fun a => a.1 % 64 == 0 && decide (a.1 + a.2 ≤ d.length)) &&
    disjointAll (sections d)

/-- Check 3: the digest, over the descriptor with its field zero. -/
def descCheck3 (d : List Byte) : Bool :=
  Config.sha384 (d.take 0x50 ++ zeros 48 ++ d.drop 0x80) == slice d 0x50 48

/-- Check 4: the sizes of R296. -/
def descCheck4 (d : List Byte) : Bool :=
  decide (1 ≤ dN d ∧ dN d ≤ 96 ∧ 1 ≤ dNx d ∧ dNx d ≤ 128 ∧ 1 ≤ dNu d ∧ dNu d ≤ 64 ∧ dNd d ≤ 32 ∧ dNc d ≤ 256)

/-- Check 7: the bindings. -/
def descCheck7 (d : List Byte) : Bool :=
  let bs := bindsOf d
  bs.all (Bind.ok d) && decide (((bs.filter Bind.isOut).map (·.sym)).Nodup)

/-! ### Placement (R316) -/

/-- W: the workspace of one stage. -/
def workSize (d : List Byte) : Nat :=
  4 * (dNx d * pad16 (dNx d) + dNu d * pad16 (dNx d) + dNu d * pad16 (dNu d)) +
    16 * (pad16 (dNz d) + pad16 (dNx d) + 5 * pad16 (dNc d))

/-- The need of a placement per engine. -/
def placeNeed (d : List Byte) (place : Nat) : Nat :=
  let st := if place < 2 then dN d else (dN d + 3) / 4
  if place % 2 = 0 then 65536 + 64 + sharedSize d + st * (workSize d + varySize d)
  else 65536 + 524288 + st * workSize d

/-- A placement exists and fits. -/
def placeFits (d : List Byte) (place : Nat) : Bool :=
  decide (place < 2 ∨ 4 ≤ dN d) && decide (placeNeed d place ≤ 4194304)

/-- The placement chosen at load: the first of the order that fits. -/
def placement (d : List Byte) : Option Nat :=
  let order := if dEngines d = 0 then [0, 2, 3] else if dEngines d = 1 then [0, 1] else [2, 3]
  order.find? (placeFits d)

/-- The first stage of range `r` of four, and its stages (R316). -/
def rangeStart (d : List Byte) (r : Nat) : Nat := 1 + r * (dN d / 4) + min r (dN d % 4)
def rangeLen (d : List Byte) (r : Nat) : Nat := dN d / 4 + (if r < dN d % 4 then 1 else 0)

/-- Where the workspace of a placement lies in an engine's local memory, behind control and problem data: offset and
length (R316). [DEDUCED, log entry 156] -/
def workspace (d : List Byte) (place : Nat) : Nat × Nat :=
  let st := if place < 2 then dN d else (dN d + 3) / 4
  (if place % 2 = 0 then 65536 + 64 + sharedSize d + st * varySize d else 65536 + 524288, st * workSize d)

/-- CRC-32 over header, binding section and scaling section (R307). -/
def descSum (d : List Byte) : Word := crc32 ((((sections d).take 3).map fun a => slice d a.1 a.2).flatten)

/-! ### Affine conversion of bound values (R311, R314) -/

/-- A finite FP number. -/
def fpFinite (f : Fmt) (x : Nat) : Bool := match fpDecode f x with | .fin .. => true | _ => false

/-- gain × value + offset in FP64, for what has no exact finite non-zero value. -/
def affine64 (gain off v64 : Nat) : Nat :=
  (fpFma fp64 0 false false (fpConvert fp32 fp64 0 gain).bits v64 (fpConvert fp32 fp64 0 off).bits).bits

/-- gain × value + offset, exactly, where all three are finite. -/
def affineQ (gain off v64 : Nat) : Option Q :=
  if fpFinite fp32 gain && fpFinite fp32 off && fpFinite fp64 v64 then
    some (((Q.ofFp fp32 gain).mul (Q.ofFp fp64 v64)).add (Q.ofFp fp32 off))
  else none

/-- The FP32 value that a binding supplies (R311). -/
def affineIn (gain off v64 : Nat) : Nat :=
  match affineQ gain off v64 with
  | some q => if q.n = 0 then (fpConvert fp64 fp32 0 (affine64 gain off v64)).bits else Q.toFp fp32 q
  | none => (fpConvert fp64 fp32 0 (affine64 gain off v64)).bits

/-! ### Bank data (R301, R313) -/

/-- What a job's bindings set in row `i` of stage `k`: the last of the bindings with this target. -/
def boundRow (bs : List Bind) (inputs : List (Nat × Nat)) (target i k : Nat) : Option Nat :=
  (bs.mapIdx fun j b => (j, b)).foldl (fun r x =>
    if x.2.target = target ∧ x.2.elem = i ∧ x.2.k0 ≤ k ∧ k ≤ x.2.k1 then (tget inputs x.1).or r else r) none

/-- Every FP32 value of a matrix of a bank is finite; `low` reads only the lower triangle (R297). -/
def matrixFinite (bank : List Byte) (a rows cols : Nat) (low : Bool) : Bool :=
  (List.range rows).all fun i => (List.range cols).all fun j =>
    (low && decide (i < j)) || fpFinite fp32 (fieldAt bank (a + 4 * (i * pad16 cols + j)) 4)

/-- A vector of FP32 values is finite. -/
def vectorFinite (bank : List Byte) (a n : Nat) : Bool := matrixFinite bank a 1 n false

/-- One row of a stage meets R301: reserved flag bits 0, the values that count finite, weights not negative, and no hard
row with lo above hi once the bindings are applied. -/
def rowOk (bank d : List Byte) (bs : List Bind) (inputs : List (Nat × Nat)) (a k i : Nat) : Bool :=
  let v := a + 64 + 4 * (pad16 (dNx d) + pad16 (dNz d) + pad16 (dNd d))
  let at' (j : Nat) : Nat := fieldAt bank (v + 4 * (j * pad16 (dNc d) + i)) 4
  let fl : Byte := nth 0 bank (v + 16 * pad16 (dNc d) + i)
  let bLo := boundRow bs inputs 4 i k
  let bHi := boundRow bs inputs 5 i k
  let eq := bit fl 2
  let soft := bit fl 3
  let hasLo := bit fl 0 || bLo.isSome
  let hasHi := bit fl 1 || bHi.isSome
  let lo := bLo.getD (at' 0)
  let hi := bHi.getD (at' 1)
  let fin (bound : Option Nat) (j : Nat) : Bool := bound.isSome || fpFinite fp32 (at' j)
  let neg (x : Nat) : Bool := (fpCompare fp32 1 x 0).1
  field fl 7 4 == 0 && (!(eq || hasLo) || fin bLo 0) && (eq || !hasHi || fin bHi 1) &&
    (!soft || (fpFinite fp32 (at' 2) && fpFinite fp32 (at' 3) && !neg (at' 2) && !neg (at' 3))) &&
    (soft || eq || !(hasLo && hasHi) || !(fpCompare fp32 1 hi lo).1)

/-- The vector part of stage `k` at an offset. -/
def vecOk (bank d : List Byte) (bs : List Bind) (inputs : List (Nat × Nat)) (a k : Nat) : Bool :=
  fieldAt bank a 4 == (if dVecVary d then k else 0) && vectorFinite bank (a + 64) (dNx d) &&
    vectorFinite bank (a + 64 + 4 * pad16 (dNx d)) (dNz d) &&
    vectorFinite bank (a + 64 + 4 * (pad16 (dNx d) + pad16 (dNz d))) (dNd d) &&
    (List.range (dNc d)).all (rowOk bank d bs inputs a k)

/-- The matrix part at an offset. -/
def matOk (bank d : List Byte) (a : Nat) : Bool :=
  let nx := dNx d
  let a2 := a + 4 * nx * pad16 nx
  let a3 := a2 + 4 * nx * pad16 (dNu d)
  let a4 := a3 + 4 * nx * pad16 (dNd d)
  let a5 := a4 + 4 * dNu d * pad16 nx
  let a6 := a5 + 4 * dNz d * pad16 (dNz d)
  matrixFinite bank a nx nx false && matrixFinite bank a2 nx (dNu d) false && matrixFinite bank a3 nx (dNd d) false &&
    matrixFinite bank a4 (dNu d) nx false && matrixFinite bank a5 (dNz d) (dNz d) true &&
    matrixFinite bank a6 (dNc d) (dNz d) false

/-- What a bank breaks of R301 for a job's inputs: the first stage whose data are malformed, 0 for the header. -/
def bankFaultAt (bank d : List Byte) (inputs : List (Nat × Nat)) : Option Nat :=
  let bs := bindsOf d
  if fieldAt bank 8 4 ≠ dProblem d then some 0
  else ((List.range (dN d)).map (· + 1)).find? fun k =>
    !vecOk bank d bs inputs (vecAt d k) k || !matOk bank d (matAt d k)

namespace State

/-! ### Areas (R307) -/

/-- The homes and banks of a version. -/
def descAreas (d : List Byte) (home : Nat) : List (Nat × Nat) :=
  (home, d.length) :: (dBank d 0, dBankLen d) :: if dBanked d then [(dBank d 1, dBankLen d)] else []

def descSlot (s : State) (d : Nat) : DescSlot := nth DescSlot.empty s.solv.slots d
def modDescSlot (d : Nat) (f : DescSlot → DescSlot) (s : State) : State :=
  { s with solv := { s.solv with slots := modNth f s.solv.slots d } }

/-- A version that a slot holds. [DEDUCED, log entry 77] -/
def descVer (s : State) (slot ver : Nat) : Option DescVer :=
  let x := s.descSlot slot
  (x.cur.toList ++ x.old).find? (·.ver == ver)

/-- Jobs of a version, queued or running (R327). -/
def verJobs (s : State) (slot ver : Nat) : Nat :=
  s.solv.jobs.countP fun x => x.2.slot == slot && x.2.ver == ver && decide (x.2.state < 2)

/-- The areas that loaded versions hold, those of the current version of `skip` left out when it has no job. -/
def loadedAreas (s : State) (skip : Option Nat) : List (Nat × Nat) :=
  (s.solv.slots.mapIdx fun i x => (i, x)).flatMap fun (i, x) =>
    (x.cur.toList ++ x.old).flatMap fun v =>
      if skip = some i ∧ s.verJobs i v.ver = 0 then [] else descAreas v.bytes v.home

/-- The areas of the placed program that R307 names. -/
def programAreas (s : State) : List (Nat × Nat) :=
  match s.cyc.prog with
  | none => []
  | some p =>
    let tasks := (List.range 32).filter s.taskEnabled
    [(s.entryAddr 0, 16 * (s.reg R.CYC_SIGNALS).toNat), (hDataBase p.image, hDataLen p.image)] ++
      tasks.flatMap fun t =>
        [(s.inSection t, 16 * (s.inCount t + s.outCount t)), (s.saveArea t, 320),
         (sramBase + (s.reg (R.CYC_IN_MAP_OFF t)).toNat, 4 * (s.reg (R.CYC_IN_RUNS t)).toNat),
         (sramBase + (s.reg (R.CYC_OUT_MAP_OFF t)).toNat, 4 * (s.reg (R.CYC_OUT_RUNS t)).toNat)]

/-- An area lies wholly in DDR. -/
def areaInDdr (s : State) (a : Nat × Nat) : Bool := Sys2Proof.Machine.inside a s.ddrArea
/-- DDR is ready (R142). -/
def ddrReady (s : State) : Bool := s.regBit R.SYS_MEMCFG 16
/-- An area lies wholly in shared data SRAM or in installed DDR. -/
def areaOk (s : State) (a : Nat × Nat) : Bool := Sys2Proof.Machine.inside a (sramBase, sramSize) || s.areaInDdr a

/-- The banks of a descriptor. -/
def banksOf (d : List Byte) : List (Nat × Nat) :=
  (dBank d 0, dBankLen d) :: if dBanked d then [(dBank d 1, dBankLen d)] else []

/-- The status of the first check of R306 that a descriptor fails, beside what the other areas hold; `slot` is where it
is to be loaded. -/
def descFault (s : State) (slot : Nat) (d : List Byte) : Option (Status × Nat) :=
  let others := s.loadedAreas (some slot) ++ s.programAreas
  let banks := banksOf d
  if !descCheck1 d then some (.solvDescriptor, 1)
  else if !descCheck2 d then some (.solvDescriptor, 2)
  else if !descCheck3 d then some (.solvDescriptor, 3)
  else if !descCheck4 d then some (.solvSize, 0)
  else if dBankLen d ≠ bankLength d then some (.solvDescriptor, 5)
  else if !(banks.all fun b => s.areaOk b && b.1 % 64 == 0 && !(others.any (overlaps b))) || !disjointAll banks then
    some (.solvDescriptor, 6)
  else if !s.ddrReady && banks.any s.areaInDdr then some (.noDdr, 0)
  else if !descCheck7 d then some (.solvDescriptor, 7)
  else if (placement d).isNone then some (.solvSize, 0)
  else none

/-- The home of a descriptor is refused under R307. -/
def homeBad (s : State) (slot home : Nat) (d : List Byte) : Bool :=
  let a := (home, d.length)
  home % 64 != 0 || !s.areaOk a || (s.loadedAreas (some slot) ++ s.programAreas ++ banksOf d).any (overlaps a)

/-! ### Resolution (R309) -/

/-- The signal index of a binding, where it resolves. -/
def resolveBind (s : State) (d : List Byte) (b : Bind) : Option Nat :=
  match s.symById b.sym with
  | none => none
  | some y =>
    let sig := decide (1 ≤ y.kind ∧ y.kind ≤ 3) && typeSize y.type != 0
    let carrier := dCarrier d
    let out := s.taskEnabled carrier && (s.outIndices carrier).contains y.loc
    let ok := if b.target = 0x12 then out && decide (2 ≤ y.type ∧ y.type ≤ 5)
      else if b.isOut then out && y.type != 1 else true
    if sig && ok then some y.loc else none

/-- The resolution of every binding. -/
def resolveAll (s : State) (d : List Byte) : List (Option Nat) := (bindsOf d).map (s.resolveBind d)

end State

/-- A version is UNBOUND (R309). -/
def DescVer.unbound (v : DescVer) : Bool := v.binds.any (·.isNone)

/-- The symbol ID of the first unresolved binding. -/
def DescVer.firstUnbound (v : DescVer) : Nat :=
  (((bindsOf v.bytes).zip v.binds).find? fun x => x.2.isNone).elim 0 (·.1.sym)

end Sys2Proof.Machine
end

