-- ==== Sys2Proof/Machine/SolvNum.lean ====
section
/-! DEFINITION. The numbers of the solver engines: lanes, the extended accumulator, and the scaled problem that a
descriptor, a bank and a job's inputs make (spec 08 R295 to R303, R313; spec 09 R334, R335). -/

namespace Sys2Proof.Machine

/-! ### Lanes (R334) -/

/-- What a lane gives: a result that is infinite or NaN is an overflow, and every overflow is the canonical NaN, which
each later result keeps. -/
def laneOut (x : Nat) : Nat := if fpFinite fp32 x then x else fp32.nan

/-- A value is an overflow. -/
def overflowed (x : Nat) : Bool := !fpFinite fp32 x

def fOne : Nat := 0x3F800000
def fHalf : Nat := 0x3F000000
/-- 0.995 in FP32. -/
def fStep : Nat := 0x3F7EB852

/-- c + a b, and c − a b, with one rounding. -/
def fmaL (a b c : Nat) : Nat := laneOut (fpFma fp32 0 false false a b c).bits
def fmsL (a b c : Nat) : Nat := laneOut (fpFma fp32 0 true false a b c).bits
def addL (a b : Nat) : Nat := laneOut (fpAdd fp32 0 a b).bits
def subL (a b : Nat) : Nat := laneOut (fpSub fp32 0 a b).bits
def mulL (a b : Nat) : Nat := laneOut (fpMul fp32 0 a b).bits
def divL (a b : Nat) : Nat := laneOut (fpDiv fp32 0 a b).bits
def negL (a : Nat) : Nat := laneOut (Nat.xor a (2 ^ 31))
def absL (a : Nat) : Nat := laneOut (a % 2 ^ 31)
/-- `a < b`; an overflow compares false. -/
def ltL (a b : Nat) : Bool := (fpCompare fp32 1 a b).1
/-- The larger of two values; an overflow stays. -/
def maxL (a b : Nat) : Nat := if overflowed a || overflowed b then fp32.nan else if ltL a b then b else a
def minL (a b : Nat) : Nat := if overflowed a || overflowed b then fp32.nan else if ltL b a then b else a

/-- 2^n × x: exact unless it leaves the FP32 range (R303). -/
def scaleL (n : Int) (x : Nat) : Nat :=
  match fpDecode fp32 x with
  | .fin neg m e => laneOut (if m = 0 then fp32.zero neg else (fpRound fp32 0 neg m (e + n)).bits)
  | _ => fp32.nan

/-- The infinity norm of some values. -/
def normL (xs : List Nat) : Nat := xs.foldl (fun m x => maxL m (absL x)) 0

/-- init ± Σ a i × b i over the indices below `n`, in rising order, on a lane. [DESIGN CHOICE, log entry 73] -/
def dotL (neg : Bool) (n : Nat) (a b : Nat → Nat) (init : Nat) : Nat :=
  (List.range n).foldl (fun acc i => if neg then fmsL (a i) (b i) acc else fmaL (a i) (b i) acc) init

/-! ### The extended accumulator (R335) -/

/-- A 48-bit significand and the exponent range of binary64. -/
def accFmt : Fmt := ⟨48, 11⟩

/-- An FP32 value enters the accumulator exactly. -/
def accIn (x : Nat) : Nat := (fpConvert fp32 accFmt 0 x).bits
/-- A component is rounded once, to FP32, when it leaves. -/
def accOut (x : Nat) : Nat := laneOut (fpConvert accFmt fp32 0 x).bits
/-- acc ± a × b, rounded to the accumulator. -/
def accFma (neg : Bool) (a b acc : Nat) : Nat := (fpFma accFmt 0 neg false (accIn a) (accIn b) acc).bits
/-- acc ± x. -/
def accAdd (neg : Bool) (x acc : Nat) : Nat := accFma neg x fOne acc
/-- acc ± Σ a i × b i over the indices below `n`, in rising order. [DESIGN CHOICE, log entry 73] -/
def accDot (neg : Bool) (n : Nat) (a b : Nat → Nat) (acc : Nat) : Nat :=
  (List.range n).foldl (fun acc i => accFma neg (a i) (b i) acc) acc

/-! ### Lists of numbers -/

/-- Element `i` of a vector, and `i`, `j` of a matrix; 0 beyond their ends. -/
def vat (v : List Nat) (i : Nat) : Nat := nth 0 v i
def mat2 (m : List (List Nat)) (i j : Nat) : Nat := vat (nth [] m i) j
/-- The vector of `n` values. -/
def vecOf (n : Nat) (f : Nat → Nat) : List Nat := (List.range n).map f
/-- The matrix of `n` rows and `m` columns. -/
def matOf (n m : Nat) (f : Nat → Nat → Nat) : List (List Nat) := (List.range n).map fun i => vecOf m (f i)
/-- The symmetric matrix whose lower triangle is given. -/
def symOf (n : Nat) (f : Nat → Nat → Nat) : List (List Nat) := matOf n n fun i j => f (max i j) (min i j)
/-- No value of a vector, or of a matrix, is an overflow. -/
def vecFine (v : List Nat) : Bool := v.all fun x => !overflowed x
def matFine (m : List (List Nat)) : Bool := m.all vecFine

/-- Step 1 of R330 for one point, FP32 and unscaled: the largest term of the feasibility test, the dual residual, μ, the
objective and the largest soft-row slack. -/
structure SolveMetrics where
  primal : Nat
  dual : Nat
  mu : Nat
  objective : Nat
  slack : Nat
  deriving DecidableEq, Repr

/-! ### The scaled problem (R295, R298, R303, R313) -/

/-- What a job solves: a descriptor, the bytes of its bank, and the values of its input bindings. -/
structure Prob where
  d : List Byte
  bank : List Byte
  inputs : List (Nat × Nat)

/-- One inequality row with its bindings applied, in scaled units: the bounds that it has, or the value that it must
equal, and the weights of its slack where it is soft. -/
structure RowSpec where
  lo : Option Nat
  hi : Option Nat
  eq : Option Nat
  soft : Option (Nat × Nat)
  deriving DecidableEq, Repr

namespace Prob

def nx (p : Prob) : Nat := dNx p.d
def nu (p : Prob) : Nat := dNu p.d
def nz (p : Prob) : Nat := dNz p.d
def nc (p : Prob) : Nat := dNc p.d
def nd (p : Prob) : Nat := dNd p.d
/-- The stages. -/
def stages (p : Prob) : List Nat := (List.range (dN p.d)).map (· + 1)

/-- The exponents e_i, f_r and g (R303). -/
def colExp (p : Prob) (i : Nat) : Int := toSigned 8 (fieldAt p.d (dScaleOff p.d + i) 1)
def rowExp (p : Prob) (r : Nat) : Int := toSigned 8 (fieldAt p.d (dScaleOff p.d + pad16 p.nz + r) 1)
def costExp (p : Prob) : Int := toSigned 8 (fieldAt p.d 0x1F 1)
/-- The exponent of state element `i`. -/
def stExp (p : Prob) (i : Nat) : Int := p.colExp (p.nu + i)

/-- Element `i`, `j` of a matrix of the bank that begins `off` bytes into the matrix part of stage `k` (R299). -/
def matRaw (p : Prob) (k off cols i j : Nat) : Nat := fieldAt p.bank (matAt p.d k + off + 4 * (i * pad16 cols + j)) 4
/-- Element `i` of a vector that begins `off` values behind the stage header of stage `k`. -/
def vecRaw (p : Prob) (k off i : Nat) : Nat := fieldAt p.bank (vecAt p.d k + 64 + 4 * (off + i)) 4
/-- What the bindings set, the last of each target and element (R313). -/
def bound (p : Prob) (target i k : Nat) : Option Nat := boundRow (bindsOf p.d) p.inputs target i k

def offB (p : Prob) : Nat := 4 * p.nx * pad16 p.nx
def offE (p : Prob) : Nat := p.offB + 4 * p.nx * pad16 p.nu
def offS (p : Prob) : Nat := p.offE + 4 * p.nx * pad16 p.nd
def offH (p : Prob) : Nat := p.offS + 4 * p.nu * pad16 p.nx
def offG (p : Prob) : Nat := p.offH + 4 * p.nz * pad16 p.nz

/-- H_k as the bank holds it: only its lower triangle is read (R297). -/
def hRaw (p : Prob) (k i j : Nat) : Nat := p.matRaw k p.offH p.nz (max i j) (min i j)

/-- A_k, B_k and E_k, with each dynamics row multiplied by 2^−e of its state element. -/
def A (p : Prob) (k i j : Nat) : Nat := scaleL (p.stExp j - p.stExp i) (p.matRaw k 0 p.nx i j)
def B (p : Prob) (k i j : Nat) : Nat := scaleL (p.colExp j - p.stExp i) (p.matRaw k p.offB p.nu i j)
def E (p : Prob) (k i j : Nat) : Nat := scaleL (-p.stExp i) (p.matRaw k p.offE p.nd i j)
/-- S_k and H_k, multiplied by 2^g. -/
def S (p : Prob) (k i j : Nat) : Nat := scaleL (p.costExp + p.colExp i + p.stExp j) (p.matRaw k p.offS p.nx i j)
def H (p : Prob) (k i j : Nat) : Nat := scaleL (p.costExp + p.colExp i + p.colExp j) (p.hRaw k i j)
/-- G_k, with row r multiplied by 2^f_r. -/
def G (p : Prob) (k r j : Nat) : Nat := scaleL (p.rowExp r + p.colExp j) (p.matRaw k p.offG p.nz r j)

/-- c_k. -/
def c (p : Prob) (k i : Nat) : Nat := scaleL (-p.stExp i) (p.vecRaw k 0 i)
/-- d_k, unscaled, with the bindings on DIST. -/
def dist (p : Prob) (k i : Nat) : Nat := (p.bound 2 i k).getD (p.vecRaw k (pad16 p.nx + pad16 p.nz) i)
/-- h_k − H_k ρ_k, ρ_k as the bindings on REF set it. -/
def h (p : Prob) (k i : Nat) : Nat :=
  scaleL (p.costExp + p.colExp i)
    (dotL true p.nz (p.hRaw k i) (fun j => (p.bound 3 j k).getD 0) (p.vecRaw k (pad16 p.nx) i))
/-- x_0: an element that no binding sets is 0. -/
def x0 (p : Prob) : List Nat := vecOf p.nx fun i => scaleL (-p.stExp i) ((p.bound 1 i 0).getD 0)

/-- Row `r` of stage `k` (R298): a soft row with both weights 0, or without a bound, never constrains, and a soft
EQUALITY row is one whose two bounds are the same. [DEDUCED, log entry 155] -/
def row (p : Prob) (k r : Nat) : RowSpec :=
  let v (j : Nat) : Nat := p.vecRaw k (pad16 p.nx + pad16 p.nz + pad16 p.nd + j * pad16 p.nc) r
  let fl : Byte := nth 0 p.bank (vecAt p.d k + 64 + 4 * (pad16 p.nx + pad16 p.nz + pad16 p.nd + 4 * pad16 p.nc) + r)
  let f := p.rowExp r
  let lo := (p.bound 4 r k).getD (v 0)
  let hi := (p.bound 5 r k).getD (v 1)
  let has (b : Nat) (t : Nat) : Bool := bit fl b || (p.bound t r k).isSome
  let loS := scaleL f lo
  let sideLo := if has 0 4 then some loS else none
  let sideHi := if has 1 5 then some (scaleL f hi) else none
  if bit fl 3 then
    let none' : RowSpec := ⟨none, none, none, none⟩
    if v 2 % 2 ^ 31 = 0 ∧ v 3 % 2 ^ 31 = 0 then none'
    else
      let w := some (scaleL (p.costExp - f) (v 2), scaleL (p.costExp - 2 * f) (v 3))
      if bit fl 2 then ⟨some loS, some loS, none, w⟩
      else if sideLo.isNone && sideHi.isNone then none'
      else ⟨sideLo, sideHi, none, w⟩
  else if bit fl 2 then ⟨none, none, some loS, none⟩
  else ⟨sideLo, sideHi, none, none⟩

/-- The EQUALITY rows of a stage. -/
def eqRows (p : Prob) (k : Nat) : List Nat := (List.range p.nc).filter fun r => (p.row k r).eq.isSome

end Prob

end Sys2Proof.Machine
end

