-- ==== Sys2Proof/Machine/SolvIter.lean ====
section
/-! DEFINITION. One iteration of the interior-point method: residuals, the block-Riccati factorisation under the pivot
rules, the refined solves, and the step (spec 09 R329 to R340). Every number is an FP32 value in scaled units; the order of
the operations is the model's choice. [DESIGN CHOICE, log entry 73] -/

namespace Sys2Proof.Machine

/-! ### Vectors by stage -/

def KktVec.zero : KktVec := ⟨[], [], [], []⟩
def RowPt.zero : RowPt := ⟨0, 0, 0, 0, 0, 0⟩
def StagePt.zero : StagePt := ⟨KktVec.zero, []⟩

/-- Element `j` of z_k = (u_{k−1}, x_k), `n` inputs first. -/
def KktVec.z (v : KktVec) (n j : Nat) : Nat := if j < n then vat v.u j else vat v.x (j - n)
/-- All values of one stage. -/
def KktVec.all (v : KktVec) : List Nat := v.u ++ v.x ++ v.y ++ v.nu
def RowPt.all (r : RowPt) : List Nat := [r.tLo, r.tHi, r.lLo, r.lHi, r.s, r.ls]
/-- No value of a stage is an overflow. -/
def StagePt.fine (a : StagePt) : Bool := vecFine a.v.all && a.rows.all fun r => vecFine r.all

/-- Stage `k`, counted from 1. -/
def stageOf (v : List KktVec) (k : Nat) : KktVec := nth KktVec.zero v (k - 1)
/-- x_{k−1}. -/
def prevX (x0 : List Nat) (v : List KktVec) (k : Nat) : List Nat := if k ≤ 1 then x0 else (stageOf v (k - 1)).x
/-- The infinity norm of a vector. -/
def kktNorm (v : List KktVec) : Nat := normL (v.flatMap KktVec.all)
/-- The sum of two vectors. -/
def kktAdd (a b : List KktVec) : List KktVec :=
  List.zipWith (fun x y => ⟨List.zipWith addL x.u y.u, List.zipWith addL x.x y.x, List.zipWith addL x.y y.y,
    List.zipWith addL x.nu y.nu⟩) a b

/-- The pairs of slack and multiplier that a row has: its bounded sides, and its own slack where it is soft. -/
def RowSpec.pairs (w : RowSpec) (r : RowPt) : List (Nat × Nat) :=
  (if w.lo.isSome then [(r.tLo, r.lLo)] else []) ++ (if w.hi.isSome then [(r.tHi, r.lHi)] else []) ++
    (if w.soft.isSome then [(r.s, r.ls)] else [])

/-- The quotient of a sum of products by their number; 0 for none. -/
def meanOf (xs : List (Nat × Nat)) : Nat :=
  if xs.isEmpty then 0
  else divL (accOut (xs.foldl (fun acc x => accFma false x.1 x.2 acc) 0)) (fpOfInt fp32 0 xs.length).bits

namespace Prob

/-! ### The system's rows (R335)

Each adds to, or takes from, an accumulator one row of the Karush-Kuhn-Tucker system applied to a vector whose x_0 is
`x0`. -/

/-- The stationarity row of element `i` of z_k, with `hess` in place of H. -/
def kktZ (p : Prob) (neg : Bool) (hess : Nat → Nat → Nat → Nat) (x0 : List Nat) (v : List KktVec) (k i acc : Nat) : Nat :=
  let w := stageOf v k
  let acc := accDot neg p.nz (hess k i) (w.z p.nu) acc
  let acc := accDot neg p.nc (fun r => p.G k r i) (vat w.nu) acc
  if i < p.nu then
    let acc := accDot neg p.nx (p.S k i) (vat (prevX x0 v k)) acc
    accDot neg p.nx (fun j => p.B k j i) (vat w.y) acc
  else
    let acc := accAdd (!neg) (vat w.y (i - p.nu)) acc
    if k < dN p.d then
      let n := stageOf v (k + 1)
      let acc := accDot neg p.nu (fun j => p.S (k + 1) j (i - p.nu)) (vat n.u) acc
      accDot neg p.nx (fun j => p.A (k + 1) j (i - p.nu)) (vat n.y) acc
    else acc

/-- The dynamics row of element `i` of x_k: A x_{k−1} + B u_{k−1} − x_k. -/
def kktY (p : Prob) (neg : Bool) (x0 : List Nat) (v : List KktVec) (k i acc : Nat) : Nat :=
  let acc := accDot neg p.nx (p.A k i) (vat (prevX x0 v k)) acc
  let acc := accDot neg p.nu (p.B k i) (vat (stageOf v k).u) acc
  accAdd (!neg) (vat (stageOf v k).x i) acc

/-- G z of row `r`. -/
def kktG (p : Prob) (neg : Bool) (v : List KktVec) (k r acc : Nat) : Nat :=
  accDot neg p.nz (p.G k r) ((stageOf v k).z p.nu) acc

/-! ### The starting point and the plan (R329, R344, R360) -/

/-- The unscaled plan of a point, padded with zeros. -/
def planOf (p : Prob) (pt : List StagePt) : List Nat :=
  pt.flatMap fun a =>
    vecOf (pad16 p.nu) (fun i => if i < p.nu then scaleL (p.colExp i) (vat a.v.u i) else 0) ++
      vecOf (pad16 p.nx) (fun i => if i < p.nx then scaleL (p.stExp i) (vat a.v.x i) else 0)

/-- The point from which a job starts: z from a tail plan, or 0; slacks from the row values; every multiplier 1.
[DEDUCED, log entry 155] -/
def startPoint (p : Prob) (tail : Option (List Nat)) : List StagePt :=
  p.stages.map fun k =>
    let z := tail.getD []
    let v : KktVec :=
      { u := vecOf p.nu fun i => scaleL (-p.colExp i) (planU p.d z (k - 1) i)
        x := vecOf p.nx fun i => scaleL (-p.stExp i) (planX p.d z k i)
        y := vecOf p.nx fun _ => fOne
        nu := vecOf p.nc fun r => if (p.row k r).eq.isSome then fOne else 0 }
    { v := v
      rows := (List.range p.nc).map fun r =>
        let w := p.row k r
        let g := accOut (accDot false p.nz (p.G k r) (v.z p.nu) 0)
        let one (on : Bool) : Nat := if on then fOne else 0
        { tLo := (w.lo.map fun lo => maxL fOne (subL g lo)).getD 0
          tHi := (w.hi.map fun hi => maxL fOne (subL hi g)).getD 0
          lLo := one w.lo.isSome, lHi := one w.hi.isSome, s := one w.soft.isSome, ls := one w.soft.isSome } }

/-! ### Step 1: residuals and the numbers of the tests (R330, R331, R335) -/

/-- The residuals of one row: of its two sides, of an EQUALITY row, and of a soft slack's stationarity. -/
structure RowRes where
  lo : Nat
  hi : Nat
  eq : Nat
  soft : Nat

/-- The residuals of one stage. -/
structure StageRes where
  dual : List Nat
  dyn : List Nat
  rows : List RowRes

/-- Step 1 for a point. -/
def residuals (p : Prob) (pt : List StagePt) : List StageRes :=
  let v := pt.map (·.v)
  p.stages.map fun k =>
    let rows := (nth StagePt.zero pt (k - 1)).rows
    let row (r : Nat) : RowPt := nth RowPt.zero rows r
    { dual := vecOf p.nz fun i =>
        let acc := p.kktZ false p.H p.x0 v k i (accIn (p.h k i))
        let acc := accDot false p.nc (fun r => p.G k r i) (fun r => (row r).lHi) acc
        accOut (accDot true p.nc (fun r => p.G k r i) (fun r => (row r).lLo) acc)
      dyn := vecOf p.nx fun i =>
        accOut (p.kktY false p.x0 v k i (accDot false p.nd (p.E k i) (p.dist k) (accIn (p.c k i))))
      rows := (List.range p.nc).map fun r =>
        let w := p.row k r
        let a := row r
        { lo := (w.lo.map fun lo => accOut (p.kktG false v k r (accAdd true a.tLo (accAdd true lo (accIn a.s))))).getD 0
          hi := (w.hi.map fun hi => accOut (p.kktG true v k r (accAdd true a.tHi (accAdd false hi (accIn a.s))))).getD 0
          eq := (w.eq.map fun x => accOut (p.kktG false v k r (accAdd true x 0))).getD 0
          soft := (w.soft.map fun x =>
            accOut (accAdd true a.ls (accAdd true a.lHi (accAdd true a.lLo (accFma false x.2 a.s (accIn x.1)))))).getD 0 } }

/-- Every pair of slack and multiplier of a point. -/
def allPairs (p : Prob) (pt : List StagePt) : List (Nat × Nat) :=
  p.stages.flatMap fun k =>
    (List.range p.nc).flatMap fun r => (p.row k r).pairs (nth RowPt.zero (nth StagePt.zero pt (k - 1)).rows r)

/-- The complementarity measure μ. -/
def mu (p : Prob) (pt : List StagePt) : Nat := meanOf (p.allPairs pt)

/-- How far a hard bound is violated, from z alone. -/
def violation (p : Prob) (v : List KktVec) (k r : Nat) : Nat :=
  let w := p.row k r
  let lo := (w.lo.map fun lo => accOut (p.kktG true v k r (accIn lo))).getD 0
  let hi := (w.hi.map fun hi => accOut (p.kktG false v k r (accAdd true hi 0))).getD 0
  if w.soft.isSome then 0 else maxL 0 (maxL lo hi)

/-- The objective of R295 in scaled units, up to the constant of the references (R313). -/
def objective (p : Prob) (pt : List StagePt) : Nat :=
  let v := pt.map (·.v)
  accOut <| p.stages.foldl (fun acc k =>
    let w := stageOf v k
    let acc := (List.range p.nz).foldl (fun acc i =>
      let z := w.z p.nu i
      let hz := accOut (accDot false p.nz (p.H k i) (w.z p.nu) 0)
      let sx := if i < p.nu then accOut (accDot false p.nx (p.S k i) (vat (prevX p.x0 v k)) 0) else 0
      accFma false z sx (accFma false z (p.h k i) (accFma false (mulL fHalf z) hz acc))) acc
    (List.range p.nc).foldl (fun acc r =>
      let s := (nth RowPt.zero (nth StagePt.zero pt (k - 1)).rows r).s
      match (p.row k r).soft with
      | some x => accFma false (mulL fHalf (mulL x.2 s)) s (accFma false x.1 s acc)
      | none => acc) acc) 0

/-- What step 1 gives for the tests of R331 and the record (R359), unscaled: the largest term of the feasibility test, the
dual residual, μ, the objective and the largest soft slack. [DEDUCED, log entry 155] -/
def metrics (p : Prob) (pt : List StagePt) : SolveMetrics :=
  let v := pt.map (·.v)
  let res := p.residuals pt
  let g := p.costExp
  let at' (k : Nat) : StageRes := nth ⟨[], [], []⟩ res (k - 1)
  let rowRes (k r : Nat) : RowRes := nth ⟨0, 0, 0, 0⟩ (at' k).rows r
  let worst (f : Nat → List Nat) : Nat := normL (p.stages.flatMap f)
  let byRow (f : Nat → Nat → Nat) : Nat := worst fun k => vecOf p.nc (f k)
  { primal := maxL (worst fun k => vecOf p.nx fun i => scaleL (p.stExp i) (vat (at' k).dyn i))
      (byRow fun k r => maxL (absL (scaleL (-p.rowExp r) (rowRes k r).eq)) (scaleL (-p.rowExp r) (p.violation v k r)))
    dual := maxL (worst fun k => vecOf p.nz fun i => scaleL (-g - p.colExp i) (vat (at' k).dual i))
      (byRow fun k r => scaleL (p.rowExp r - g) (rowRes k r).soft)
    mu := scaleL (-g) (p.mu pt)
    objective := scaleL (-g) (p.objective pt)
    slack := byRow fun k r => scaleL (-p.rowExp r) (nth RowPt.zero (nth StagePt.zero pt (k - 1)).rows r).s }

end Prob

/-! ### Pivots (R337, R339) -/

/-- A factorised block L D Lᵀ: the columns of L, D, what the rules have added to each diagonal entry, the replacements,
and whether a pivot had the wrong sign. -/
structure Ldl where
  cols : List (List Nat)
  diag : List Nat
  shift : List Nat
  replaced : Nat
  wrong : Bool

/-- The exponents t and r of a descriptor (R304). -/
def tauExp (d : List Byte) : Nat := if fieldAt d 6 1 = 0 then 20 else fieldAt d 6 1
def deltaExp (d : List Byte) : Nat := if fieldAt d 7 1 = 0 then 16 else fieldAt d 7 1

/-- The scale of a block (R337). -/
def blockScale (n : Nat) (a : List (List Nat)) : Nat := (List.range n).foldl (fun m i => maxL m (absL (mat2 a i i))) fOne

/-- One pivot under R337 and R339: what stands in its place, whether it was replaced, and whether its sign is wrong. -/
def pivotRule (primal : Bool) (limit delta d : Nat) : Nat × Bool × Bool :=
  let neg := ltL d 0
  if ltL (absL d) limit then
    (if d % 2 ^ 31 = 0 then (if primal then delta else negL delta) else if neg then negL delta else delta, true, false)
  else (d, false, !overflowed d && neg == primal)

/-- The factorisation of a symmetric block of order `n` whose first `np` entries are the primal part, at retry `level`
(R337 to R339): its pivots are taken in order. -/
def ldl (d : List Byte) (n np level : Nat) (a : List (List Nat)) : Ldl :=
  let scale := blockScale n a
  let delta := scaleL (4 * (level : Int) - deltaExp d) scale
  let limit := if level = 0 then scaleL (-(tauExp d : Int)) scale else delta
  let added (i : Nat) : Nat := if level = 0 then 0 else if i < np then delta else negL delta
  let a := matOf n n fun i j => if i = j then addL (mat2 a i i) (added i) else mat2 a i j
  ((List.range n).foldl (fun (st : List (List Nat) × Ldl) j =>
    let (a, f) := st
    let d0 := mat2 a j j
    let (dj, rep, wrong) := pivotRule (decide (j < np)) limit delta d0
    let col := vecOf n fun i => if i < j then 0 else if i = j then fOne else divL (mat2 a i j) dj
    (symOf n fun i m => if j < m then fmsL (vat col i) (mat2 a m j) (mat2 a i m) else mat2 a i m,
     { cols := f.cols ++ [col], diag := f.diag ++ [dj], shift := f.shift ++ [addL (added j) (subL dj d0)],
       replaced := f.replaced + (if rep then 1 else 0), wrong := f.wrong || wrong }))
    (a, ⟨[], [], [], 0, false⟩)).2

/-- The factors hold no overflow. -/
def Ldl.fine (f : Ldl) : Bool := matFine f.cols && vecFine f.diag

/-- The solution of L D Lᵀ x = b. -/
def Ldl.solve (f : Ldl) (b : List Nat) : List Nat :=
  let n := b.length
  let w := (List.range n).foldl (fun w i => w ++ [dotL true i (fun j => mat2 f.cols j i) (vat w) (vat b i)]) []
  let w := List.zipWith divL w f.diag
  (List.range n).foldl (fun x i =>
    let r := n - 1 - i
    dotL true i (fun j => mat2 f.cols r (r + 1 + j)) (vat x) (vat w r) :: x) []

/-! ### The pieces of an iteration

Between two checks of R341 an engine does one stage's work of one sweep. -/

/-- The work of one stage in one sweep: the block that its failure refactorises (128 + k for the interface block in front
of stage k), whether it fails, and what it adds to the counts. -/
structure Piece where
  key : Nat
  stage : Nat
  bad : Bool
  pivots : Nat := 0
  inertia : Bool := false
  refine : Nat := 0
  limit : Bool := false

/-- The counts of an iteration (R336, R338, R339). -/
structure Tally where
  pivots : Nat
  retries : Nat
  refine : Nat
  firstRetry : Nat
  inertia : Bool
  refineLimit : Bool
  deriving DecidableEq, Repr

def Tally.zero : Tally := ⟨0, 0, 0, 0, false, false⟩

/-- A check of R341 inside an iteration: the stage at which it stops, and the counts so far. -/
structure Check where
  stage : Nat
  tally : Tally
  deriving DecidableEq, Repr

/-- A sweep over stages whose parts may fail. -/
def sweepOf (stages : List Nat) (bad : Nat → Bool) : List Piece := stages.map fun k => { key := k, stage := k, bad := bad k }

namespace Prob

/-! ### Step 4: factorisation (R330, R333) -/

/-- Σ of a row's sides and slack, the pivot of its slack, and the row's condensed weight. -/
structure RowSig where
  lo : Nat
  hi : Nat
  soft : Nat
  den : Nat
  sig : Nat

def rowSig (w : RowSpec) (a : RowPt) : RowSig :=
  let lo := if w.lo.isSome then divL a.lLo a.tLo else 0
  let hi := if w.hi.isSome then divL a.lHi a.tHi else 0
  match w.soft with
  | none => ⟨lo, hi, 0, fOne, addL lo hi⟩
  | some x =>
    let soft := divL a.ls a.s
    let den := addL (addL (addL x.2 lo) hi) soft
    let gap := subL lo hi
    ⟨lo, hi, soft, den, fmsL gap (divL gap den) (addL lo hi)⟩

/-- The factors of one stage: the condensed Hessian, M = H_xx + P, the coupling with x_{k−1} of the inputs and of the
EQUALITY rows, the block's factors, the feedback by columns, and P of the stage before. -/
structure StageFact where
  hess : List (List Nat)
  m : List (List Nat)
  qux : List (List Nat)
  cx : List (List Nat)
  f : Ldl
  gain : List (List Nat)
  value : List (List Nat)

/-- The factorisation of stage `k`, `next` being P of the stage behind it. -/
def stageFact (p : Prob) (level : Nat) (pt : List StagePt) (k : Nat) (next : List (List Nat)) : StageFact :=
  let (nu, nx) := (p.nu, p.nx)
  let rows := (nth StagePt.zero pt (k - 1)).rows
  let sig := (List.range p.nc).map fun r => (rowSig (p.row k r) (nth RowPt.zero rows r)).sig
  let hess := symOf p.nz fun i j =>
    dotL false p.nc (fun r => p.G k r i) (fun r => mulL (vat sig r) (p.G k r j)) (p.H k i j)
  let hux (i j : Nat) : Nat := mat2 hess i (nu + j)
  let m := symOf nx fun i j => addL (mat2 hess (nu + i) (nu + j)) (mat2 next i j)
  let ma := matOf nx nx fun i j => dotL false nx (mat2 m i) (fun l => p.A k l j) 0
  let mb := matOf nx nu fun i j => dotL false nx (mat2 m i) (fun l => p.B k l j) 0
  let eqs := p.eqRows k
  let eq (i : Nat) : Nat := nth 0 eqs i
  let n := nu + eqs.length
  let quu (i j : Nat) : Nat :=
    dotL false nx (fun l => p.B k l i) (fun l => mat2 mb l j)
      (dotL false nx (hux j) (fun l => p.B k l i) (dotL false nx (hux i) (fun l => p.B k l j) (mat2 hess i j)))
  let qux := matOf nu nx fun i j =>
    dotL false nx (fun l => p.B k l i) (fun l => mat2 ma l j) (dotL false nx (hux i) (fun l => p.A k l j) (p.S k i j))
  let cx := matOf eqs.length nx fun r j => dotL false nx (fun l => p.G k (eq r) (nu + l)) (fun l => p.A k l j) 0
  let cu (r i : Nat) : Nat := dotL false nx (fun l => p.G k (eq r) (nu + l)) (fun l => p.B k l i) (p.G k (eq r) i)
  let f := ldl p.d n nu level (symOf n fun i j => if i < nu then quu i j else if j < nu then cu (i - nu) j else 0)
  let low (i j : Nat) : Nat := if i < nu then mat2 qux i j else mat2 cx (i - nu) j
  let gain := (List.range nx).map fun j => f.solve (vecOf n fun i => negL (low i j))
  let value := symOf nx fun i j =>
    dotL false n (fun l => low l i) (fun l => mat2 gain j l) (dotL false nx (fun l => p.A k l i) (fun l => mat2 ma l j) 0)
  ⟨hess, m, qux, cx, f, gain, value⟩

/-- The factorisation of a stage fails by an overflow. -/
def StageFact.fine (f : StageFact) : Bool :=
  matFine f.hess && matFine f.m && matFine f.qux && matFine f.cx && f.f.fine && matFine f.gain && matFine f.value

/-- The blocks in the order in which they are factorised: the stages from N down to 1, and on four engines the interface
block of each range behind its first stage (R333). -/
def blockOrder (d : List Byte) (four : Bool) : List Nat :=
  ((List.range (dN d)).map fun i => dN d - i).flatMap fun k =>
    if four && (List.range 4).any (fun r => rangeStart d r == k) then [k, 128 + k] else [k]

/-- The factorisation of every block, by stage, with its pieces. On four engines the interface block of a range is P of the
state that enters it, factorised under the pivot rules, and the range before takes it with what they have added.
[DESIGN CHOICE, log entry 73] -/
def factorise (p : Prob) (four : Bool) (levels : Nat → Nat) (pt : List StagePt) : List StageFact × List Piece :=
  let r := (blockOrder p.d four).foldl (fun (st : List (List Nat) × List StageFact × List Piece) key =>
    let (value, fs, ps) := st
    if key < 128 then
      let f := p.stageFact (levels key) pt key value
      (f.value, f :: fs, ps ++ [{ key := key, stage := key, bad := !f.fine || f.f.wrong, pivots := f.f.replaced,
                                  inertia := f.f.wrong }])
    else
      let f := ldl p.d p.nx p.nx (levels key) value
      (matOf p.nx p.nx fun i j => if i = j then addL (mat2 value i i) (vat f.shift i) else mat2 value i j, fs,
        ps ++ [{ key := key, stage := key - 128, bad := !f.fine || f.wrong, pivots := f.replaced, inertia := f.wrong }]))
    (matOf p.nx p.nx fun _ _ => 0, [], [])
  (r.2.1, r.2.2)

/-! ### The solves (R336) -/

/-- One solve with the factors: a sweep backward and a sweep forward. [DESIGN CHOICE, log entry 73] -/
def solveOnce (p : Prob) (fs : List StageFact) (b : List KktVec) : List KktVec × List Piece :=
  let (nu, nx) := (p.nu, p.nx)
  let fact (k : Nat) : StageFact := nth ⟨[], [], [], [], ⟨[], [], [], 0, false⟩, [], []⟩ fs (k - 1)
  let eqs (k : Nat) : List Nat := p.eqRows k
  let hux (k i j : Nat) : Nat := mat2 (fact k).hess i (nu + j)
  let beta (k j : Nat) : Nat := negL (vat (stageOf b k).y j)
  -- by stage: the feed-forward term, and the gradient in x_k with what lies behind it
  let back := p.stages.reverse.foldl (fun (st : List Nat × List (List Nat × List Nat)) k =>
    let f := fact k
    let v := stageOf b k
    let grad := vecOf nx fun i => subL (vat st.1 i) (vat v.x i)
    let m := vecOf nx fun i => dotL false nx (mat2 f.m i) (beta k) (vat grad i)
    let qu (i : Nat) : Nat :=
      dotL false nx (fun l => p.B k l i) (vat m) (dotL false nx (hux k i) (beta k) (negL (vat v.u i)))
    let c0 (r : Nat) : Nat := dotL true nx (fun l => p.G k r (nu + l)) (beta k) (vat v.nu r)
    let ff := f.f.solve ((vecOf nu fun i => negL (qu i)) ++ (eqs k).map c0)
    let next := vecOf nx fun j =>
      dotL false (eqs k).length (fun r => mat2 f.cx r j) (fun r => vat ff (nu + r))
        (dotL false nu (fun i => mat2 f.qux i j) (vat ff) (dotL false nx (fun l => p.A k l j) (vat m) 0))
    (next, (ff, grad) :: st.2)) (vecOf nx fun _ => 0, [])
  let fwd := p.stages.foldl (fun (st : List Nat × List KktVec) k =>
    let f := fact k
    let (ff, grad) := nth ([], []) back.2 (k - 1)
    let low := vecOf ff.length fun i => dotL false nx (fun j => mat2 f.gain j i) (vat st.1) (vat ff i)
    let x := vecOf nx fun i =>
      dotL false nu (p.B k i) (vat low) (dotL false nx (p.A k i) (vat st.1) (beta k i))
    let nuV := vecOf p.nc fun r => ((eqs k).findIdx? (· == r)).elim 0 fun j => vat low (nu + j)
    let y := vecOf nx fun i =>
      dotL false p.nc (fun r => p.G k r (nu + i)) (vat nuV)
        (dotL false nu (fun l => hux k l i) (vat low) (dotL false nx (mat2 f.m i) (vat x) (vat grad i)))
    (x, st.2 ++ [⟨low.take nu, x, y, nuV⟩])) (vecOf nx fun _ => 0, [])
  (fwd.2,
    sweepOf p.stages.reverse (fun k =>
      !vecFine (stageOf b k).all || !(let w := nth ([], []) back.2 (k - 1); vecFine w.1 && vecFine w.2)) ++
    sweepOf p.stages fun k => !vecFine (stageOf fwd.2 k).all)

/-- r = b − K y with extended accumulation, by stage. -/
def refineRes (p : Prob) (fs : List StageFact) (b v : List KktVec) : List KktVec :=
  let hess (k i j : Nat) : Nat := mat2 (nth ⟨[], [], [], [], ⟨[], [], [], 0, false⟩, [], []⟩ fs (k - 1)).hess i j
  let zero := vecOf p.nx fun _ => 0
  p.stages.map fun k =>
    let w := stageOf b k
    { u := vecOf p.nu fun i => accOut (p.kktZ true hess zero v k i (accIn (vat w.u i)))
      x := vecOf p.nx fun i => accOut (p.kktZ true hess zero v k (p.nu + i) (accIn (vat w.x i)))
      y := vecOf p.nx fun i => accOut (p.kktY true zero v k i (accIn (vat w.y i)))
      nu := vecOf p.nc fun r =>
        if (p.row k r).eq.isSome then accOut (p.kktG true v k r (accIn (vat w.nu r))) else 0 }

/-- The pieces of a residual sweep; the last one shows whether the solve ends above 2^−12 of its right-hand side. -/
def resPieces (p : Prob) (r : List KktVec) : List Piece := sweepOf p.stages fun k => !vecFine (stageOf r k).all

/-- Marks the last piece of a solve that ends above the limit of R336. -/
def markLimit (missed : Bool) (ps : List Piece) : List Piece :=
  ps.mapIdx fun i x => if i + 1 = ps.length then { x with limit := missed } else x

/-- The refinement of a solution `v` with residual `r`, by at most `n` steps. -/
def refine (p : Prob) (fs : List StageFact) (b : List KktVec) : Nat → List KktVec → List KktVec → List KktVec × List Piece
  | 0, v, r => (v, finish b r (p.resPieces r))
  | n + 1, v, r =>
    let norm := kktNorm r
    if !ltL (scaleL (-22) (kktNorm b)) norm then (v, finish b r (p.resPieces r))
    else
      let (dv, ps) := p.solveOnce fs r
      let v' := kktAdd v dv
      let r' := p.refineRes fs b v'
      let head := p.resPieces r ++ ps.mapIdx fun i x => if i = 0 then { x with refine := 1 } else x
      if ltL (mulL fHalf norm) (kktNorm r') then
        let better := ltL (kktNorm r') norm
        (if better then v' else v, head ++ finish b (if better then r' else r) (p.resPieces r'))
      else
        let (w, more) := refine p fs b n v' r'
        (w, head ++ more)
where
  /-- The end of a solve with residual `r`. -/
  finish (b r : List KktVec) (ps : List Piece) : List Piece :=
    markLimit (ltL (scaleL (-12) (kktNorm b)) (kktNorm r)) ps

/-- A refined solve. -/
def solve (p : Prob) (fs : List StageFact) (b : List KktVec) : List KktVec × List Piece :=
  let (v, ps) := p.solveOnce fs b
  let (w, more) := p.refine fs b 4 v (p.refineRes fs b v)
  (w, ps ++ more)

/-! ### Steps 5 to 7 -/

/-- The right-hand sides of a row's complementarity: t λ, with the second-order term of a direction, less the centring. -/
def comp (dir : RowPt) (centre : Nat) (a : RowPt) : Nat × Nat × Nat :=
  let c (t l dt dl : Nat) : Nat := subL (fmaL dt dl (mulL t l)) centre
  (c a.tLo a.lLo dir.tLo dir.lLo, c a.tHi a.lHi dir.tHi dir.lHi, c a.s a.ls dir.s dir.ls)

/-- What a row adds to the stationarity of its stage beside Σ, and the right-hand side of its slack. -/
def rowRho (w : RowSpec) (a : RowPt) (q : RowSig) (e : RowRes) (c : Nat × Nat × Nat) : Nat × Nat :=
  let lo := if w.lo.isSome then fmaL q.lo e.lo (divL c.1 a.tLo) else 0
  let hi := if w.hi.isSome then fmaL q.hi e.hi (divL c.2.1 a.tHi) else 0
  match w.soft with
  | none => (subL lo hi, 0)
  | some _ =>
    let rhs := negL (addL (addL (addL e.soft lo) hi) (divL c.2.2 a.s))
    (fmaL (subL q.lo q.hi) (divL rhs q.den) (subL lo hi), rhs)

/-- The direction of a row's slacks and multipliers, once G dz is known. -/
def rowDir (w : RowSpec) (a : RowPt) (q : RowSig) (e : RowRes) (c : Nat × Nat × Nat) (g : Nat) : RowPt :=
  let ds := if w.soft.isSome then divL (fmsL (subL q.lo q.hi) g (rowRho w a q e c).2) q.den else 0
  let tLo := if w.lo.isSome then addL (addL g ds) e.lo else 0
  let tHi := if w.hi.isSome then addL (subL ds g) e.hi else 0
  { tLo := tLo, tHi := tHi
    lLo := if w.lo.isSome then negL (fmaL q.lo tLo (divL c.1 a.tLo)) else 0
    lHi := if w.hi.isSome then negL (fmaL q.hi tHi (divL c.2.1 a.tHi)) else 0
    s := ds
    ls := if w.soft.isSome then negL (fmaL q.soft ds (divL c.2.2 a.s)) else 0 }

/-- The Newton direction whose complementarity takes the second-order term of `dir` and the centring `centre`.
[DESIGN CHOICE, log entry 73] -/
def newton (p : Prob) (fs : List StageFact) (res : List StageRes) (pt dir : List StagePt) (centre : Nat) :
    List StagePt × List Piece :=
  let row (k r : Nat) : RowPt := nth RowPt.zero (nth StagePt.zero pt (k - 1)).rows r
  let sig (k r : Nat) : RowSig := rowSig (p.row k r) (row k r)
  let rs (k : Nat) : StageRes := nth ⟨[], [], []⟩ res (k - 1)
  let e (k r : Nat) : RowRes := nth ⟨0, 0, 0, 0⟩ (rs k).rows r
  let c (k r : Nat) : Nat × Nat × Nat :=
    comp (nth RowPt.zero (nth StagePt.zero dir (k - 1)).rows r) centre (row k r)
  let b := p.stages.map fun k =>
    let rho := vecOf p.nc fun r => (rowRho (p.row k r) (row k r) (sig k r) (e k r) (c k r)).1
    let bz (i : Nat) : Nat := negL (dotL false p.nc (fun r => p.G k r i) (vat rho) (vat (rs k).dual i))
    ({ u := vecOf p.nu bz, x := vecOf p.nx fun i => bz (p.nu + i), y := (rs k).dyn.map negL,
       nu := vecOf p.nc fun r => if (p.row k r).eq.isSome then negL (e k r).eq else 0 } : KktVec)
  let (v, ps) := p.solve fs b
  (p.stages.map fun k =>
    let w := stageOf v k
    { v := w
      rows := (List.range p.nc).map fun r =>
        rowDir (p.row k r) (row k r) (sig k r) (e k r) (c k r) (dotL false p.nz (p.G k r) (w.z p.nu) 0) }, ps)

/-- The largest step along `dv` that keeps every value of `v` non-negative; none where no value falls. -/
def largest (xs : List (Nat × Nat)) : Option Nat :=
  xs.foldl (fun m x =>
    if ltL x.2 0 then
      let q := divL x.1 (negL x.2)
      some ((m.map (minL q)).getD q)
    else m) none

/-- The point `a` moved along `d`, by one step for the primal and one for the dual variables. -/
def move (prim dual : Nat) (a d : StagePt) : StagePt :=
  let v (s : Nat) (x y : List Nat) : List Nat := List.zipWith (fun x y => fmaL s y x) x y
  { v := ⟨v prim a.v.u d.v.u, v prim a.v.x d.v.x, v dual a.v.y d.v.y, v dual a.v.nu d.v.nu⟩
    rows := List.zipWith (fun (x y : RowPt) =>
      ⟨fmaL prim y.tLo x.tLo, fmaL prim y.tHi x.tHi, fmaL dual y.lLo x.lLo, fmaL dual y.lHi x.lHi, fmaL prim y.s x.s,
        fmaL dual y.ls x.ls⟩) a.rows d.rows }

/-- Steps 4 to 7 at given retry levels: the pieces in their order, and the new point. A point whose plan leaves the FP32
range is an overflow of its update. [DESIGN CHOICE, log entry 73] -/
def attempt (p : Prob) (four : Bool) (pt : List StagePt) (levels : Nat → Nat) : List Piece × List StagePt :=
  let res := p.residuals pt
  let (fs, ps) := p.factorise four levels pt
  let (aff, ps1) := p.newton fs res pt [] 0
  let pairs := p.allPairs pt
  let mu := meanOf pairs
  let dirs := p.allPairs aff
  let both := pairs.zip dirs
  let reach (d : List ((Nat × Nat) × (Nat × Nat))) : List (Nat × Nat) × List (Nat × Nat) :=
    (d.map fun x => (x.1.1, x.2.1), d.map fun x => (x.1.2, x.2.2))
  let capped (m : Option Nat) : Nat := (m.map (minL fOne)).getD fOne
  let step := capped (largest ((reach both).1 ++ (reach both).2))
  let muAff := meanOf (both.map fun x => (fmaL step x.2.1 x.1.1, fmaL step x.2.2 x.1.2))
  let ratio := divL muAff mu
  let centre := if pairs.isEmpty then 0 else mulL (mulL (mulL ratio ratio) ratio) mu
  let (cor, ps2) := p.newton fs res pt aff centre
  let last := pairs.zip (p.allPairs cor)
  let alpha (xs : List (Nat × Nat)) : Nat := capped ((largest xs).map (mulL fStep))
  let pt' := List.zipWith (move (alpha (reach last).1) (alpha (reach last).2)) pt cor
  (ps ++ ps1 ++ ps2 ++ sweepOf p.stages fun k =>
      !(nth StagePt.zero pt' (k - 1)).fine || !vecFine (p.planOf [nth StagePt.zero pt' (k - 1)]), pt')

end Prob

/-! ### One iteration with its retries (R338 to R341) -/

/-- The counts and the checks of an iteration so far. -/
structure IterWork where
  tally : Tally
  checks : List Check

/-- What an iteration gives: the checks that it passes in order, its counts, and the new point or the stage that failed
after its third retry. -/
structure IterOut where
  checks : List Check
  tally : Tally
  res : Except Nat (List StagePt)

/-- Runs pieces up to the first that fails. -/
def runPieces : List Piece → IterWork → IterWork × Option Piece
  | [], w => (w, none)
  | x :: xs, w =>
    let t := { w.tally with
      pivots := w.tally.pivots + x.pivots, refine := w.tally.refine + x.refine,
      inertia := w.tally.inertia || x.inertia, refineLimit := w.tally.refineLimit || x.limit }
    if x.bad then ({ w with tally := t }, some x)
    else runPieces xs ⟨t, w.checks ++ [⟨x.stage, t⟩]⟩

/-- The attempts of an iteration: a failed block is refactorised, and the work repeated from it on, three times at most. -/
def attempts (p : Prob) (four : Bool) (pt : List StagePt) : Nat → List Nat → IterWork → IterOut
  | 0, _, w => ⟨w.checks, w.tally, .error 0⟩
  | n + 1, failed, w =>
    let (ps, pt') := p.attempt four pt fun key => failed.count key
    let ps := match failed with | [] => ps | key :: _ => ps.dropWhile fun x => x.key != key
    match runPieces ps w with
    | (w, none) => ⟨w.checks, w.tally, .ok pt'⟩
    | (w, some x) =>
      if 3 ≤ failed.count x.key then ⟨w.checks, w.tally, .error x.stage⟩
      else
        let t := { w.tally with
          retries := w.tally.retries + 1,
          firstRetry := if w.tally.firstRetry = 0 then x.stage else w.tally.firstRetry }
        attempts p four pt n (x.key :: failed) ⟨t, w.checks ++ [⟨x.stage, t⟩]⟩

/-- One iteration from step 1 on: the residual sweep, then steps 4 to 7. Three retries of each block bound the attempts.
[DESIGN CHOICE, log entry 73] -/
def iteration (p : Prob) (four : Bool) (pt : List StagePt) : IterOut :=
  attempts p four pt (3 * (dN p.d + 4) + 1) [] ⟨Tally.zero, p.stages.map fun k => ⟨k, Tally.zero⟩⟩

end Sys2Proof.Machine
end

