-- ==== Sys2Proof/Machine/Crypto.lean ====
section
/-! DEFINITION. Random bytes, the key derivation function and the identity key (spec 15, R533 to R537). -/

namespace Sys2Proof.Machine

/-- Big-endian number of bytes. -/
def beNat (bs : List Byte) : Nat := leNat bs.reverse

/-- The ASCII bytes of a label. -/
def labelBytes (l : String) : List Byte := l.toList.map fun c => BitVec.ofNat 8 c.toNat

/-- One block of the KDF (R534). -/
def kdfBlock (k : List Byte) (label : String) (ctx : List Byte) (bits i : Nat) : List Byte :=
  Config.hmac384 k (beBytes 4 i ++ labelBytes label ++ [0] ++ ctx ++ beBytes 4 bits)

/-- The KDF of R534. -/
def kdf (k : List Byte) (label : String) (ctx : List Byte) (bits : Nat) : List Byte :=
  (((List.range ((bits + 383) / 384)).map fun i => kdfBlock k label ctx bits (i + 1)).flatten).take (bits / 8)

/-- The identity private key of a root secret (R532, R533). [PRESUMED, log entry 114] -/
def identityOf (root : List Byte) : List Byte := Config.identityKey (kdf root "GZN DEVICE ID" [] 512)

namespace State

/-- Draws `n` random bytes from the DRBG (R537): free values. [DESIGN CHOICE, log entry 121] -/
def drawBytes : Nat → State → List Byte × State
  | 0, s => ([], s)
  | n + 1, s =>
    let (v, s) := s.draw 2
    let (bs, s) := drawBytes n s
    (BitVec.ofNat 8 v :: bs, s)

/-- `n` free bytes; `tag` names the place. [DESIGN CHOICE, log entry 13] -/
def freeBytes (tag : Nat) : Nat → State → List Byte × State
  | 0, s => ([], s)
  | n + 1, s =>
    let (v, s) := s.draw tag
    let (bs, s) := freeBytes tag n s
    (BitVec.ofNat 8 v :: bs, s)

/-- The DRBG runs (R537). -/
def drbgOk (s : State) : Bool := s.regBit R.KEY_STATUS 4

/-- The identity private key, while a root secret is valid. -/
def identity (s : State) : Option (List Byte) := s.key.root.map identityOf

end State

end Sys2Proof.Machine
end

