-- ==== Sys2Proof/Machine/StnOps.lean ====
section
/-! DEFINITION. The station engine's shared operations: phase lengths, Celkin frames, contexts, input qualification,
staging and joins (spec 07). -/

namespace Sys2Proof.Machine

/-! ### Phase lengths in ns (R251) -/

/-- The next multiple of `q` at or above `x`. -/
def roundUp (x q : Nat) : Nat := (x + q - 1) / q * q

/-- Wire time per byte in ns. -/
def wireByte (k : Nat) : Nat := if k < 16 then 800 else 8

/-- Wire bytes of the INPUT frames of one station: full fragments of 1,460 B and the rest (R251, R261). -/
def inputWire (bIn : Nat) : Nat := (bIn + 1459) / 1460 * 78 + bIn

/-- STAGE records that one frame holds (R259). -/
def recordsPerFrame (bOut : Nat) : Nat := 1452 / (4 + bOut)

/-- Records in STAGE frames: whole records, in order, up to a payload of 1,500 B, of which 48 B are header, stage fields
and tag (R259). `used` bytes of records are already in the present frame, which is kept in reverse. -/
def packRecords : List (Nat × List Byte) → Nat → List (Nat × List Byte) → List (List (Nat × List Byte))
  | [], _, cur => if cur.isEmpty then [] else [cur.reverse]
  | r :: rest, used, cur =>
    if cur.isEmpty ∨ used + r.2.length ≤ 1452 then packRecords rest (used + r.2.length) (r :: cur)
    else cur.reverse :: packRecords rest r.2.length [r]

/-- Wire bytes of a STAGE frame with some records. -/
def frameWire (rs : List (Nat × List Byte)) : Nat := 86 + (rs.map (·.2.length)).sum

/-- How long after the first STAGE frame the one with each station's record is sent: the frames follow one another on the
wire, `wire` bytes before the present one (R259, R260). [DEDUCED, log entry 133] -/
def sendOffsets (k : Nat) : Nat → List (List (Nat × List Byte)) → List (Nat × Instant)
  | _, [] => []
  | wire, rs :: rest =>
    rs.map (fun r => (r.1, wire * wireByte k * 2 ^ 32 / 1000000000)) ++ sendOffsets k (wire + frameWire rs) rest

/-- Stations in the last STAGE frame of `n`. -/
def lastFrame (c : SegCfg) : Nat := (c.n - 1) % recordsPerFrame c.bOut + 1

/-- Wire bytes of the STAGE frames for N stations. -/
def stageWire (c : SegCfg) : Nat :=
  (c.n + recordsPerFrame c.bOut - 1) / recordsPerFrame c.bOut * 86 + c.n * (4 + c.bOut)

def stageWinNs (k : Nat) (c : SegCfg) : Nat :=
  roundUp (wireByte k * stageWire c + 2000 * c.dmax + lastFrame c * 84 * wireByte k + 80000) 50000
def latchNs (k : Nat) : Nat := if k < 16 then 100000 else 10000
def tInNs (k : Nat) (c : SegCfg) : Nat :=
  roundUp (latchNs k + 1000 * c.dmax + c.n * wireByte k * inputWire c.bIn + 80000) 50000
def tCNs (k : Nat) : Nat := 84 * wireByte k
/-- T_SVC in tenths of ns, so that its 10 % is exact. -/
def tSvcNs10 (k : Nat) (c : SegCfg) : Nat :=
  max (stageWinNs k c + tInNs k c + tCNs k) (10 * if k < 16 then 2000000 else 50000)
/-- The shortest bus cycle in µs, a multiple of 250 µs. -/
def minCycleUs (k : Nat) (c : SegCfg) : Nat :=
  roundUp (10 * (stageWinNs k c + tInNs k c + tCNs k) + tSvcNs10 k c) 2500000 / 10000
/-- The apply delay that a segment asks for, in µs (R250). -/
def applyDelayUs (k : Nat) (c : SegCfg) : Nat := roundUp (1000 * c.dmax + tCNs k + 50000) 50000 / 1000

/-! ### Frames (R254 to R257) -/

/-- The 16-byte Celkin header. -/
def celkinHeader (ty len seg stn count flags seq epoch : Nat) : List Byte :=
  leBytes 1 1 ++ leBytes 1 ty ++ leBytes 2 len ++ leBytes 1 seg ++ leBytes 1 stn ++ leBytes 1 count ++
    leBytes 1 flags ++ leBytes 4 seq ++ leBytes 2 epoch ++ leBytes 2 0

/-- The 8-byte tag over header and body. -/
def celkinTag (key msg : List Byte) : List Byte := (Config.aesCmac key msg).take 8

/-- The group address of segment `k`. -/
def groupMac (k : Nat) : Nat := 0x03475A530000 + k

/-- Offsets of values laid out each aligned to its size, and the end (R261). -/
def layout : List Nat → Nat → List (Nat × Nat) × Nat
  | [], off => ([], off)
  | ty :: rest, off =>
    let z := max 1 (typeSize ty)
    let o := roundUp off z
    let (l, e) := layout rest (o + z)
    ((o, ty) :: l, e)

namespace State

/-! ### Reading the tables -/

def seg (s : State) (k : Nat) : SegSt := nth SegSt.empty s.stn.segs k
def modSeg (k : Nat) (f : SegSt → SegSt) (s : State) : State :=
  { s with stn := { s.stn with segs := modNth f s.stn.segs k } }
def segCfg (s : State) (k : Nat) : Option SegCfg := tget s.nvNext.segs k
/-- STATE of a segment: 0 DISABLED, 1 STARTING, 2 ACTIVE, 3 STOPPING. -/
def segState (s : State) (k : Nat) : Nat := s.regField (R.STN_SEG_STATE k) 1 0
def ctx (s : State) (pos : Nat) : Option Ctx := tget s.stn.ctxs pos
def setCtx (pos : Nat) (c : Ctx) (s : State) : State := { s with stn := { s.stn with ctxs := tput s.stn.ctxs pos c } }
def modCtx (pos : Nat) (f : Ctx → Ctx) (s : State) : State :=
  { s with stn := { s.stn with ctxs := tmod f s.stn.ctxs pos } }
def adm (s : State) (pos : Nat) : Option Adm := tget s.nvNext.adms pos
/-- The positions of a segment's admission records. -/
def segPositions (s : State) (k : Nat) : List Nat := (s.nvNext.adms.map (·.1)).filter fun p => p / 64 == k

/-- The enabled task that a segment is bound to (R195). -/
def boundTask (s : State) (k : Nat) : Option Nat :=
  (List.range 32).find? fun t => s.taskEnabled t && s.regBit (R.CYC_SEG_MASK t) k

/-- Counts of a segment's records and ACTIVE stations, and its BOUND bit, as SEG_STATE shows them (R291). -/
def segCounts (k : Nat) (s : State) : State :=
  let ps := s.segPositions k
  let act := ps.countP fun p => match s.ctx p with | some c => c.state == 4 | none => false
  ((s.setRegField (R.STN_SEG_STATE k) 10 4 ps.length).setRegField (R.STN_SEG_STATE k) 17 11 act).setRegBit
    (R.STN_SEG_STATE k) 3 (s.boundTask k).isSome

/-- Recomputes what the binding of segments to tasks gives: BOUND, STAGE_LEAD and APPLY_DELAY (R250). -/
def rebind (s : State) : State :=
  let bound (t : Nat) : List (Nat × SegCfg) :=
    (List.range 20).filterMap fun k => if s.boundTask k = some t then (s.segCfg k).map fun c => (k, c) else none
  let s' := (List.range 32).foldl (fun st t =>
    let b := bound t
    let lead := b.foldl (fun m x => max m (stageWinNs x.1 x.2 / 1000)) 0
    let delay := b.foldl (fun m x => max m (applyDelayUs x.1 x.2)) 0
    (st.setReg (R.CYC_STAGE_LEAD t) (BitVec.ofNat 32 lead)).setReg (R.STN_APPLY_DELAY t) (BitVec.ofNat 32 delay)) s
  (List.range 20).foldl (fun st k => st.segCounts k) s'

/-- The contexts in use (R291). -/
def countContexts (s : State) : State := s.setReg R.STN_CONTEXTS_USED (BitVec.ofNat 32 s.stn.ctxs.length)

/-- The smallest context number that is free (R247). -/
def freeContext (s : State) : Nat :=
  ((List.range 1024).find? fun i => !(s.stn.ctxs.any fun x => x.2.ix == i)).getD 1024

/-- A context in state LOST for an admitted station (R248). -/
def newCtx (s : State) (a : Adm) : Ctx :=
  { ix := s.freeContext, state := 0, mac := 0, key := [], epoch := 0, txSeq := 0, rxSeq := 0, claim := 0, delayUs := 0,
    absentCount := 0, joinCount := 0, boxActive := false, absentAt := 0, away := 0, fresh := true, acked := false,
    frags := [], sigs := List.replicate a.inCount ⟨none, true, false⟩ }

/-! ### Sending -/

/-- The port address of segment `k` (R254, R414). -/
def portMac (k : Nat) : Nat := baseMac + k

/-- Sends a Celkin frame on a segment port, padded to the Ethernet minimum of 60 B before the FCS (R262); a unit in
STANDBY or SILENT sends none (R500, R510), nor does one without a root secret (R557, R558). -/
def sendCelkin (k dst : Nat) (payload : List Byte) (s : State) : State :=
  if s.claiming && s.domOn 6 && s.key.root.isSome then
    s.sendFrame k (.frame k (beBytes 6 dst ++ beBytes 6 (portMac k) ++ beBytes 2 (s.regField R.STN_ETHERTYPE 15 0) ++
      payload ++ zeros (46 - payload.length)))
  else s

/-- The tag of a group frame; before the first admission of the segment has drawn its key, a free value.
[DEDUCED, log entry 152] -/
def groupTag (s : State) (key msg : List Byte) : List Byte × State :=
  if key = [] then
    let (v, s) := s.draw 83
    (leBytes 8 v, s)
  else (celkinTag key msg, s)

/-- A frame to every station of a segment, tagged with the segment key. -/
def sendGroup (k ty count flags : Nat) (body : List Byte) (s : State) : State :=
  let g := s.seg k
  let msg := celkinHeader ty body.length k 0xFF count flags (g.txSeq + 1) g.epoch ++ body
  let (tag, s) := s.groupTag g.key msg
  (s.modSeg k fun g => { g with txSeq := g.txSeq + 1 }).sendCelkin k (groupMac k) (msg ++ tag)

/-- A frame to one station, tagged with its station key; a CONFIG waits for its acknowledgement. -/
def sendStation (pos ty : Nat) (body : List Byte) (s : State) : State :=
  match s.ctx pos with
  | none => s
  | some c =>
    let msg := celkinHeader ty body.length (pos / 64) (pos % 64) 0 0 (c.txSeq + 1) c.epoch ++ body
    let s := s.modCtx pos fun c => { c with txSeq := c.txSeq + 1 }
    let s := if ty = 6 then s.modSeg (pos / 64) fun g =>
      { g with cfgWait := g.cfgWait ++ [(c.txSeq + 1, pos % 64, fieldAt body 0 2)] } else s
    s.sendCelkin (pos / 64) c.mac (msg ++ celkinTag c.key msg)

/-- A tagged frame to one station, sent in a service window: now, or in the next one (R256).
[DEDUCED, log entry 92] -/
def sendInService (pos ty : Nat) (body : List Byte) (s : State) : State :=
  if (s.seg (pos / 64)).phase = .service then s.sendStation pos ty body
  else s.modSeg (pos / 64) fun g => { g with svcq := g.svcq ++ [(pos % 64, ty, body)] }

/-! ### Receiving (R258) -/

/-- A frame dropped for its type, length or phase. -/
def badFrame (s : State) : State := s.bump R.STN_BAD_FRAMES 1
/-- A frame dropped for its tag or sequence. -/
def tagFail (s : State) : State := s.bump R.STN_TAG_FAILS 1

/-- The stations' frames of a segment are taken: it is ACTIVE, PD_NET is ON and the unit claims (R510). -/
def segListens (s : State) (k : Nat) : Bool := s.domOn 6 && s.segState k == 2 && s.claiming

/-- Checks the form of a frame of a type: version, type, segment, and a body of the given size with its tag. -/
def frameOk (k ty : Nat) (tagged : Bool) (p : List Byte) : Bool :=
  decide (16 + fieldAt p 2 2 + (if tagged then 8 else 0) ≤ p.length) && fieldAt p 0 1 == 1 && fieldAt p 1 1 == ty &&
    fieldAt p 4 1 == k

/-- The body of a frame. -/
def bodyOf (p : List Byte) : List Byte := slice p 16 (fieldAt p 2 2)

/-- A tagged frame of a station is accepted: its position and the state with the sequence number noted. -/
def acceptStation (k : Nat) (p : List Byte) (s : State) : State × Option Nat :=
  let pos := 64 * k + fieldAt p 5 1
  match s.ctx pos with
  | none => (s.tagFail, none)
  | some c =>
    let msg := p.take (16 + fieldAt p 2 2)
    if fieldAt p 5 1 < 64 ∧ c.key ≠ [] ∧ fieldAt p 0xC 2 = c.epoch ∧ c.rxSeq < fieldAt p 8 4 ∧
        slice p msg.length 8 = celkinTag c.key msg then
      ((s.modCtx pos fun c => { c with rxSeq := fieldAt p 8 4 }).perfCount 0x50 k, some pos)
    else (s.tagFail, none)

/-! ### Signals of a station -/

/-- Type byte of global image entry `i`. -/
def sigType (s : State) (i : Nat) : Nat := (s.byteAt (s.entryAddr i + 9)).toNat

/-- The type bytes of a run of signals; without a placed program no signal has a type. -/
def runTypes (s : State) (first n : Nat) : List Nat := (List.range n).map fun j => s.sigType (first + j)

/-- Sets the quality of a run of signals. -/
def setQualities (first n : Nat) (q : Byte) (s : State) : State :=
  if s.loaded then (List.range n).foldl (fun s j => s.setByte (s.entryAddr (first + j) + 8) q) s else s

/-- The inputs of a segment carry BAD_OFFLINE (R293). -/
def segOffline (k : Nat) (s : State) : State :=
  (s.segPositions k).foldl (fun s p =>
    match s.adm p with | some a => s.setQualities a.inFirst a.inCount 0x06 | none => s) s

/-- The inputs of every segment that is DISABLED or STOPPING carry BAD_OFFLINE (R293). -/
def offlineSegs (s : State) : State :=
  (List.range 20).foldl (fun s k => if s.segState k = 0 ∨ s.segState k = 3 then s.segOffline k else s) s

/-- The output data of a station in the wire layout (R259, R277). -/
def outputData (s : State) (a : Adm) : List Byte :=
  let (l, _) := layout (s.runTypes a.outFirst a.outCount) 0
  let put (bs : List Byte) (x : Nat × (Nat × Nat)) : List Byte :=
    padTo x.2.1 bs ++ s.bytesAt (s.entryAddr (a.outFirst + x.1)) (max 1 (typeSize x.2.2))
  (l.mapIdx fun i x => (i, x)).foldl put []

/-- The qualification class of input `j` of a station (R265). -/
def classOf (a : Adm) (j : Nat) : Nat :=
  a.groups.foldl (fun q w =>
    let g : Word := BitVec.ofNat 32 w
    if field g 8 0 ≤ j ∧ j ≤ field g 8 0 + field g 17 9 then field g 23 18 else q) 0

/-! ### Qualification (R272 to R275) -/

/-- A raw value of a type in FP64. -/
def toF64 (ty raw : Nat) : Nat :=
  match ty with
  | 2 => (fpOfInt fp64 0 (toSigned 32 raw)).bits
  | 4 => (fpOfInt fp64 0 (toSigned 64 raw)).bits
  | 8 => (fpConvert fp32 fp64 0 raw).bits
  | 9 => raw
  | _ => (fpOfInt fp64 0 raw).bits

/-- An FP64 value in a type; the spec gives the conversion to an integer type no rounding.
[DESIGN CHOICE, log entry 69] -/
def fromF64 (ty x : Nat) (s : State) : Nat × State :=
  let whole (lo hi : Int) (bits : Nat) : Nat × State :=
    match fpDecode fp64 x with
    | .fin neg m e =>
      let i := signedSig neg m
      let (v, s) := if 0 ≤ e then (i * 2 ^ e.toNat, s) else s.roundFree 3 i (2 ^ (-e).toNat)
      (ofSigned bits (clampInt lo hi v), s)
    | .inf neg => (ofSigned bits (if neg then lo else hi), s)
    | .nan _ => let (v, s) := s.draw 3; (v % 2 ^ bits, s)
  match ty with
  | 8 => ((fpConvert fp64 fp32 0 x).bits, s)
  | 9 => (x, s)
  | 2 => whole (-(2 ^ 31)) (2 ^ 31 - 1) 32
  | 4 => whole (-(2 ^ 63)) (2 ^ 63 - 1) 64
  | 5 => whole 0 (2 ^ 64 - 1) 64
  | _ => whole 0 (2 ^ 32 - 1) 32

abbrev f64Add (a b : Nat) : Nat := (fpAdd fp64 0 a b).bits
abbrev f64Sub (a b : Nat) : Nat := (fpSub fp64 0 a b).bits
abbrev f64Mul (a b : Nat) : Nat := (fpMul fp64 0 a b).bits
abbrev f64Div (a b : Nat) : Nat := (fpDiv fp64 0 a b).bits
abbrev f64Lt (a b : Nat) : Bool := (fpCompare fp64 1 a b).1
abbrev f64Abs (a : Nat) : Nat := a % 2 ^ 63
/-- A duration in seconds as FP64. -/
abbrev f64Seconds (d : Nat) : Nat := (fpPack fp64 0 d (-32) false).bits

/-- Checks 4 and 5 of R272 on a numeric value: the value after them, whether the rate clamped it, and whether either
changed how it is written. -/
def filterValue (w : Nat → Nat) (last v dt : Nat) : Nat × Bool × Bool :=
  let f32 (i : Nat) : Nat := toF64 8 (w i)
  let lim := f64Mul (f32 4) dt
  let clamp := w 0 / 8 % 2 == 1 && f64Lt lim (f64Abs (f64Sub v last))
  let v1 := if clamp then (if f64Lt last v then f64Add last lim else f64Sub last lim) else v
  match w 0 % 4 with
  | 1 => (f64Add last (f64Div (f64Mul (f64Sub v1 last) dt) (f64Add (f32 1) dt)), clamp, true)
  | 2 => if f64Lt (f32 1) (f64Abs (f64Sub v1 last)) then (v1, clamp, clamp) else (last, clamp, true)
  | _ => (v1, clamp, clamp)

/-- The time-stamp fraction of an age (R275); the spec gives its division no rounding. -/
def ageFraction (release period : Instant) (last : Option Instant) (s : State) : Nat × State :=
  match last with
  | none => (0xFFFFFFFF, s)
  | some t =>
    if period ≤ release - t then (0xFFFFFFFF, s)
    else
      let (v, s) := s.roundFree 4 (((release - t) * 2 ^ 32 : Nat) : Int) period
      (satTo 32 v.toNat, s)

/-- The registers of the qualification classes as they stand (R291). -/
def classRegs (s : State) : List (Nat × Word) :=
  s.regs.filter fun x => decide (R.STN_QCLASS 0 0 ≤ x.1 ∧ x.1 ≤ R.STN_QCLASS 63 7)

/-- Word `i` of a qualification class, as it was when the segment's input phase began (R291). -/
def qclass (s : State) (k q i : Nat) : Nat := (cget regReset (s.seg k).classes (R.STN_QCLASS q i)).toNat

/-- Writes quality and time-stamp fraction of an entry. -/
def setQuality (i : Nat) (q : Byte) (frac : Nat) (s : State) : State :=
  (s.setByte (s.entryAddr i + 8) q).setNum (s.entryAddr i + 12) 4 frac

/-- One accepted input value of segment `k` through the checks of R272: signal index, class, raw value, status and
sample instant. A BAD outcome writes no value, so the signal ages at the end of the phase (R274). -/
def qualify (k i q raw st : Nat) (sample release period : Instant) (x : SigIn) (s : State) : State × SigIn :=
  let ty := s.sigType i
  let w := s.qclass k q
  let numeric := decide (2 ≤ ty)
  let v := toF64 ty raw
  let notNum := decide (8 ≤ ty) && (match fpDecode (if ty = 9 then fp64 else fp32) raw with | .fin .. => false | _ => true)
  let ranged := numeric && w 0 / 4 % 2 == 1
  let bad : Option Byte :=
    if 2 ≤ st then some 0x05
    else if notNum then some 0x04
    else if ranged && f64Lt v (toF64 8 (w 2)) then some 0x02
    else if ranged && f64Lt (toF64 8 (w 3)) v then some 0x03
    else none
  match bad with
  | some b =>
    let (fr, s) := s.ageFraction release period x.last
    (s.setQuality i b fr, x)
  | none =>
    let plain := if st = 1 then 0x40 else 0xC0
    let q0 := (s.byteAt (s.entryAddr i + 8)).toNat
    let fresh := x.first || x.last.isNone || decide (q0 < 64)
    let done (bits : Nat) (q : Byte) (s : State) : State × SigIn :=
      let (fr, s) := s.ageFraction release period (some sample)
      let s := s.setBytes (s.entryAddr i) (padTo 8 (leBytes (typeSize ty) bits))
      (s.setQuality i q fr, { last := some sample, first := false, written := true })
    if !numeric then done (min raw 1) plain s
    else if fresh then done raw plain s
    else
      let last := toF64 ty (s.numAt (s.entryAddr i) (typeSize ty))
      let dt := f64Seconds (sample - x.last.getD 0)
      let (y, clamp, changed) := filterValue w last v dt
      let q : Byte := if clamp then 0x42 else plain
      if changed then
        let (bits, s) := s.fromF64 ty y
        done bits q s
      else done raw q s

/-- Ages one input signal that the phase did not write (R274). -/
def ageSignal (k i q : Nat) (release period : Instant) (x : SigIn) (s : State) : State :=
  let ms := s.qclass k q 5 % 2 ^ 24
  let limit := if ms = 0 then 3 * period else usToUnits (1000 * ms)
  let q0 := s.byteAt (s.entryAddr i + 8)
  let old := match x.last with | some t => decide (limit ≤ release - t) | none => false
  let q1 : Byte := if old then 0x01 else if 64 ≤ q0.toNat then 0x41 else q0
  let (fr, s) := s.ageFraction release period x.last
  s.setQuality i q1 fr

/-- Ages every unwritten input signal of a segment (R274). -/
def ageSegment (k : Nat) (s : State) : State :=
  let g := s.seg k
  (s.segPositions k).foldl (fun s p =>
    match s.adm p, s.ctx p with
    | some a, some c =>
      (c.sigs.mapIdx fun j x => (j, x)).foldl (fun s y =>
        if y.2.written then s else s.ageSignal k (a.inFirst + y.1) (classOf a y.1) g.boundary g.period y.2) s
    | _, _ => s) s

/-! ### Station states -/

/-- Parameter A of the station events (R294). -/
def stnParam (pos : Nat) : Nat := pos / 64 + 0x100 * (pos % 64)

/-- LEAVE to a station whose session ends, under its key: now, or in the next service window, for which the whole frame
waits behind its address, since the key is gone by then (R264, R271). [DEDUCED, log entry 135] -/
def leaveUnder (k n : Nat) (x : Ctx) (reason : Nat) (s : State) : State :=
  let msg := celkinHeader 0x08 4 k n 0 0 (x.txSeq + 1) x.epoch ++ leBytes 4 reason
  let frame := msg ++ celkinTag x.key msg
  if (s.seg k).phase = .service then s.sendCelkin k x.mac frame
  else s.modSeg k fun g => { g with svcq := g.svcq ++ [(n, 0, beBytes 6 x.mac ++ frame)] }

/-- A session is discarded with its key (R271, R287): LEAVE reason 2, and the station is LOST; one that was ACTIVE has
dropped out (R106). -/
def loseStation (pos : Nat) (s : State) : State :=
  match s.ctx pos with
  | none => s
  | some x =>
    let k := pos / 64
    let s := s.modSeg k fun g =>
      { g with svcq := g.svcq.filter fun y => y.1 != pos % 64, cfgWait := g.cfgWait.filter fun y => y.2.1 != pos % 64 }
    let s := s.leaveUnder k (pos % 64) x 2
    let s := s.modCtx pos fun c => { c with state := 0, key := [], acked := false }
    let s := if x.state = 4 then s.notify 25 else s
    (s.raise srcStn Ev.STN_LOST (stnParam pos) 0).segCounts k

/-- A session is held in these states. -/
def inSession (c : Ctx) : Bool := decide (2 ≤ c.state ∧ c.state ≤ 5)

/-- The CONFIG item of a new segment key: the key, its epoch and the first bus cycle of its use (R264). -/
def keyItem (key : List Byte) (epoch cyc : Nat) : List Byte :=
  leBytes 2 3 ++ leBytes 2 42 ++ key ++ leBytes 2 epoch ++ leBytes 8 cyc

/-- The number of a segment's present bus cycle: the cycle number of its task, or its boundaries counted from the epoch.
[DEDUCED, log entry 70] -/
def busCycle (s : State) (k : Nat) : Nat :=
  match s.boundTask k with
  | some t => s.cycleNo t
  | none => tickOf s.now / max 1 (((s.segCfg k).map (·.unbound)).getD 1)

/-- A renewal of a segment key that is in use starts: a new key goes to every station in session, naming the 64th bus
cycle, by which it is used at the latest (R258, R271). [DEDUCED, log entry 70] -/
def renewKey (k : Nat) (s : State) : State :=
  if (s.seg k).key = [] ∨ !s.drbgOk then s else
  let (key, s) := s.drawBytes 32
  let nums := ((s.segPositions k).filter fun p => match s.ctx p with | some c => inSession c | none => false).map (· % 64)
  let last := match (s.seg k).newKey with | some w => w.epoch | none => (s.seg k).epoch
  let epoch := (last + 1) % 65536
  let cyc := s.busCycle k + 64
  let s := s.modSeg k fun g =>
    { g with newKey := some ⟨key, epoch, nums, 0, cyc⟩, cfgWait := g.cfgWait.filter fun x => x.2.2 != 3 }
  nums.foldl (fun s n => s.sendInService (64 * k + n) 0x06 (keyItem key epoch cyc)) s

/-- A station admitted during a renewal gets the new key too (R271). [DEDUCED, log entry 134] -/
def renewedKey (k n : Nat) (s : State) : State :=
  match (s.seg k).newKey with
  | none => s
  | some w =>
    let s := s.modSeg k fun g => { g with newKey := some { w with left := w.left.filter (· != n) ++ [n] } }
    s.sendInService (64 * k + n) 0x06 (keyItem w.key w.epoch w.first)

/-! ### Boundaries -/

/-- The first release boundary of a segment after now, with the bus period: its task's next release, or the unbound
period (R211, R249, R253). -/
def nextBoundary (s : State) (k : Nat) : Option (Instant × Instant) :=
  match s.boundTask k with
  | some t => some (s.nextRelease t (tickOf s.now), usToUnits (250 * s.period t))
  | none =>
    match s.segCfg k with
    | some c => if c.unbound = 0 then none else some (tickAt (nextGrid c.unbound 0 (tickOf s.now)), usToUnits (250 * c.unbound))
    | none => none

/-- The output cycle number that the stage before boundary `b` of task `t` carries (R201, R204, R208, R213, R278): a
cycle whose copy-out met the deadline of `b`; in Hold, and of a task stopped under STOP_TASK, the last completed one. -/
def stageSource (s : State) (t : Nat) (b : Instant) : Option Nat :=
  let x := s.task t
  if x.faultBoundary = some b then none
  else if x.stageFor = some b && !x.noStage then some x.lastDone
  else if s.mode = 2 ∨ (s.mode = 1 ∧ x.stopped) then some x.lastDone
  else none

/-- The first apply that a new primary commands ends the gap (R521). -/
def gapEnd (apply : Instant) (s : State) : State :=
  match s.red.gapOpen, s.red.gapFrom with
  | true, some t =>
    let (us, s) := s.roundFree 70 (((apply : Int) - t) * 1000000) (2 ^ 32)
    { s with red := { s.red with gapOpen := false } }.setReg R.RED_GAP_LAST (BitVec.ofNat 32 (satTo 32 us.toNat))
  | _, _ => s

/-- The unit is leaving the primary role for this task: its final copy has been marked (R524). -/
def finalMarked (s : State) (t : Nat) : Bool := s.red.finalDone.contains t

end State

end Sys2Proof.Machine
end

