-- ==== Sys2Proof/Machine/SolvOps.lean ====
section
/-! DEFINITION. The solver's shared operations: engines, lanes, contexts, results and plans, run-ahead work, submissions
and the ends of jobs (spec 08, R309 to R323; spec 09). -/

namespace Sys2Proof.Machine

/-- Engines of a placement as a mask; 0 for one engine still to be chosen. -/
def placeMask (place : Nat) : Nat := if place < 2 then 0 else 15

/-- The engines of a mask. -/
def maskEngines (m : Nat) : List Nat := (List.range 4).filter fun e => m / 2 ^ e % 2 == 1

/-- The source of a job's events: the sequencer that ran it, or the management core for one that never ran. -/
def srcSolv (mask : Nat) : Nat := ((maskEngines mask).head?.map (20 + ·)).getD srcMgt

/-- FP32 `a ≤ b`. -/
def f32Le (a b : Nat) : Bool := (fpCompare fp32 1 a b).1 || (fpCompare fp32 0 a b).1

/-- The residuals of a point pass the feasibility test (R331). -/
def feasible (d : List Byte) (m : SolveMetrics) : Bool := f32Le m.primal (dFeasTol d)
/-- The convergence test (R331). -/
def converges (d : List Byte) (m : SolveMetrics) : Bool :=
  feasible d m && f32Le m.dual (dOptTol d) && f32Le m.mu (dOptTol d)

namespace State

/-! ### Reading the solver's state -/

def modSolv (f : SolvSt → SolvSt) (s : State) : State := { s with solv := f s.solv }

/-- STATE of engine `e`: 0 OFF, 1 STARTING, 2 ON, 3 STOPPING (R355). -/
def engState (s : State) (e : Nat) : Nat := s.regField (R.SOLV_ENG_STATE e) 1 0
def engOn (s : State) (e : Nat) : Bool := s.engState e == 2

/-- The running job of an engine. -/
def engJob (s : State) (e : Nat) : Option (Nat × Job) :=
  s.solv.jobs.find? fun x => x.2.state == 1 && x.2.engines / 2 ^ e % 2 == 1
/-- The run-ahead work of an engine. -/
def engAhead (s : State) (e : Nat) : Option (Nat × Ahead) :=
  s.solv.ahead.find? fun x => x.2.engines / 2 ^ e % 2 == 1
/-- A faulty lane of an engine waits for a spare. -/
def lanePending (s : State) (e : Nat) : Bool := s.solv.laneDue.any fun x => x / 128 == e
/-- An engine is ON and may take a job: no job runs on it and no lane bring-in is pending (R322, R358). -/
def engFree (s : State) (e : Nat) : Bool := s.engOn e && (s.engJob e).isNone && !s.lanePending e

/-- Shows what an engine does (R362); the stage being worked, one of the engine's range (R316), is open between two stage
boundaries. -/
def engShow (e : Nat) (s : State) : State :=
  let a := R.SOLV_ENG_STATE e
  let put (act job stage : Nat) (parked : Bool) (s : State) : State :=
    s.modReg a fun w => setField (setField (setBit (setField w 5 4 act) 6 parked) 23 8 job) 30 24 stage
  let stageOf (slot ver : Nat) (s : State) : Nat × State :=
    let (first, n) := ((s.descVer slot ver).map fun v =>
      if v.place < 2 then (1, dN v.bytes) else (rangeStart v.bytes e, rangeLen v.bytes e)).getD (1, 1)
    let (v, s) := s.draw 20
    (v % (max 1 n) + first, s)
  match s.engJob e with
  | some (_, j) => let (k, s) := stageOf j.slot j.ver s; put 1 j.id k false s
  | none =>
    match s.engAhead e with
    | some (_, w) => if w.parked then put 2 0 0 true s else let (k, s) := stageOf w.slot w.ver s; put 2 0 k false s
    | none => if s.lanePending e && s.engState e != 0 then put 3 0 0 false s else put 0 0 0 false s

/-- Shows every engine. -/
def solvShow (s : State) : State := (List.range 4).foldl (fun s e => s.engShow e) s

/-! ### Computed registers (R324) -/

/-- Contexts in use: jobs not yet freed, and run-ahead work. -/
def ctxUsed (s : State) : Nat := s.solv.jobs.length + s.solv.ahead.length

/-- SOLV.QUEUE. -/
def solvQueue (s : State) : Nat :=
  s.ctxUsed + 2 ^ 7 * s.solv.jobs.countP (fun x => x.2.state == 0) +
    2 ^ 14 * (List.range 4).countP fun e => (s.engJob e).isSome

/-- SOLV.DESC_STATE of a slot. -/
def descState (s : State) (d : Nat) : Nat :=
  let x := s.descSlot d
  (match x.cur with
    | none => 0
    | some v => (if v.unbound then 2 else 1) + 8 * v.place + (if v.stored then 32 else 0) + 64 * s.verJobs d v.ver) +
    (if x.old.isEmpty then 0 else 4) + (if (s.solv.load.any fun l => l.1 == d) then 2 ^ 13 else 0)

/-- SOLV.BANK_USE of a slot. -/
def bankUse (s : State) (d : Nat) : Nat :=
  let n (b : Nat) : Nat := s.solv.jobs.countP fun x => x.2.slot == d && x.2.bank == b && decide (x.2.state < 2)
  n 0 + 2 ^ 8 * n 1

/-! ### Contexts (R318) -/

/-- A free context. -/
def freeCtx (s : State) : Option Nat :=
  (List.range 64).find? fun c => (tget s.solv.jobs c).isNone && (tget s.solv.ahead c).isNone

def putJob (ctx : Nat) (j : Job) (s : State) : State :=
  (s.modSolv fun x => { x with jobs := tput x.jobs ctx j }).regMax R.SOLV_QUEUE_PEAK (max s.ctxUsed 1)

def modJob (ctx : Nat) (f : Job → Job) (s : State) : State := s.modSolv fun x => { x with jobs := tmod f x.jobs ctx }

/-- Records the highest number of contexts in use. -/
def ctxPeak (s : State) : State := s.regMax R.SOLV_QUEUE_PEAK s.ctxUsed

/-! ### Lanes (R356 to R358) -/

def laneMap (s : State) (e : Nat) : LaneMap := nth LaneMap.reset s.solv.lanes e

/-- A physical lane is in service. -/
def laneInService (s : State) (e lane : Nat) : Bool := (s.laneMap e).inUse.contains lane

/-- The next spare lane: one that is neither in service nor faulty. [DEDUCED, log entry 130] -/
def spareLane (s : State) (e : Nat) : Option Nat :=
  let m := s.laneMap e
  (List.range 72).find? fun l => !m.inUse.contains l && !m.faulty.contains l

/-- Shows the lane map of an engine (R362). -/
def laneShow (e : Nat) (s : State) : State :=
  let m := s.laneMap e
  let spares := (List.range 72).countP fun l => !m.inUse.contains l && !m.faulty.contains l
  let map := m.faulty.foldl (fun n l => n + 2 ^ l) 0
  let s := s.setReg (R.SOLV_ENG_LANES e) (BitVec.ofNat 32 (min spares 8 + 16 * m.faulty.length))
  let s := s.setReg (R.SOLV_ENG_FAULT_MAP0 e) (BitVec.ofNat 32 map)
  let s := s.setReg (R.SOLV_ENG_FAULT_MAP1 e) (BitVec.ofNat 32 (map / 2 ^ 32))
  s.setReg (R.SOLV_ENG_FAULT_MAP2 e) (BitVec.ofNat 32 (map / 2 ^ 64))

/-- Changes the lane map of an engine, in persistent configuration too. -/
def setLanes (e : Nat) (f : LaneMap → LaneMap) (s : State) : State :=
  let s := s.modSolv fun x => { x with lanes := modNth f x.lanes e }
  (s.updNv fun n => { n with lanes := s.solv.lanes }).laneShow e

/-- Microseconds of work that each engine of a mask has done since a raw count. -/
def addTime (reg : Nat → Nat) (mask since : Nat) (s : State) : State :=
  (maskEngines mask).foldl (fun s e => s.bump (reg e) ((s.raw - since) / 250)) s

/-- Squashes run-ahead work: it is erased and counted (R349, R350). [DEDUCED, log entry 77] -/
def squash (ctx : Nat) (s : State) : State :=
  match tget s.solv.ahead ctx with
  | none => s
  | some w =>
    let s := if w.parked then s else s.addTime R.SOLV_ENG_SPEC_US w.engines w.startRaw
    (s.modSolv fun x => { x with ahead := tdel x.ahead ctx }).bump R.SOLV_RA_SQUASHED 1

/-- Squashes the run-ahead work that meets a condition. -/
def squashIf (p : Ahead → Bool) (s : State) : State :=
  (s.solv.ahead.filter fun x => p x.2).foldl (fun s x => s.squash x.1) s

/-- Retiring versions whose last job has ended are dropped (R310). -/
def dropRetired (slot : Nat) (s : State) : State :=
  s.modDescSlot slot fun x => { x with old := x.old.filter fun v => s.verJobs slot v.ver != 0 }

/-- A slot becomes EMPTY; a version that still has jobs retires (R308, R310). -/
def emptySlot (slot : Nat) (s : State) : State :=
  let s := s.squashIf fun w => w.slot == slot
  (s.modDescSlot slot fun x => { x with cur := none, old := x.cur.toList ++ x.old, emptying := false }).dropRetired slot

/-- What the end of a slot's jobs brings: retiring versions go, and a load of length 0 empties the slot with its stored copy
(R310). [DESIGN CHOICE, log entry 157] -/
def settleSlot (slot : Nat) (s : State) : State :=
  let s := s.dropRetired slot
  let x := s.descSlot slot
  if x.emptying && (x.cur.toList ++ x.old).all fun v => s.verJobs slot v.ver == 0 then
    ({ s with descArea := tdel s.descArea (16 * s.nv.activeSlot + slot) }).emptySlot slot
  else s

/-- A lane is faulty: one in service waits for its spare, a spare is lost (R356, R358, R590). -/
def laneFaulty (e lane : Nat) (s : State) : State :=
  if 4 ≤ e ∨ 72 ≤ lane ∨ (s.laneMap e).faulty.contains lane then s
  else
    let used := s.laneInService e lane
    let s := s.setLanes e fun m => { m with faulty := m.faulty ++ [lane] }
    if used then
      (s.modSolv fun x => { x with laneDue := x.laneDue ++ [128 * e + lane] }).squashIf fun w =>
        w.engines / 2 ^ e % 2 == 1
    else s.spareLost 1 e (256 * e + lane)

/-- The lanes of a known-answer test that fail (R356); the test covers the engines of a mask. -/
def katFail (mask : Nat) (kat : List Nat) (s : State) : State :=
  (kat.filter fun x => mask / 2 ^ (x / 128) % 2 == 1).foldl (fun s x => s.laneFaulty (x / 128) (x % 128)) s

/-- HLT_SPARE_BRING_IN of a lane (R358, R599). -/
def laneDue (e lane : Nat) (s : State) : State := s.laneFaulty e lane

/-! ### Plans and results (R314, R315) -/

/-- A plan value in a signal's type: gain × value + offset, rounded to nearest, ties to even; integers saturate. -/
def outValue (b : Bind) (x ty : Nat) (s : State) : Nat × State :=
  let v64 := (fpConvert fp32 fp64 0 x).bits
  match affineQ b.gain b.off v64 with
  | none => fromF64 ty (affine64 b.gain b.off v64) s
  | some q =>
    let whole (lo hi : Int) (bits : Nat) : Nat × State := (ofSigned bits (clampInt lo hi q.round), s)
    match ty with
    | 8 => (affineIn b.gain b.off v64, s)
    | 9 => (if q.n = 0 then affine64 b.gain b.off v64 else Q.toFp fp64 q, s)
    | 2 => whole (-(2 ^ 31)) (2 ^ 31 - 1) 32
    | 4 => whole (-(2 ^ 63)) (2 ^ 63 - 1) 64
    | 5 => whole 0 (2 ^ 64 - 1) 64
    | _ => whole 0 (2 ^ 32 - 1) 32

/-- Writes the value bytes of a signal. -/
def writeValue (i v : Nat) (s : State) : State :=
  s.setBytes (s.entryAddr i) (padTo 8 (leBytes (typeSize (s.sigType i)) v))

/-- Writes one result to the image through its bound outputs (R314, R315). [DEDUCED, log entry 76] -/
def applyResult (r : PlanWait) (s : State) : State :=
  let d := r.ver.bytes
  ((bindsOf d).zip r.ver.binds).foldl (fun s x =>
    match x.2 with
    | none => s
    | some i =>
      let put (v : Nat) (s : State) : State :=
        let (y, s) := outValue x.1 v (s.sigType i) s
        s.writeValue i y
      match x.1.target, r.plan with
      | 0x10, some z => put (planU d z x.1.k0 x.1.elem) s
      | 0x11, some z => put (planX d z x.1.k0 x.1.elem) s
      | 0x12, _ => s.writeValue i r.status.code
      | _, _ => s) s

/-- What the copy-out of task `t` does with the results taken at its beginning: of all of them it applies the one submitted
last, and none from a submission earlier than one applied before (R314, R315). [DEDUCED, log entry 76] -/
def applyPlans (t : Nat) (s : State) : State :=
  let mine (r : PlanWait) : Bool := r.taken && dCarrier r.ver.bytes == t
  let best := (s.solv.results.filter mine).foldl (fun (b : Option PlanWait) r =>
    match b with
    | some b => if b.order < r.order then some r else some b
    | none => some r) none
  let s := s.modSolv fun x => { x with results := x.results.filter fun r => !mine r }
  match best with
  | some r =>
    if (tget s.solv.applied t).getD 0 < r.order then
      (s.applyResult r).modSolv fun x => { x with applied := tput x.applied t r.order }
    else s
  | none => s

/-! ### Inputs (R311, R312) -/

/-- Value in FP64, quality and type of signal `i` as a submission sees it: from the submitting task's input section when
the signal is there, else from the image with any input force. -/
def readBound (s : State) (task : Option Nat) (i : Nat) : Nat × Byte :=
  let entry (a : Nat) : Nat × Byte :=
    let ty := (s.byteAt (a + 9)).toNat
    (toF64 ty (s.numAt a (max 1 (typeSize ty))), s.byteAt (a + 8))
  let image : Nat × Byte :=
    match s.forceOn i true with
    | some f => (toF64 (s.sigType i) (fieldAt f.value 0 (max 1 (typeSize (s.sigType i)))), f.quality)
    | none => entry (s.entryAddr i)
  match task with
  | none => image
  | some t =>
    match (s.inIndices t).findIdx? (· == i) with
    | some p => entry (s.inSection t + 16 * p)
    | none => image

/-- A quality that R312 hands to the policy. -/
def badQuality (policy : Nat) (q : Byte) : Bool := field q 7 6 == 0 || (field q 7 6 == 1 && policy / 4 % 2 == 1)

/-- The values of the input bindings by binding index, and the indices substituted; or the binding that refuses. -/
def readInputs (s : State) (slot : Nat) (v : DescVer) (task : Option Nat) : Except Nat (List (Nat × Nat) × List Nat) :=
  go (((bindsOf v.bytes).zip v.binds).mapIdx fun i x => (i, x)) [] []
where
  /-- One binding after the other. -/
  go : List (Nat × (Bind × Option Nat)) → List (Nat × Nat) → List Nat → Except Nat (List (Nat × Nat) × List Nat)
    | [], vals, subs => .ok (vals, subs.reverse)
    | (i, b, ix) :: rest, vals, subs =>
      if b.isOut then go rest vals subs
      else
        let (x, q) := s.readBound task (ix.getD 0)
        let read := affineIn b.gain b.off x
        if badQuality b.policy q then
          match b.policy % 4 with
          | 0 => .error i
          | 1 => go rest (tput vals i ((tget (s.descSlot slot).last i).getD b.dflt)) (i :: subs)
          | 2 => go rest (tput vals i b.dflt) (i :: subs)
          | _ => go rest (tput vals i read) subs
        else go rest (tput vals i read) subs

/-! ### The end of a job (R328, R342, R359, R361, R364) -/

/-- FP32 NaN of a record without an iterate (R359). -/
def noIterate : SolveMetrics := ⟨0x7FC00000, 0x7FC00000, 0x7FC00000, 0x7FC00000, 0x7FC00000⟩

/-- The header of a result record (R359). -/
def recordHeader (d : List Byte) (j : Job) (st : Status) (reason src stage : Nat) (noTail soft : Bool) (m : SolveMetrics)
    (endAt : Instant) : List Byte :=
  let b (x : Bool) (k : Nat) : Nat := if x then 2 ^ k else 0
  let fl := b (j.pivots != 0) 0 + b j.inertia 1 + b j.refineLimit 2 + b soft 3 + b noTail 4 + b (j.subst != 0) 5 +
    b j.ranAhead 6
  leBytes 2 st.code ++ leBytes 2 j.id ++ leBytes 4 j.tag ++ leBytes 4 (dProblem d) ++
    leBytes 1 j.slot ++ leBytes 1 reason ++ leBytes 1 src ++ leBytes 1 fl ++
    instantBytes j.submitted ++ (match j.started with | some t => instantBytes t | none => zeros 12) ++
    instantBytes endAt ++ leBytes 2 j.iters ++ leBytes 2 j.spec ++ leBytes 1 j.engines ++
    leBytes 1 (satTo 8 j.retries) ++ leBytes 2 j.subst ++ leBytes 4 (satTo 32 j.pivots) ++
    leBytes 4 (satTo 32 j.refine) ++ leBytes 4 m.primal ++ leBytes 4 m.dual ++ leBytes 4 m.mu ++
    leBytes 4 m.objective ++ leBytes 4 m.slack ++ leBytes 1 (dN d) ++ leBytes 1 (dNu d) ++ leBytes 1 (dNx d) ++
    zeros 1 ++ leBytes 2 j.firstRetry ++ leBytes 2 stage ++ zeros 32

/-- The predicted inputs of run-ahead work after a job whose plan is `z` (R348). -/
def predict (d : List Byte) (j : Job) (z : List Nat) : List (Nat × Nat) :=
  let bs := (bindsOf d).mapIdx fun i b => (i, b)
  (bs.filter fun x => !x.2.isOut).map fun x =>
    let own := (tget j.inputs x.1).getD 0
    let b := x.2
    if b.target = 1 then (x.1, planX d z 1 b.elem)
    else
      let cand := bs.filter fun y => y.2.target == b.target && y.2.elem == b.elem &&
        decide (y.2.k0 ≤ b.k0 + 1 ∧ b.k0 + 1 ≤ y.2.k1)
      match cand.getLast? with
      | some y => (x.1, (tget j.inputs y.1).getD 0)
      | none => (x.1, own)

/-- The generation that a bank header holds (R300). -/
def bankGen (s : State) (d : List Byte) (bank : Nat) : Nat := s.numAt (dBank d bank) 8

/-- The engines read a bank: single-bit errors on the way are corrected, and a word with an uncorrectable error counts and
gives an open value (R27, R596). [DESIGN CHOICE, log entry 158] -/
def readBank (d : List Byte) (bank : Nat) (s : State) : List Byte × State :=
  let a := dBank d bank
  let n := dBankLen d
  let s := s.eccMeet a n
  (s.poison.filter fun w => decide (a ≤ w ∧ w < a + n)).foldl (fun (r : List Byte × State) w =>
    let (v, s) := r.2.draw 85
    (r.1.take (w - a) ++ leBytes 8 v ++ r.1.drop (w - a + 8), s.eccUncorrectable w)) (s.bytesAt a n, s)

/-- The problem that a job, or run-ahead work, solves. -/
def jobProb (v : DescVer) (j : Job) : Prob := { d := v.bytes, bank := j.data, inputs := j.inputs }
def aheadProb (v : DescVer) (w : Ahead) : Prob := { d := v.bytes, bank := w.data, inputs := w.inputs }

/-- Four engines serve a placement. -/
def fourEngines (place : Nat) : Bool := decide (2 ≤ place)

/-- Starts run-ahead work after a job that returned the iterate `z`, where R347 allows it; `kat` are the lanes that fail the
known-answer test. -/
def startAhead (j : Job) (v : DescVer) (z : List Nat) (kat : List Nat) (s : State) : State :=
  let es := maskEngines j.engines
  let queued := s.solv.jobs.any fun x => x.2.state == 0
  let cur := ((s.descSlot j.slot).cur.map fun c => c.ver == j.ver && !c.unbound).getD false
  if !dRunAhead v.bytes || !cur || queued || es.isEmpty ||
      !(es.all fun e => s.engFree e && (s.engAhead e).isNone) then s
  else
    match s.freeCtx with
    | none => s
    | some c =>
      let s := s.katFail j.engines kat
      if es.any s.lanePending then s
      else
        let (data, s) := s.readBank v.bytes j.bank
        let inputs := predict v.bytes j z
        let p : Prob := { d := v.bytes, bank := data, inputs := inputs }
        let w : Ahead :=
          { slot := j.slot, ver := j.ver, bank := j.bank, gen := j.gen, engines := j.engines, inputs := inputs,
            data := data, pt := p.startPoint (some (shiftPlan v.bytes z)), iters := 0, parked := false, startRaw := s.raw,
            mism := [] }
        (s.modSolv fun x => { x with
          ahead := tput x.ahead c w, localUsed := x.localUsed ||| BitVec.ofNat 4 j.engines,
          hidden := es.foldl (fun h e => tput h e (workspace v.bytes v.place)) x.hidden }).ctxPeak

/-- The tail plan of a slot: from a source of this size (R344). [DESIGN CHOICE, log entry 163] -/
def tailPlan (s : State) (slot : Nat) (d : List Byte) : Option (List Nat) :=
  ((s.descSlot slot).tail.filter fun z => z.length == planWords d).map (shiftPlan d)

/-- Whether an event may be logged again at most once per second. -/
def secondPassed (s : State) (t : Option Nat) : Bool :=
  match t with | none => true | some t => decide (t + rawUs 1000000 ≤ s.raw)

/-- A job ends for a reason of R328 at a stage, 0 at an iteration boundary; `kat` are the lanes that fail the known-answer
test before run-ahead work. Step 1 for the last complete iterate gives the record its numbers (R342, R359). -/
def endJob (ctx reason stage : Nat) (kat : List Nat) (s : State) : State :=
  match tget s.solv.jobs ctx with
  | none => s
  | some j =>
    match s.descVer j.slot j.ver with
    | none => s
    | some v =>
      if j.state = 2 then s
      else
        let d := v.bytes
        let tail := s.tailPlan j.slot d
        let known := decide (0 < j.iters ∨ reason = 0)
        let m := if known then (jobProb v j).metrics j.pt else noIterate
        let good := decide (0 < j.iters) && feasible d m
        let st : Status := match reason with
          | 0 => .ok
          | 1 | 2 | 3 => if good then .solvBestEffort else .solvFallback
          | 4 => .solvNumeric
          | 5 => .solvCancelled
          | 6 => .solvDescriptor
          | _ => .solvFallback
        let iterate := decide (reason = 0) || (decide (1 ≤ reason ∧ reason ≤ 3) && good)
        let wantsTail := !iterate && decide (reason ≠ 5 ∧ reason ≠ 6)
        let z := (jobProb v j).planOf j.pt
        let plan := if iterate then some z else if wantsTail then tail else none
        let src := if iterate then 1 else if plan.isSome then 2 else 0
        let soft := known && ltL (dFeasTol d) m.slack
        let header := recordHeader d j st reason src stage (wantsTail && plan.isNone) soft m s.now
        let record := header ++ (plan.getD []).flatMap fun w => leBytes 4 w
        -- the tail source (R345)
        let s := match plan with
          | some z => s.modDescSlot j.slot fun x => { x with tail := some z }
          | none => s
        -- the result that waits for the carrier (R315)
        let s := if j.noApply ∨ dCarrier d = 0xFF then s
          else s.modSolv fun x => { x with
            results := x.results ++ [⟨j.slot, v, j.order, st, plan, false⟩] }
        -- the record and the context (R318, R361)
        let s := if j.resAddr ≠ 0 then
            ((s.setBytes (j.resAddr + 4) (record.drop 4)).setBytes j.resAddr (record.take 4)).modSolv fun x =>
              { x with jobs := tdel x.jobs ctx }
          else s.modJob ctx fun x =>
            { x with state := 2, status := st, record := record, reads := [], endRaw := s.raw }
        -- counters
        let s := (maskEngines j.engines).foldl (fun s e => s.bump (R.SOLV_ENG_JOBS e) 1) s
        let s := s.addTime R.SOLV_ENG_BUSY_US j.engines j.startRaw
        let s := if st = .solvBestEffort ∨ st = .solvFallback then s.bump R.SOLV_LATE_ENDS 1 else s
        let s := if st = .solvNumeric then s.bump R.SOLV_NUMERIC_ENDS 1 else s
        -- events (R338, R364)
        let a := j.id + 0x10000 * reason
        let src := srcSolv j.engines
        let s : State := if j.pivots != 0 && s.secondPassed (s.descSlot j.slot).pivotLog then
            (s.raise src Ev.SOLV_PIVOT_REG j.slot j.pivots).modDescSlot j.slot fun x =>
              { x with pivotLog := some s.raw }
          else s
        let s := if st = .solvBestEffort ∨ st = .solvFallback then s.raise src Ev.SOLV_LATE a stage else s
        let s := if st = .solvNumeric then s.raise src Ev.SOLV_NUMERIC a stage else s
        let s :=
          if j.host then (s.raise src Ev.SOLV_JOB_DONE a st.code).notify 24
          else if st = .solvNumeric ∨ st = .solvCancelled ∨ st = .solvDescriptor then
            s.raise src Ev.SOLV_JOB_DONE a st.code
          else s
        let s := s.settleSlot j.slot
        if iterate then s.startAhead j v z kat else s

/-- The counts of an iteration, whole or cut off, go to its job (R336, R338, R339). -/
def addTally (ctx : Nat) (y : Tally) (s : State) : State :=
  (s.modJob ctx fun x => { x with
    pivots := x.pivots + y.pivots, retries := x.retries + y.retries, refine := x.refine + y.refine,
    firstRetry := if x.firstRetry = 0 then y.firstRetry else x.firstRetry,
    inertia := x.inertia || y.inertia, refineLimit := x.refineLimit || y.refineLimit }).bump R.SOLV_PIVOT_REPLACED y.pivots

/-- Streaming placement reads its bank anew at a sweep (R302). -/
def sweepBank (ctx : Nat) (j : Job) (v : DescVer) (s : State) : State :=
  if v.place % 2 = 0 then s
  else
    let (data, s) := s.readBank v.bytes j.bank
    s.modJob ctx fun x => { x with data := data }

/-- The checks of the iteration at hand after its boundary (R341): those of the residual sweep alone where step 2 or step 3
ends the job, or where the first sweep finds malformed data. -/
def jobChecks (j : Job) (v : DescVer) : List Check :=
  let p := jobProb v j
  let all := (iteration p (fourEngines v.place) j.pt).checks
  if v.place % 2 = 1 && j.iters == 0 && (bankFaultAt j.data v.bytes j.inputs).isSome then []
  else if converges v.bytes (p.metrics j.pt) || decide (dIterLimit v.bytes ≤ j.iters) then all.take (dN v.bytes)
  else all

/-- The work of a job stops at check `n` of the iteration at hand: its counts up to there, and the stage.
[DESIGN CHOICE, log entry 75] -/
def cutAt (ctx n : Nat) (cs : List Check) (s : State) : Nat × State :=
  match if n = 0 then none else cs[n - 1]? with
  | some c => (c.stage, s.addTally ctx c.tally)
  | none => (0, s)

/-- The end of a job by cancellation (R354): a running one stops at a check that is open.
[DESIGN CHOICE, log entry 75] -/
def cancelJob (ctx : Nat) (s : State) : State :=
  match tget s.solv.jobs ctx with
  | none => s
  | some j =>
    match s.descVer j.slot j.ver with
    | none => s
    | some v =>
      if j.state ≠ 1 then s.endJob ctx 5 0 []
      else
        let (n, s) := s.draw 21
        let cs := jobChecks j v
        let (stage, s) := s.cutAt ctx (n % (cs.length + 1)) cs
        s.endJob ctx 5 stage []

/-! ### Engines (R355) -/

/-- An engine begins STARTING. -/
def engineStart (e : Nat) (pend : Bool) (s : State) : State :=
  let s := s.setRegField (R.SOLV_ENG_STATE e) 2 0 1
  s.modSolv fun x => { x with startPending := setBit x.startPending e pend, disableWaiting := setBit x.disableWaiting e false }

/-- An engine's work ends: its job CANCELLED, its run-ahead work squashed (R323, R350, R355). -/
def engineClear (e : Nat) (s : State) : State :=
  let s := (s.solv.jobs.filter fun x => x.2.state == 1 && x.2.engines / 2 ^ e % 2 == 1).foldl
    (fun s x => s.cancelJob x.1) s
  s.squashIf fun w => w.engines / 2 ^ e % 2 == 1

/-- A disable takes effect on an engine: ON goes to STOPPING, STARTING keeps it waiting, a pending enable is
cancelled. -/
def engineDisable (e : Nat) (s : State) : State :=
  match s.engState e with
  | 2 => (s.setRegField (R.SOLV_ENG_STATE e) 1 0 3).engineClear e
  | 0 => s
  | st =>
    let s := if s.regBit (R.SOLV_ENG_STATE e) 2 then
        (s.setRegBit (R.SOLV_ENG_STATE e) 2 false).raise (20 + e) Ev.SOLV_ENGINE_ENABLE_CANCELLED e 0
      else s
    if st = 1 then s.modSolv fun x => { x with disableWaiting := setBit x.disableWaiting e true } else s

/-- An engine reaches OFF, and a pending enable starts it again. -/
def engineOff (e : Nat) (s : State) : State :=
  let pend := s.regBit (R.SOLV_ENG_STATE e) 2
  let s := s.setRegField (R.SOLV_ENG_STATE e) 3 0 0
  let s := s.raise (20 + e) Ev.SOLV_ENGINE_OFF e 0
  let s := s.completeWaiting (.engineOff e) .ok 0
  if pend && s.domOn (2 + e) then s.engineStart e true else s

/-- The domain of an engine has reached ON (R355). -/
def engineDomainUp (e : Nat) (s : State) : State :=
  if (s.laneMap e).inUse.length < 32 then s else (s.engineStart e false).solvShow

/-- The domain of an engine goes: the engine is OFF at once, and what its local memory held is lost (R48, R323). -/
def engineDomainDown (e : Nat) (s : State) : State :=
  let s := s.engineClear e
  let was := s.engState e
  let s := s.setRegField (R.SOLV_ENG_STATE e) 3 0 0
  let s := if was = 0 then s else s.raise (20 + e) Ev.SOLV_ENGINE_OFF e 0
  let s := s.modSolv fun x => { x with startPending := setBit x.startPending e false,
                                       disableWaiting := setBit x.disableWaiting e false,
                                       localUsed := setBit x.localUsed e true, hidden := tdel x.hidden e }
  let s := s.clearMem (0x2000000 + 0x400000 * e) (0x2400000 + 0x400000 * e)
  let s := s.completeWaiting (.engineOff e) .ok 0
  (s.completeWaiting (.engineOn e) .domainOff (2 + e)).solvShow

/-- A lane is replaced while its engine holds no work, or finds no spare (R358, R598, R600). -/
def laneBringIn (e : Nat) (s : State) : State :=
  match s.solv.laneDue.find? fun x => x / 128 == e with
  | none => s
  | some x =>
    let lane := x % 128
    let s := s.modSolv fun v => { v with laneDue := v.laneDue.filter (· != x) }
    match s.spareLane e with
    | some sp =>
      let s := s.setLanes e fun m => { m with inUse := m.inUse.map fun l => if l = lane then sp else l }
      (s.raise (20 + e) Ev.SOLV_LANE_SPARED e (lane + 256 * sp)).spared 1 e (256 * e + lane)
    | none =>
      let s := s.setLanes e fun m => { m with inUse := m.inUse.filter (· != lane) }
      let healthy := (s.laneMap e).inUse.length
      let s := if healthy < 32 then s.engineDisable e else s.setRegBit (R.SOLV_ENG_STATE e) 3 true
      (s.raise (20 + e) Ev.SOLV_ENGINE_DEGRADED e healthy).noSpare 1 e (256 * e + lane)

/-! ### Starting jobs (R322, R329) -/

/-- Job `a` comes before job `b` in the queue (R322). -/
def jobBefore (a b : Job) : Bool :=
  let dl (j : Job) : Nat := if j.deadline = 0 then 2 ^ 96 else j.deadline
  if a.prio ≠ b.prio then decide (a.prio < b.prio)
  else if dl a ≠ dl b then decide (dl a < dl b)
  else decide (a.order < b.order)

/-- Inserts a job into a sorted queue. -/
def queueInsert (x : Nat × Job) : List (Nat × Job) → List (Nat × Job)
  | [] => [x]
  | y :: ys => if jobBefore x.2 y.2 then x :: y :: ys else y :: queueInsert x ys

/-- The queued jobs in their order. -/
def jobQueue (s : State) : List (Nat × Job) :=
  (s.solv.jobs.filter fun x => x.2.state == 0).foldl (fun q x => queueInsert x q) []

/-- The job to start and its engines: the first of the queue whose engines are ON starts or is waited for; a job whose
engines are not ON lets the next pass. -/
def pickJob (s : State) : List (Nat × Job) → Option (Nat × Job × Nat)
  | [] => none
  | (c, j) :: rest =>
    let place := ((s.descVer j.slot j.ver).map (·.place)).getD 0
    if place < 2 then
      if (List.range 4).any s.engOn then
        let idle := (List.range 4).find? fun e => s.engFree e && (s.engAhead e).isNone
        match idle.or ((List.range 4).find? s.engFree) with
        | some e => some (c, j, 2 ^ e)
        | none => none
      else pickJob s rest
    else if (List.range 4).all s.engOn then
      if (List.range 4).all s.engFree then some (c, j, 15) else none
    else pickJob s rest

/-- A job's data are checked where they are all read at the start (R301, R302). -/
def checkResident (ctx : Nat) (s : State) : State :=
  match tget s.solv.jobs ctx with
  | none => s
  | some j =>
    match s.descVer j.slot j.ver with
    | none => s
    | some v =>
      if v.place % 2 = 0 ∧ (bankFaultAt j.data v.bytes j.inputs).isSome then s.endJob ctx 6 0 [] else s

/-- The engines of a mask hold the work of a job: nothing in their local memory is hidden any more. -/
def showLocal (mask : Nat) (s : State) : State :=
  s.modSolv fun x => { x with
    localUsed := x.localUsed ||| BitVec.ofNat 4 mask, hidden := (maskEngines mask).foldl tdel x.hidden }

/-- The job of a context starts on engines: resident data are copied and checked, the point is that of R329. -/
def startJob (ctx mask : Nat) (s : State) : State :=
  match tget s.solv.jobs ctx with
  | none => s
  | some j =>
    match s.descVer j.slot j.ver with
    | none => s
    | some v =>
      let d := v.bytes
      let (data, s) := (s.showLocal mask).readBank d j.bank
      let p : Prob := { d := d, bank := data, inputs := j.inputs }
      let s := s.modJob ctx fun x => { x with
        state := 1, started := some s.now, startRaw := s.raw, engines := mask, gen := fieldAt data 0 8, data := data,
        pt := p.startPoint (s.tailPlan j.slot d) }
      s.checkResident ctx

/-- Queued jobs whose deadline has passed leave the queue (R343). -/
def dropExpired (s : State) : State :=
  (s.solv.jobs.filter fun x => x.2.state == 0 && x.2.deadline != 0 && decide (x.2.deadline ≤ s.now)).foldl
    (fun s x => s.endJob x.1 7 0 []) s

/-- Starts one queued job, if one may start; the known-answer test comes first (R322, R356). -/
def startNext (kat : List Nat) (s : State) : State :=
  let s := s.dropExpired
  match s.pickJob s.jobQueue with
  | none => s
  | some (c, _, mask) =>
    let s := s.squashIf fun w => (w.engines &&& mask) != 0
    let s := s.katFail mask kat
    if (maskEngines mask).any s.lanePending then s else s.startJob c mask

/-! ### Submissions (R319 to R321, R351 to R353) -/

/-- The offset of the first field of a record that step 2 of R321 refuses. -/
def submitBad (r : List Byte) (banked : Bool) (need : Nat) : Option Nat :=
  let fl := fieldAt r 4 2
  let addr := fieldAt r 0x18 8
  firstBad [(decide (4 ≤ fl ∨ (fl % 2 = 1 ∧ !banked)), 4), (decide (3 < fieldAt r 6 1), 6), (fieldAt r 7 1 != 0, 7),
    (fieldAt r 0x14 4 != 0, 0x14),
    (addr != 0 && (addr % 64 != 0 || !Sys2Proof.Machine.inside (addr, need) (sramBase, sramSize)), 0x18),
    (!allZero (slice r 0x24 12), 0x24)]

/-- The confirmation test of R351. -/
def confirms (s : State) (w : Ahead) (v : DescVer) (bank : Nat) (inputs : List (Nat × Nat)) : Bool :=
  let tol := dAheadTol v.bytes
  w.ver == v.ver && w.bank == bank && s.bankGen v.bytes bank == w.gen && fpPositive tol && fpFinite fp32 tol &&
    inputs.all fun x =>
      let p := (tget w.inputs x.1).getD 0
      fpFinite fp32 x.2 && fpFinite fp32 p &&
        (((Q.ofFp fp32 x.2).sub (Q.ofFp fp32 p)).abs).le
          ((Q.ofFp fp32 tol).mul ((Q.ofInt 1).add (Q.ofFp fp32 p).abs))

/-- The first domain that a placement misses (step 3 of R321). -/
def missingDomain (s : State) (place : Nat) : Option Nat :=
  if place < 2 then (if (List.range 4).any s.engOn then none else some 2)
  else ((List.range 4).find? fun e => !s.engOn e).map (2 + ·)

/-- Step 5 of R321: a context, run-ahead work of another slot squashed where no other is free. -/
def submitCtx (slot : Nat) (s : State) : Option Nat × State :=
  match s.solv.ahead.find? fun x => x.2.slot == slot with
  | some (c, _) => (some c, s)
  | none =>
    match s.freeCtx with
    | some c => (some c, s)
    | none =>
      match s.solv.ahead with
      | (c, _) :: _ => (some c, s.squash c)
      | [] => (none, s)

/-- A submission is accepted: the job is queued, or takes over run-ahead work (R318, R343, R352, R353, R361). -/
def acceptJob (ctx slot : Nat) (v : DescVer) (host : Bool) (r : List Byte) (inputs : List (Nat × Nat)) (subs : List Nat)
    (s : State) : Nat × State :=
  let u := nth 0 s.solv.uses ctx
  let id := ctx + 64 * u
  let bank := fieldAt r 4 2 % 2
  let j : Job :=
    { id := id, slot := slot, ver := v.ver, bank := bank, noApply := fieldAt r 4 2 / 2 % 2 == 1, prio := fieldAt r 6 1,
      deadline := instantOf (slice r 8 12), resAddr := fieldAt r 0x18 8, tag := fieldAt r 0x20 4, host := host,
      order := s.solv.nextOrder, state := 0, inputs := inputs, subst := subs.length, submitted := s.now,
      started := none, startRaw := s.raw, engines := 0, iters := 0, spec := 0, ranAhead := false, gen := 0, data := [], pt := [],
      pivots := 0, retries := 0, refine := 0, firstRetry := 0, inertia := false, refineLimit := false, mism := [],
      status := .pending, record := [], reads := [], endRaw := 0 }
  let s := s.modSolv fun x => { x with
    uses := modNth (fun n => (n + 1) % 1023) x.uses ctx, nextOrder := x.nextOrder + 1 }
  let s := s.modDescSlot slot fun x => { x with last := inputs }
  let s := if !subs.isEmpty && s.secondPassed (s.descSlot slot).substLog then
      (s.raise srcMgt Ev.SOLV_INPUT_SUBST slot (subs.headD 0)).modDescSlot slot fun x =>
        { x with substLog := some s.raw }
    else s
  let s := if j.resAddr ≠ 0 then s.setNum j.resAddr 4 (Status.pending.code + 0x10000 * id) else s
  let late := decide (j.deadline ≠ 0 ∧ j.deadline ≤ s.now)
  match tget s.solv.ahead ctx with
  | some w =>
    if !late && s.confirms w v bank inputs then
      let s := if w.parked then s else s.addTime R.SOLV_ENG_SPEC_US w.engines w.startRaw
      let s := (s.modSolv fun x => { x with ahead := tdel x.ahead ctx }).bump R.SOLV_RA_CONTINUED 1
      let s := (s.putJob ctx { j with
        state := 1, started := some s.now, engines := w.engines, spec := w.iters, ranAhead := true, gen := w.gen,
        data := w.data, pt := w.pt }).ctxPeak
      (id, (s.showLocal w.engines).checkResident ctx)
    else
      let s := ((s.squash ctx).putJob ctx j).ctxPeak
      (id, if late then s.endJob ctx 7 0 [] else s)
  | none =>
    let s := (s.putJob ctx j).ctxPeak
    (id, if late then s.endJob ctx 7 0 [] else s)

/-- The checks of R321 on a record; the answer is the status and RESULT0. -/
def submit (host : Bool) (task : Option Nat) (r : List Byte) (s : State) : (Status × Nat) × State :=
  let refuse (st : Status) (r0 : Nat) (s : State) : (Status × Nat) × State :=
    ((st, r0), s.bump R.SOLV_SUBMIT_REFUSED 1)
  let slot := fieldAt r 0 4
  match if slot < 16 then (s.descSlot slot).cur else none with
  | none => refuse .badParam 0 s
  | some v =>
    let d := v.bytes
    let bank := fieldAt r 4 2 % 2
    if v.unbound then refuse .symbolUnknown 0 s
    else
      match submitBad r (dBanked d) (128 + 4 * planWords d) with
      | some off => refuse .badParam off s
      | none =>
        match s.missingDomain v.place with
        | some k => refuse .domainOff k s
        | none =>
          if s.areaInDdr (dBank d bank, dBankLen d) && !s.ddrReady then refuse .noDdr 0 s
          else
            match s.submitCtx slot with
            | (none, s) => refuse .busy 2 s
            | (some ctx, s) =>
              if descSum (s.bytesAt v.home d.length) ≠ v.sum then refuse .solvDescriptor 0 s
              else
                match s.readInputs slot v task with
                | .error i => refuse .badParam (0x8000 + i) s
                | .ok (inputs, subs) =>
                  let (id, s) := s.acceptJob ctx slot v host r inputs subs
                  ((.pending, id), s)

/-! ### Descriptors (R308 to R310) -/

/-- A load makes a version current; the old one retires while it has jobs (R310, R345, R350). -/
def installDesc (slot home : Nat) (d : List Byte) (s : State) : State :=
  let v : DescVer :=
    { ver := s.solv.nextVer, home := home, bytes := d, sum := descSum d, place := (placement d).getD 0,
      binds := s.resolveAll d, stored := false }
  let s := s.squashIf fun w => w.slot == slot
  let s := s.modSolv fun x => { x with nextVer := x.nextVer + 1 }
  let s := s.modDescSlot slot fun x => { x with
    cur := some v, old := x.cur.toList ++ x.old, emptying := false, last := [], tail := none }
  let s := s.dropRetired slot
  let s := s.setBytes home d
  let init := slice d (dInitOff d) (dBankLen d)
  if dInitOff d = 0 then s
  else
    let s := s.setBytes (dBank d 0) init
    if dBanked d then s.setBytes (dBank d 1) init else s

/-- The event of a slot that is UNBOUND (R309). -/
def logUnbound (slot : Nat) (s : State) : State :=
  match (s.descSlot slot).cur with
  | some v => if v.unbound then s.raise srcMgt Ev.SOLV_DESC_UNBOUND slot v.firstUnbound else s
  | none => s

/-- Every binding is resolved anew, after a program placement or a full change (R309). -/
def rebindDescs (s : State) : State :=
  let up (v : DescVer) : DescVer := { v with binds := s.resolveAll v.bytes }
  let s := s.modSolv fun x => { x with
    slots := x.slots.map fun (y : DescSlot) => { y with cur := y.cur.map up, old := y.old.map up },
    results := x.results.map fun (r : PlanWait) => { r with ver := up r.ver } }
  let s := (List.range 16).foldl (fun s d => s.logUnbound d) s
  s.squashIf fun w => ((s.descSlot w.slot).cur.map (·.unbound)).getD true

/-- CYC_LOAD_PROGRAM empties every descriptor slot, and the new program slot's descriptor area (R308). -/
def emptyDescs (progSlot : Nat) (s : State) : State :=
  let s := (List.range 16).foldl (fun s d => s.emptySlot d) s
  { s with descArea := s.descArea.filter fun x => x.1 / 16 != progSlot }

/-- Bytes of descriptors that the descriptor area must hold besides a slot's. -/
def otherDescBytes (s : State) (slot : Nat) : Nat :=
  (s.solv.slots.mapIdx fun i (x : DescSlot) =>
    if i = slot then 0 else (x.cur.map (·.bytes.length)).getD 0).foldl (· + ·) 0

/-- A stored descriptor has its home or a bank in DDR. -/
def storedInDdr (x : Nat × Nat × List Byte) : Bool :=
  (descAreas x.2.2 x.2.1).any fun a => decide (0x1000000000 ≤ a.1)

/-- Start-up restores stored descriptors of the active program slot (R308). [DEDUCED, log entry 74] -/
def restoreWhich (p : Nat × Nat × List Byte → Bool) (s : State) : State :=
  (s.descArea.filter fun x => x.1 / 16 == s.nv.activeSlot && p x).foldl (fun s x =>
    let slot := x.1 % 16
    let home := x.2.1
    let d := x.2.2
    let discard (k : Nat) (s : State) : State :=
      { s with descArea := tdel s.descArea x.1 }.raise srcMgt Ev.SOLV_DESC_DISCARDED slot k
    match s.descFault slot d with
    | some (st, k) =>
      discard (match st with | .solvSize => if descCheck4 d then 8 else 4 | .noDdr => 6 | _ => k) s
    | none =>
      if s.homeBad slot home d || (!s.ddrReady && s.areaInDdr (home, d.length)) then
        let (k, s) := s.draw 22
        discard (k % 2 ^ 32) s
      else
        let s := (s.installDesc slot home d).logUnbound slot
        s.modDescSlot slot fun x => { x with cur := x.cur.map fun v => { v with stored := true } }) s

/-- Step 7 of a start-up restores the stored descriptors; while DDR is being zeroed those with an area there wait for it.
[DEDUCED, log entry 74] -/
def restoreDescs (s : State) : State :=
  let wait := s.pwr.ddrZeroing
  (s.restoreWhich fun x => !(wait && storedInDdr x)).modSolv fun x => { x with restoreDue := wait }

/-- DDR holds zeros, or is gone: the stored descriptors that waited for it are restored, or discarded. -/
def restoreDdr (s : State) : State :=
  if !s.solv.restoreDue then s
  else ((s.modSolv fun x => { x with restoreDue := false }).restoreWhich storedInDdr).solvShow

end State

end Sys2Proof.Machine
end

