-- ==== Sys2Proof/Machine/Cyclic.lean ====
section
/-! DEFINITION. What happens in the cycle engine: releases, copies, watchdogs, fixed-period frames, drains, the switch of
an online change, and the program store (spec 06, R189 to R240). -/

namespace Sys2Proof.Machine

/-! ### Overlay records in merged form (R240) -/

/-- The bytes that the items set, by offset; later items replace earlier ones. -/
def setItems (items : List (Nat × List Byte)) (t : List (Nat × Byte)) : List (Nat × Byte) :=
  items.foldl (fun t x => (x.2.mapIdx fun i b => (x.1 + i, b)).foldl (fun t y => tput t y.1 y.2) t) t

/-- Items of at most 4,096 bytes that cover a table of bytes: the fewest. -/
def itemsOf : List (Nat × Byte) → List (Nat × List Byte) → List (Nat × List Byte)
  | [], acc => (acc.map fun x => (x.1, x.2.reverse)).reverse
  | (o, b) :: rest, (o', bs) :: acc =>
    if o = o' + bs.length ∧ bs.length < 4096 then itemsOf rest ((o', b :: bs) :: acc)
    else itemsOf rest ((o, [b]) :: (o', bs) :: acc)
  | (o, b) :: rest, [] => itemsOf rest [(o, [b])]

/-- The bytes of an item. -/
def itemBytes (x : Nat × List Byte) : List Byte :=
  leBytes 4 x.1 ++ leBytes 4 x.2.length ++ padTo (4 * ((x.2.length + 3) / 4)) x.2

/-- An overlay record of some items. -/
def overlayRecord (prog build : Nat) (items : List (Nat × List Byte)) : List Byte :=
  let r := leBytes 4 prog ++ leBytes 8 build ++ leBytes 4 items.length ++ (items.map itemBytes).flatten
  r ++ leBytes 4 (crc32 r).toNat

/-- Records of at most 4,096 items. -/
def recordsOf (prog build : Nat) : Nat → List (Nat × List Byte) → List Byte
  | 0, _ => []
  | n + 1, items =>
    if items.isEmpty then [] else overlayRecord prog build (items.take 4096) ++ recordsOf prog build n (items.drop 4096)

namespace State

/-- The merged form of a slot's overlay with a new value list. -/
def mergedOverlay (s : State) (slot prog build : Nat) (items : List (Nat × List Byte)) : List Byte :=
  let (recs, _) := overlayRecords 65536 0 (s.flashBytes (overlayBase slot) 0x100000)
  let t := (recs.filter fun r => r.1 == prog && r.2.1 == build).foldl (fun t r => setItems r.2.2 t) []
  let all := itemsOf (setItems items t) []
  recordsOf prog build (all.length / 4096 + 1) all

/-- The bytes that the valid records of an overlay area take, and whether the area after them is erased. -/
def overlayEnd (s : State) (slot : Nat) : Nat × Bool :=
  let area := s.flashBytes (overlayBase slot) 0x100000
  let (recs, bad) := overlayRecords 65536 0 area
  (recs.foldl (fun n r => n + 20 + (r.2.2.map fun x => (itemBytes x).length).foldl (· + ·) 0) 0, bad.isNone)

/-- Appends a value list to a slot's overlay, in merged form where it would not fit. -/
def appendOverlay (slot : Nat) (list : List Byte) (s : State) : State :=
  let prog := fieldAt list 0 4
  let build := fieldAt list 4 8
  match splitValues (fieldAt list 12 4) (list.drop 16) with
  | none => s
  | some items =>
    let (pos, clean) := s.overlayEnd slot
    let new := list ++ leBytes 4 (crc32 list).toNat
    if clean ∧ pos + new.length ≤ 0x100000 then s.setFlash (overlayBase slot + pos) new
    else
      let merged := s.mergedOverlay slot prog build items
      (s.eraseFlash (overlayBase slot) (overlayBase slot + 0x100000)).setFlash (overlayBase slot) merged

/-- A value change still fits the overlay, if need be in merged form. -/
def overlayFits (s : State) (slot : Nat) (list : List Byte) : Bool :=
  let (pos, clean) := s.overlayEnd slot
  if clean ∧ pos + list.length + 4 ≤ 0x100000 then true
  else
    match splitValues (fieldAt list 12 4) (list.drop 16) with
    | none => false
    | some items => decide ((s.mergedOverlay slot (fieldAt list 0 4) (fieldAt list 4 8) items).length ≤ 0x100000)

/-- The background write of the program store is done and read back (R232). -/
def storeDone (s : State) : State :=
  match s.cyc.store with
  | [] => s
  | j :: rest =>
    let s := { s with cyc := { s.cyc with store := rest } }
    if j.values then
      (s.appendOverlay j.slot j.bytes).raise srcCyc Ev.CYC_STORE_UPDATED j.slot (fieldAt j.bytes 4 8 % 2 ^ 32)
    else
      let old := s.nvNext.activeSlot
      let s := s.writeSlot j.slot j.bytes
      let mine := (s.descArea.filter fun x => x.1 / 16 == old).map fun x => (16 * j.slot + x.1 % 16, x.2)
      let rest := s.descArea.filter fun x => x.1 / 16 == old
      let s := { s with descArea := (mine ++ rest).foldl (fun t (x : Nat × Nat × List Byte) => tput t x.1 x.2) [] }
      let s := s.updNv fun n => { n with activeSlot := j.slot }
      s.raise srcCyc Ev.CYC_STORE_UPDATED j.slot (hBuildId j.bytes % 2 ^ 32)

/-- A value change fits the overlay of the active slot as the background writes that are still to be made leave it
(R232, R240). -/
def valuesFit (s : State) (list : List Byte) : Bool :=
  let s := forNat s.cyc.store.length (fun _ s => s.storeDone) s
  s.overlayFits s.nvNext.activeSlot list

/-! ### Scheduler faults and fixed-period execution (R210, R211) -/

/-- A scheduler fault: 1 late release, 2 table error. -/
def schedFault (cause : Nat) (s : State) : State :=
  let s := s.bump R.CYC_SCHED_FAULTS 1
  if s.regBit R.CYC_CTRL 1 then
    if s.fixedRun ∨ s.cyc.fixedDue.isSome then s else { s with cyc := { s.cyc with fixedDue := some cause } }
  else s.enterStop 4

/-- Fixed-period execution begins: 0 configured, 1 late release, 2 table error. -/
def enterFixed (cause : Nat) (s : State) : State :=
  let s := { s with cyc := { s.cyc with fixedDue := none } }
  ((s.setRegBit R.CYC_MODE 2 true).showFrame).raise srcCyc Ev.CYC_FIXED s.shortestPeriod cause

/-- Whether a task may be released at all now (R208, R213, R500). [DEDUCED, log entry 66] -/
def releasable (s : State) (t : Nat) : Bool :=
  s.mode == 1 && s.taskEnabled t && !(s.task t).stopped && s.role != 2

/-- Tick `i` is on the grid of a task and follows the entry to Run and the last release (R190, R192). -/
def onGrid (s : State) (t i : Nat) : Bool :=
  decide (i % max 1 (s.period t) = s.taskPhase t % max 1 (s.period t) ∧ (s.task t).seenTick < i ∧
    s.cyc.runFrom < tickAt i)

/-- A release waits for a switch point that is reached (R225). -/
def holdsRelease (s : State) : Bool :=
  s.changeState == 2 && !((List.range 32).any s.inside)

/-- A release at tick `i`: made, counted, or delayed behind the switch point; the second that a task would have there is
not made (R205, R226). -/
def releaseAt (t i : Nat) (s : State) : State :=
  if s.holdsRelease then
    let s := s.modTask t fun x => { x with seenTick := i }
    if (tget s.cyc.delayed t).isSome then s.skipRelease t
    else { s with cyc := { s.cyc with delayed := s.cyc.delayed ++ [(t, i)] } }
  else
    let s := if s.inside t then s.checkOverrun t else s
    if s.releasable t then s.release t i else s

/-- The release of task `t` at tick `i` was made more than 50 µs after the tick (R210). [DEDUCED, log entry 63] -/
def madeLate (s : State) (t i : Nat) : Bool :=
  s.inside t && (s.task t).lastTick == some i && (s.task t).releaseRaw == s.raw && decide (tickAt i + usToUnits 50 < s.now)

/-- The release of a task on its own grid (R190, R205, R210). [DEDUCED, log entry 63] -/
def taskRelease (t : Nat) (tableErr : Bool) (s : State) : State :=
  let i := tickOf s.now
  if !s.releasable t || s.fixedRun || !s.onGrid t i then s
  else if tableErr then s.schedFault 2
  else
    let s := s.releaseAt t i
    if s.madeLate t i then s.schedFault 1 else s

/-- A task that was released and has not started is not run (R211). -/
def dropUnstarted (t i : Nat) (s : State) : State :=
  let x := s.task t
  if (x.phase = .copyIn ∨ x.phase = .ready) ∧ x.releaseTick < i then
    let s := s.dropXfer t
    ((s.modTask t fun x => { x with phase := .idle }).skipRelease t).dispatchCore (s.lcore t)
  else s

/-- The grid ticks of a task after the last one seen, up to tick `i`. -/
def dueCount (s : State) (t i : Nat) : Nat :=
  let x := max (s.task t).seenTick (tickOf s.cyc.runFrom)
  let g := nextGrid (s.period t) (s.taskPhase t) x
  if i < g then 0 else (i - g) / max 1 (s.period t) + 1

/-- A frame starts at the present tick: fixed-period execution begins, or goes on with the tasks that are due, each late
release of them a scheduler fault (R210, R211). -/
def frameStart (s : State) : State :=
  let i := tickOf s.now
  let s :=
    match s.cyc.fixedDue with
    | some c => if s.mode = 1 ∧ i % s.shortestPeriod = 0 then s.enterFixed c else s
    | none => s
  if s.mode ≠ 1 ∨ !s.fixedRun ∨ i % max 1 (s.reg R.CYC_FRAME).toNat ≠ 0 then s
  else
    let due := (List.range 32).filter fun t => s.releasable t && s.dueCount t i != 0
    let s := (List.range 32).foldl (fun s t => s.dropUnstarted t i) s
    let s := due.foldl (fun s t =>
      let s := forNat (s.dueCount t i - 1) (fun _ s => s.skipRelease t) s
      if s.releasable t then s.releaseAt t i else s) s
    forNat (due.countP fun t => s.madeLate t i) (fun _ s => s.schedFault 1) s

/-! ### Copies (R199 to R201, R204) -/

/-- A segment bound to a task has not completed the input phase of the boundary that released it (R50, R65). -/
def inputOpen (s : State) (t : Nat) : Bool :=
  (List.range 20).any fun k =>
    s.boundTask k == some t && (s.seg k).phase == .input && decide ((s.seg k).boundary ≤ (s.task t).release)

/-- The head transfer, a copy-in, completes once the input phases that it waits for have (R65, R199, R202, R219). -/
def copyInDone (s : State) : State :=
  match s.cyc.xfer with
  | (t, false) :: _ =>
    if s.inputOpen t then s
    else
      let ix := s.inIndices t
      let s := s.copyInto (s.inSection t) ix
      let s := s.forceInputs (s.inSection t) ix
      let s := s.modTask t fun x => { x with phase := .ready }
      (s.popXfer).dispatchCore (s.lcore t)
  | _ => s

/-- The first boundary of a task at or after an instant. -/
def boundaryFrom (s : State) (t : Nat) (x : Instant) : Instant :=
  let k := tickOf x
  s.nextRelease t (if tickAt k = x then k - 1 else k)

/-- The head transfer, a copy-out, completes: section, plans, forces, and the boundary that stages it (R200, R201, R204,
R314). -/
def copyOutDone (s : State) : State :=
  match s.cyc.xfer with
  | (t, true) :: _ =>
    let s := s.checkOverrun t
    if (s.task t).phase ≠ .copyOut then s
    else
      let ix := s.outIndices t
      let s := s.copyOutOf (s.outSection t) ix
      let s := s.applyPlans t
      let s := s.forceOutputs ix
      let x := s.task t
      let us := satTo 32 ((s.raw - x.releaseRaw) / 250)
      let met := !x.overran
      let stage := if x.noStage then none
        else if met then some x.boundary else some (s.boundaryFrom t (s.now + s.stageLead t))
      let s := s.setReg (R.CYC_EXEC_LAST t) (BitVec.ofNat 32 us)
      let s := s.regMax (R.CYC_EXEC_MAX t) us
      let s := s.setTask t { x with
        phase := .idle, copiedOut := some s.now, stageFor := stage, lastDone := s.cycleNo t, noStage := false,
        faults := 0, overruns := if met then 0 else x.overruns, draining := false }
      (s.popXfer).dispatchCore (s.lcore t)
  | _ => s

/-- A cycle is stopped at release + WDOG ticks (R207). [DEDUCED, log entry 62] -/
def watchdogExpiry (t : Nat) (s : State) : State :=
  let x := s.task t
  if s.inside t ∧ tickAt (x.releaseTick + s.wdogTicks t) ≤ s.now then
    (s.raise srcCyc Ev.CYC_WATCHDOG t (satTo 32 ((s.raw - x.releaseRaw) / 250))).taskFault t 2
  else s

/-- The last cycle begun before a mode change has ended (R214). -/
def drainEnd (s : State) : State := if s.isDraining ∧ s.drainingTasks.isEmpty then s.endDrain else s

/-! ### Online change (R225 to R229) -/

/-- One operation of a change map on the data area (R238, R239). -/
def runOp (base : Nat) (new : List Byte) (o : MapOp) (s : State) : State :=
  match o.op with
  | 1 => s.setBytes (base + o.dst) (s.bytesAt (base + o.src) o.n)
  | 2 =>
    let f := typeSize o.fromTy
    let t := typeSize o.toTy
    let vals := (List.range o.n).map fun i => convertValue o.fromTy o.toTy (s.numAt (base + o.src + f * i) f)
    s.setBytes (base + o.dst) (vals.map (leBytes t)).flatten
  | 3 => s.setBytes (base + o.dst) (slice new (hInitOff new + o.src) o.n)
  | _ => s.setBytes (base + o.dst) (zeros o.n)

/-- A force is in conflict with a symbol table: its symbol is absent, or has another type (R224). -/
def forceConflict (ys : List Sym) (f : Force) : Bool :=
  match ys.find? (·.id == f.id) with
  | some y => y.type != f.type.toNat
  | none => true

/-- The code half that the running program does not use (R223). -/
def otherHalf (s : State) : Nat := if s.regBit R.CYC_MODE 4 then 0 else 1

/-- Step 3 of a full change: the new half, task table, types, identity and M3; bindings follow (R226, R235, R309).
[DESIGN CHOICE, log entry 132] -/
def installChange (half : Nat) (img : List Byte) (s : State) : State :=
  let before := (List.range 32).filter s.taskEnabled
  let base := halfBase half + hCodeOff img
  let outs := s.outEntries
  let old := (s.cyc.prog.map (·.image)).getD []
  let s := (s.installTable img base).installIds img half
  let s := ((s.installTypes old img).installOuts outs).resetSigs (keepsEntry old img)
  let s := { s with cyc := { s.cyc with prog := some { image := img, codeBase := base } } }
  let i := tickOf s.now
  let s := (List.range 32).foldl (fun s t =>
    if before.contains t then s else s.setTask t { TaskSt.empty with seenTick := i }) s
  let s := ((List.range 32).filter fun t => !before.contains t).foldl (fun s t =>
    s.setReg64 (R.CYC_CYCLE_LO t) (R.CYC_CYCLE_HI t) 0) s
  (((s.extendMeas 3 img).showFrame.rebind).rebindDescs).offlineSegs

/-- Step 4 for a carried force: an output force is in the signal's new entry (R220, R228). -/
def carryForce (ys : List Sym) (f : Force) (s : State) : State :=
  match ys.find? (·.id == f.id) with
  | some y => if y.kind = 2 ∨ y.kind = 3 then s.writeForce (s.entryAddr y.loc) f false else s
  | none => s

/-- 256-byte granules of an area, by number (R514). -/
def granulesOf (a : Nat × Nat) : List Nat := (List.range ((a.1 % 256 + a.2 + 255) / 256)).map fun i => a.1 / 256 + i

/-- The data moves of a change: the bytes each reads and those it writes, as offsets of the data area. -/
def changeMoves (ch : Change) : List (Nat × (Nat × Nat)) :=
  if ch.values then
    ((splitValues (fieldAt ch.body 12 4) (ch.body.drop 16)).getD []).map fun x => (x.2.length, (x.1, x.2.length))
  else (mapOps ch.body).map fun o => (o.reads.2, o.writes)

/-- The least and the greatest duration of steps 2 to 4 in µs: 32-byte beats and 4 cycles an operation at CK_CORE, and
the bound of R227. [DESIGN CHOICE, log entry 65] -/
def switchBounds (ch : Change) (inDdr : Bool) : Nat × Nat :=
  let moves := changeMoves ch
  let len := moves.foldl (fun n x => n + max x.1 x.2.2) 0
  let cycles := moves.foldl (fun n x => n + (max x.1 x.2.2 + 31) / 32 + 4) 0
  let lo := cycles * 5 / 4000
  (lo, max lo (if inDdr then (2 * len + 25599) / 25600 + 330 else 1000))

/-- The granules of the data area that a change writes go with the next state copy (R524). -/
def switchGranules (base : Nat) (ch : Change) (s : State) : State :=
  if s.role = 1 then
    let gs := (changeMoves ch).flatMap fun x => granulesOf (base + x.2.1, x.2.2)
    { s with red := { s.red with taskDirty := tput s.red.taskDirty 32 (((tget s.red.taskDirty 32).getD []) ++ gs) } }
  else s

/-- The switch of a change, steps 1 to 5 of R226. [DESIGN CHOICE, log entry 65] -/
def changeSwitch (s : State) : State :=
  match s.cyc.change with
  | none => s
  | some ch =>
    if s.changeState ≠ 2 ∨ (List.range 32).any s.inside then s
    else
      let old := s.cyc.prog
      let base := (old.map fun p => hDataBase p.image).getD 0
      let s := if ch.values then s.writeItems base ((splitValues (fieldAt ch.body 12 4) (ch.body.drop 16)).getD [])
        else ((mapOps ch.body).foldl (fun s o => s.runOp base ch.image o) s).installChange s.otherHalf ch.image
      let s := s.switchGranules base ch
      let bad := if ch.values then [] else s.cyc.forces.filter (forceConflict (symbols ch.image))
      let s := { s with cyc := { s.cyc with forces := s.cyc.forces.filter fun f => !bad.contains f } }
      let s := bad.foldl (fun s f => s.raise srcCyc Ev.CYC_FORCE_RELEASED f.id 1) s
      let s := if ch.values then s else s.cyc.forces.foldl (fun s f => s.carryForce (symbols ch.image) f) s
      let (d, s) := s.draw 24
      let (lo, hi) := switchBounds ch (decide (0x1000000000 ≤ base))
      let us := lo + d % (hi + 1 - lo)
      let held := s.cyc.delayed.countP fun x => s.releasable x.1
      let s := s.setReg R.CYC_CHANGE_STATUS (BitVec.ofNat 32 0)
      let s := s.setReg R.CYC_LAST_SWITCH (BitVec.ofNat 32 (us + 0x10000 * satTo 16 held))
      let slot := s.nvNext.activeSlot
      let active := (s.cyc.store.filter fun j => !j.values).getLast?.elim slot (·.slot)
      let job : StoreJob := if ch.values then ⟨active, true, ch.body⟩ else ⟨1 - active, false, ch.image⟩
      let ts := s.delayedInOrder
      let s := { s with cyc := { s.cyc with change := none, store := s.cyc.store ++ [job], delayed := [] } }
      let s := ts.foldl (fun s x => if s.releasable x.1 then s.release x.1 x.2 else s) s
      (s.raise srcCyc Ev.CYC_CHANGE_DONE (if ch.values then 1 else 0) us).notify 23

/-- The switch point has not come in time (R229). [DEDUCED, log entry 68] -/
def changeTimeout (s : State) : State :=
  match s.cyc.change with
  | some ch =>
    if s.changeState = 2 ∧ ch.waitFrom + rawUs (1000 * s.regField R.CYC_CHANGE_WAIT_MAX 15 0) ≤ s.raw then
      s.abandonChange .changeTimeout
    else s
  | none => s

end State

/-! ### Rows -/

/-- TASK_RELEASE: the release of task `t` at the present tick; `tableErr` tells of a double-bit error in the release
table (R190, R205, R210). -/
def execTaskRelease (t : Fin 32) (tableErr : Bool) (s : State) : Res := .next (s.taskRelease t tableErr)
/-- COPY_IN_DONE (R199). -/
def execCopyInDone (s : State) : Res := .next s.copyInDone
/-- COPY_OUT_DONE (R200, R314). -/
def execCopyOutDone (s : State) : Res := .next s.copyOutDone
/-- TASK_WATCHDOG_EXPIRY (R207). -/
def execTaskWatchdogExpiry (t : Fin 32) (s : State) : Res := .next (s.watchdogExpiry t)
/-- FIXED_FRAME_START (R211). -/
def execFixedFrameStart (s : State) : Res := .next s.frameStart
/-- MODE_DRAIN_END (R214). -/
def execModeDrainEnd (s : State) : Res := .next s.drainEnd
/-- CHANGE_SWITCH (R226). -/
def execChangeSwitch (s : State) : Res := .next (s.changeSwitch).solvShow
/-- CHANGE_WAIT_TIMEOUT (R229). -/
def execChangeWaitTimeout (s : State) : Res := .next s.changeTimeout
/-- STORE_UPDATE_DONE (R232). -/
def execStoreUpdateDone (s : State) : Res := .next s.storeDone

end Sys2Proof.Machine
end

