-- ==== Sys2Proof/Machine/Health.lean ====
section
/-! DEFINITION. Sensors, the ledger, bring-ins, scrubbing, performance counters and bandwidth windows (spec 17). -/

namespace Sys2Proof.Machine

/-! ### Sensors and the ledger -/

/-- The switched domain of a sensor, where it has one (R591). -/
def sensorDomain (n : Nat) : Option Nat :=
  if n < 9 then some 0 else if n < 18 then some 1 else if n < 22 then some (n - 16)
  else match n with | 23 => some 0 | 24 => some 1 | 25 => some 2 | 26 => some 3 | 27 => some 4 | 28 => some 5 | 29 => some 6
                    | _ => none

namespace State

/-- A sensor's domain is ON, or it needs none. -/
def sensorOn (s : State) (n : Nat) : Bool := match sensorDomain n with | some k => s.domOn k | none => true

/-- Sensor `n` is published: VALUE, EXTREME and the sample's seconds. [DESIGN CHOICE, log entry 129] -/
def publishSensor (n : Nat) (v : Int) (s : State) : State :=
  let s := s.setReg (R.HLT_SENSOR_HI n) (BitVec.ofNat 32 s.nowSec)
  if !s.sensorOn n then s.setRegField (R.HLT_SENSOR_LO n) 15 0 0x8000
  else
    let ext := toSigned 16 (s.regField (R.HLT_SENSOR_LO n) 31 16)
    let (f, s) := if n = 31 then s.draw 12 else (0, s)
    let new := if n = 31 then (if f % 2 = 0 then ext else v) else max ext v
    s.setReg (R.HLT_SENSOR_LO n) (BitVec.ofNat 32 (ofSigned 16 v + 2 ^ 16 * ofSigned 16 new))

/-- A sensor of a core reaches HLT.CORE_RETIRE (R592). -/
def checkRetire (n : Nat) (v : Int) (s : State) : State :=
  if n < 18 ∧ s.sensorOn n ∧ (s.reg R.HLT_CORE_RETIRE).toNat ≤ v then s.retireDue n 1 else s

/-- The hottest valid junction temperature in 0.1 °C; 110 °C when none is valid (R587). -/
def hottest (s : State) : Int :=
  ((List.range 8).foldl (fun (m : Option Int) i =>
    let w := s.regField (R.HLT_SENSOR_LO (23 + i)) 15 0
    if w = 0x8000 ∨ !s.sensorOn (23 + i) then m
    else
      let v := toSigned 16 w
      match m with | some x => some (max x v) | none => some v) none).getD 1100

/-- One second of equivalent time (R587). -/
def equivTick (s : State) : State :=
  if s.raw < s.hlt.tickRaw + State.rawUs 1000000 then s
  else
    let l := s.hlt.ledger
    let old := (s.reg R.HLT_LIFE_USED).toNat
    let l := { l with equiv := l.equiv + Config.accel s.hottest, powered := l.powered + 1 }
    let s := { s with hlt := { s.hlt with ledger := l, tickRaw := s.hlt.tickRaw + State.rawUs 1000000 } }.hltShow
    let new := (s.reg R.HLT_LIFE_USED).toNat
    if old / 500 < new / 500 then s.raise srcSup Ev.HLT_LEDGER new 0 else s

/-- The self-test of a spare core (R592): a spare that fails is retired without entering service (R590). The test of a
core in service runs at start-up. -/
def selfTest (phys : Nat) (pass : Bool) (s : State) : State :=
  match s.logicalOf phys with
  | some _ => if s.phase < 5 ∧ !pass then s.retireDue phys 3 else s
  | none =>
    if s.hlt.maps.retired.contains phys ∨ pass ∨ phys ≠ spareCore (coreCluster phys) then s
    else
      let m := s.hlt.maps
      let before := (reserveOf m.used).1
      let m := { m with used := modNth (fun gs => modNth (· + 1) gs (coreCluster phys)) m.used 0, retired := phys :: m.retired }
      let s := ({ s with hlt := { s.hlt with maps := m } }.hltShow).ledgerWrite
      if (reserveOf m.used).1 < before then s.raise srcSup Ev.HLT_RESERVE (s.reg R.HLT_RESERVE).toNat 0 else s

/-! ### Bring-ins -/

/-- The due entry for the core behind a logical core. -/
def dueFor (s : State) (l : Nat) : Option CoreDue := s.hlt.due.find? fun d => d.phys == (s.core l).phys

/-- No task bound to a logical core is inside its cycle (R593). -/
def coreGap (s : State) (l : Nat) : Bool := (List.range 32).all fun t => !(s.lcore t == l && s.inside t)

/-- An attempt for a due core is under way. [DEDUCED, log entry 138] -/
def tried (s : State) (d : CoreDue) : Bool := (d.commanded || s.regBit R.HLT_CTRL 1) && d.retryAt.isNone

/-- An earlier bring-in of the same cluster comes first (R599). [DEDUCED, log entry 138] -/
def dueAhead (s : State) (d : CoreDue) : Bool :=
  (s.hlt.due.takeWhile (· != d)).any fun x => coreCluster x.phys == coreCluster d.phys && s.tried x

/-- The spare takes over a logical core (R593 to R595, R599). -/
def coreBringIn (l : Nat) (s : State) : State :=
  match s.dueFor l with
  | none => s
  | some d =>
    if !s.tried d ∨ s.dueAhead d ∨ !s.coreGap l ∨ s.changeState = 2 ∨ s.changeState = 3 ∨ !s.domOn (coreDomain l) then s
    else
      let c := coreCluster d.phys
      let s := { s with hlt := { s.hlt with due := s.hlt.due.filter (· != d) } }
      if !s.spareLeft 0 c then
        { s with hlt := { s.hlt with noSpare := d.phys :: s.hlt.noSpare,
                                     dead := if d.failed then l :: s.hlt.dead else s.hlt.dead } }.noSpare 0 c d.phys
      else
        let s := s.setCore l (CoreSt.empty (spareCore c))
        let m := s.hlt.maps
        let s := { s with hlt := { s.hlt with maps := { m with retired := d.phys :: m.retired } } }
        s.spared 0 c d.phys

/-- No gap came within 1 s: the attempt is abandoned for 60 s (R594). [DEDUCED, log entry 138] -/
def bringInWait (l : Nat) (s : State) : State :=
  match s.dueFor l with
  | none => s
  | some d =>
    if !s.tried d ∨ s.raw < d.since + State.rawUs 1000000 ∨ s.changeState = 2 ∨ s.changeState = 3 ∨
        !s.domOn (coreDomain l) then s
    else
      let d' := { d with retryAt := some (s.raw + State.rawUs 60000000) }
      { s with hlt := { s.hlt with due := s.hlt.due.map fun x => if x = d then d' else x } }.raise srcSup
        Ev.HLT_BRING_IN_WAIT l 0

/-- The 60 s retry comes due (R594). -/
def bringInRetry (l : Nat) (s : State) : State :=
  match s.dueFor l with
  | none => s
  | some d =>
    match d.retryAt with
    | none => s
    | some t =>
      if s.raw < t then s
      else
        let d' := { d with retryAt := none, since := s.raw }
        { s with hlt := { s.hlt with due := s.hlt.due.map fun x => if x = d then d' else x } }

/-- The first due row is copied to a spare of its group (R596). A memory whose domain is off keeps its row due. -/
def rowBringIn (s : State) : State :=
  match s.hlt.rows with
  | [] => s
  | r :: rest =>
    if r.kind = 5 ∧ !s.domOn (2 + r.group) then s
    else
      let s := { s with hlt := { s.hlt with rows := rest } }
      if s.spareLeft r.kind r.group then s.spared r.kind r.group r.addr else s.noSpare r.kind r.group r.addr

/-! ### Scrubbing (R601) -/

/-- A scrubbed memory is on: solver local memory follows its engine's domain, DDR its own. -/
def scrubs (s : State) (addr : Nat) : Bool :=
  match eccMemory addr with
  | none => false
  | some m => if m = 7 then s.domOn 10 && s.regBit R.SYS_MEMCFG 16 else if 3 ≤ m then s.domOn (m - 1) else true

/-- A pass over the SRAMs, or over DDR, with the words newly found correctable and uncorrectable; it also meets the errors
that upsets and earlier passes left. Each corrected word is written back (R27). [DESIGN CHOICE, log entry 139] -/
def scrubPass (ddr : Bool) (corr uncorr : List Nat) (s : State) : State :=
  let mine (a : Nat) : Bool := s.scrubs a && (eccMemory a == some 7) == ddr
  let word (a : Nat) : Nat := a / 8 * 8
  let bad := ((uncorr.map word ++ s.poison).filter mine).eraseDups
  let good := ((corr.map word ++ s.weak).filter fun a => mine a && !bad.contains a).eraseDups
  let s' := { s with weak := s.weak.filter fun a => !mine a, poison := bad ++ s.poison.filter fun a => !bad.contains a }
  let s' := good.foldl (fun s a => s.eccCorrect (!ddr) a) s'
  let s' := bad.foldl (fun s a => s.eccUncorrectable a) s'
  let words := (s.hlt.scrubbed.filter fun a => !s.scrubs a) ++ good
  let s' := if ddr then s' else { s' with hlt := { s'.hlt with scrubbed := words } }
  if ddr then s' else s'.bump R.HLT_SCRUB_PASSES 1

/-! ### Counters and windows -/

/-- A counter whose events the model does not count one by one wraps (R603). -/
def perfWrap (i : Nat) (s : State) : State :=
  let s := s.perfSync
  if perfExact (s.regField (R.HLT_PERF_SEL i) 7 0) || s.regBit (R.HLT_PERF_SEL i) 13 || !s.perfRuns then s
  else s.perfAdd 64 i (2 ^ 48 - nth 0 s.hlt.perf i)

/-- The number of the bandwidth window that holds an instant. -/
def bwIndex (s : State) : Nat := s.now * 1000 / (max 1 s.hlt.bwLen * 2 ^ 32)

/-- A bandwidth window has ended: its counts replace the held values (R606). -/
def bwEnd (s : State) : State :=
  if s.bwIndex ≤ s.hlt.bwIx then s
  else
    let p := s.hlt.bwPartial
    let s' := (List.range 21).foldl (fun st i =>
      (st.setReg64 (R.HLT_BW_RX_LO i) (R.HLT_BW_RX_HI i) (if p then 0 else nth 0 s.hlt.bwRx i)).setReg64
        (R.HLT_BW_TX_LO i) (R.HLT_BW_TX_HI i) (if p then 0 else nth 0 s.hlt.bwTx i)) s
    let n := (s.regField R.HLT_BW_SEQ 30 0 + 1) % 2 ^ 31
    let s' := s'.setReg R.HLT_BW_SEQ (BitVec.ofNat 32 (n + if p then 2 ^ 31 else 0))
    let s' := { s' with hlt := { s'.hlt with
      bwHeld := (s.hlt.bwIx, s.hlt.bwLen), bwRx := List.replicate 21 0, bwTx := List.replicate 21 0,
      bwLen := max 1 (s.reg R.HLT_BW_WINDOW).toNat, bwPartial := !s.domOn 6 } }
    { s' with hlt := { s'.hlt with bwIx := s'.bwIndex } }

end State

/-! ### Rows -/

/-- SENSOR_SAMPLE: every 100 ms (R591). -/
def execSensorSample (v : List Int) (s : State) : Res :=
  .next <|
    if s.raw < s.hlt.sampleRaw + State.rawUs 100000 then s
    else
      let s := { s with hlt := { s.hlt with sampleRaw := s.raw } }
      ((List.range 32).foldl (fun s n => (s.publishSensor n (nth 0 v n)).checkRetire n (nth 0 v n)) s).alertUpdate

/-- EQUIV_TIME_TICK. -/
def execEquivTimeTick (s : State) : Res := .next s.equivTick

/-- LEDGER_WRITE: every 3,600 s. -/
def execLedgerWrite (s : State) : Res :=
  .next <| if s.raw < s.hlt.ledgerRaw + State.rawUs 3600000000 then s else s.ledgerWrite

/-- SPARE_SELF_TEST. -/
def execSpareSelfTest (phys : Fin 18) (pass : Bool) (s : State) : Res := .next (s.selfTest phys pass)

/-- CORE_BRING_IN. -/
def execCoreBringIn (l : Fin 16) (s : State) : Res := .next (s.coreBringIn l)

/-- CORE_BRING_IN_WAIT. -/
def execCoreBringInWait (l : Fin 16) (s : State) : Res := .next (s.bringInWait l)

/-- CORE_BRING_IN_RETRY. -/
def execCoreBringInRetry (l : Fin 16) (s : State) : Res := .next (s.bringInRetry l)

/-- ROW_BRING_IN. -/
def execRowBringIn (s : State) : Res := .next s.rowBringIn

/-- SCRUB_PASS. -/
def execScrubPass (ddr : Bool) (corr uncorr : List Nat) (s : State) : Res := .next (s.scrubPass ddr corr uncorr)

/-- PERF_COUNTER_WRAP. -/
def execPerfCounterWrap (i : Fin 64) (s : State) : Res := .next (s.perfWrap i)

/-- BANDWIDTH_WINDOW_END. -/
def execBandwidthWindowEnd (s : State) : Res := .next s.bwEnd

end Sys2Proof.Machine
end

