-- ==== Sys2Proof/Machine/MetOps.lean ====
section
/-! DEFINITION. The metering engine's shared operations: the Pewter store's records, windows and closing records,
increments of meters and sets, pulse dividers, save and restore (spec 10). -/

namespace Sys2Proof.Machine

/-! ### The Pewter store (R392) -/

/-- Copy `c` of the store header. -/
def metHdr (c : Nat) : Nat := 0x3100000 + 0x200 * c
/-- Save slot A or B. -/
def metSlot (i : Nat) : Nat := if i = 0 then 0x3100400 else 0x3105400
/-- Copy `c` of the record of metering channel `n`. -/
def metRec (n c : Nat) : Nat := (if n < 2048 then 0x310A400 + 160 * n else 0x315A400 + 160 * (n - 2048)) + 80 * c
/-- The closing record of metering channel `n`, and its size. -/
def metClose (n : Nat) : Nat := if n < 2048 then 0x315B800 + 64 * n else 0x317B800 + 128 * (n - 2048)
def closeLen (n : Nat) : Nat := if n < 2048 then 64 else 128
/-- The demand record of a set. -/
def metDemand (i : Nat) : Nat := 0x317C800 + 64 * i

/-- Bytes with the CRC-16 of the rest, computed with its field zero, at an offset (R392). -/
def withCrc16 (off : Nat) (bs : List Byte) : List Byte :=
  bs.take off ++ leBytes 2 (crc16 (bs.take off ++ zeros 2 ++ bs.drop (off + 2))).toNat ++ bs.drop (off + 2)

/-- The CRC-16 at an offset is right. -/
def crc16Ok (off : Nat) (bs : List Byte) : Bool := withCrc16 off bs == bs

/-- Registers as bytes, two's complement of 64 bits each. -/
def regBytes (rs : List Int) : List Byte := (rs.map fun x => leBytes 8 (ofSigned 64 x)).flatten

/-- The newest of two copies (R394): the valid one, or the one whose count is one more; copy 0 where neither decides. -/
def newestCopy (ok0 ok1 : Bool) (c0 c1 : Nat) : Nat :=
  if ok0 && ok1 then (if (c0 + 1) % 256 = c1 then 1 else 0) else if ok1 then 1 else 0

/-- The first instant after `t` whose seconds agree with `off` modulo `p` (R402), in seconds. -/
def gridNext (p off t : Nat) : Nat := t + 1 + (off % p + p - (t + 1) % p) % p

/-- Inserts into a list in rising order without repeats. -/
def insertSorted (n : Nat) : List Nat → List Nat
  | [] => [n]
  | x :: xs => if n < x then n :: x :: xs else if n = x then x :: xs else x :: insertSorted n xs

namespace MetCh

/-- The remainder of register `r`: accumulator less written total (R386). -/
def rem (c : MetCh) (r : Nat) : Int := nth 0 c.acc r - nth 0 c.tot r

/-- The written totals of a record (R386): volume and counter registers of a meter carry no remainder. -/
def written (n : Nat) (c : MetCh) : List Int := if n < 2048 then c.tot.take 4 ++ c.acc.drop 4 else c.tot

/-- Adds energy to register `r`: a pending register of the same group is flushed first, and a remainder of T or more
spills (R386, R387). The second component tells whether a record write is due. -/
def addEnergy (grp : List Nat) (t r : Nat) (x : Int) (p : MetCh × Bool) : MetCh × Bool :=
  if x = 0 then p
  else
    let (c, due) := p
    let tot1 := c.tot.mapIdx fun j v => if grp.contains j && j != r then nth 0 c.acc j else v
    let acc1 := modNth (· + x) c.acc r
    let rem := nth 0 acc1 r - nth 0 tot1 r
    let k : Int := (rem.natAbs / t * t : Nat)
    let spill := if rem < 0 then -k else k
    ({ c with acc := acc1, tot := modNth (· + spill) tot1 r }, due || tot1 != c.tot || spill != 0)

/-- The pending registers of a group other than `r` are flushed (R387). [DEDUCED, log entry 136] -/
def settle (grp : List Nat) (r : Nat) (p : MetCh × Bool) : MetCh × Bool :=
  let (c, due) := p
  let tot := c.tot.mapIdx fun j v => if grp.contains j && j != r then nth 0 c.acc j else v
  ({ c with tot := tot }, due || tot != c.tot)

/-- Flushes every remainder (R387, R409). -/
def flush (c : MetCh) : MetCh := { c with tot := c.acc }

end MetCh

namespace State

/-- Changes the metering engine's state. -/
def modMet (f : MetSt → MetSt) (s : State) : State := { s with met := f s.met }

def metCh (s : State) (n : Nat) : MetCh := (tget s.met.chs n).getD MetCh.empty
def setMetCh (n : Nat) (c : MetCh) (s : State) : State := { s with met := { s.met with chs := tput s.met.chs n c } }
def modMetCh (n : Nat) (f : MetCh → MetCh) (s : State) : State := s.setMetCh n (f (s.metCh n))

/-- The configuration that commands have set. -/
def metCfg (s : State) : MetCfg := s.nvNext.met
def meterCfg (s : State) (m : Nat) : Option MeterCfg :=
  match tget s.metCfg.meters m with
  | some c => if c.mode = 0 then none else some c
  | none => none
def setCfg (s : State) (i : Nat) : Option SetCfg :=
  match tget s.met.sets i with
  | some c => if c.enable then some c else none
  | none => none

/-- T of a metering channel: 2^20 by default (R390). -/
def metT (s : State) (n : Nat) : Nat :=
  if n < 2048 then ((tget s.metCfg.meters n).map (·.t)).getD (2 ^ 20)
  else ((tget s.metCfg.sets (n - 2048)).map (·.t)).getD (2 ^ 20)

/-- Metering counts: an epoch is open, nothing is frozen, and PD_MET is ON. -/
def metRuns (s : State) : Bool := s.met.epoch.isSome && !s.met.frozen && s.domOn 8

/-! ### Records -/

/-- The record copies of a channel and which is the newest (R394). -/
def recCopy (s : State) (n c : Nat) : List Byte := s.bytesAt (metRec n c) 80
def recNewest (s : State) (n : Nat) : Nat :=
  let r0 := s.recCopy n 0
  let r1 := s.recCopy n 1
  newestCopy (crc16Ok 2 r0) (crc16Ok 2 r1) (fieldAt r0 1 1) (fieldAt r1 1 1)

/-- Starts the record write of a channel (R386, R388, R389, R394). -/
def startRecord (n : Nat) (s : State) : State :=
  let k := s.recNewest n
  let c := s.metCh n
  let tot := c.written n
  let bytes := withCrc16 2 (leBytes 1 c.flags.toNat ++ leBytes 1 (fieldAt (s.recCopy n k) 1 1 + 1) ++ zeros 2 ++
    leBytes 4 c.bound ++ regBytes tot ++ leBytes 8 s.nowSec)
  (s.setMetCh n { c with tot := tot, cntF := 0, cntR := 0, writing := some (1 - k, bytes) }).bump R.MET_SPILL_WRITES 1

/-- Completes the record write in flight of a channel. -/
def endRecord (n : Nat) (s : State) : State :=
  match (s.metCh n).writing with
  | none => s
  | some (c, bytes) => (s.modMetCh n fun x => { x with writing := none }).setBytes (metRec n c) bytes

/-! ### Windows (R402 to R407) -/

/-- The end of the window after the one that ends at `b`, in seconds; 0 without a grid. The configured grid holds from
the end of the open window on (R407). -/
def endAfter (s : State) (b : Nat) : Nat :=
  match s.met.ends.find? fun e => decide (b < e.1) with
  | some e => e.1
  | none => match s.metCfg.tariff with | some g => gridNext g.pw g.off b | none => 0

/-- The window that ends at `b` is a transition window (R407). -/
def isTransition (s : State) (b : Nat) : Bool :=
  match s.met.ends.find? fun e => e.1 == b with
  | some e => e.2
  | none =>
    match s.met.grid, s.metCfg.tariff with
    | some g, some h => g.pw != h.pw || g.off != h.off
    | _, _ => false

/-- The end of the demand window after `b` (R402): the grid in force until the open window ends, then the configured
one. -/
def demandAfter (s : State) (b : Nat) : Nat :=
  let last := (s.met.ends.getLast?.map (·.1)).getD 0
  match (if b < last then s.met.grid else s.metCfg.tariff) with
  | some g => gridNext g.pd g.off b
  | none => 0

/-- The end of the open window, or 0. -/
def openEnd (s : State) : Nat := (s.met.ends.getLast?.map (·.1)).getD 0

/-- Shows the end of the open window and the waiting closing records. -/
def metShow (s : State) : State :=
  ((s.setReg64 R.MET_WINDOW_END_LO R.MET_WINDOW_END_HI s.openEnd).setReg R.MET_CLOSE_QUEUE
    (BitVec.ofNat 32 s.met.closeQ.length))

/-- Opens a channel's window at a start or restart: the window that lies open now (R404, R406). -/
def windowOpen (n : Nat) (s : State) : State :=
  let e := s.openEnd
  let from_ := match s.met.grid with | some g => if e = 0 then 0 else e - g.pw | none => 0
  s.modMetCh n fun c =>
    { c with winFrom := from_, winEnd := e, wflags := 0, fault := 0, clips := 0, high := 0, mark := s.now, demand := 0,
             demEnd := if e = 0 then 0 else s.demandAfter s.nowSec, demWhole := false }

/-- Latches the closing record of a channel's open window with the given register values, and opens the next window
(R396, R404). -/
def latchClosing (n : Nat) (regs : List Int) (incomplete : Bool) (s : State) : State :=
  let c := s.metCh n
  let fl := setBit (setBit (setBit c.wflags 0 (incomplete && decide (n < 2048))) 5 (s.isTransition c.winEnd)) 6
    (bit c.flags 0)
  let (secs, s) := s.roundFree 7 (c.fault : Int) (2 ^ 32)
  let bytes :=
    if n < 2048 then
      withCrc16 0x3E (leBytes 8 c.winEnd ++ regBytes (regs.take 6) ++ leBytes 4 (satTo 32 secs.toNat) ++ [fl] ++ zeros 3)
    else
      withCrc16 0x7E (leBytes 8 c.winEnd ++ regBytes regs ++ leBytes 4 c.high ++ leBytes 4 (satTo 32 c.clips) ++ [fl] ++
        zeros 47)
  let s := s.setMetCh n
    { c with winFrom := c.winEnd, winEnd := s.endAfter c.winEnd, wflags := 0, fault := 0, clips := 0, high := 0 }
  let s := { s with met := { s.met with snap := tput s.met.snap n bytes, closeQ := insertSorted n s.met.closeQ } }
  let s := s.metShow
  if incomplete then s.raise srcMet Ev.MET_CLOSE_INCOMPLETE n 0 else s

/-- Latches every window of a channel that an increment over (t0, t1] reaches: the closing values are the registers
before it and the rounded parts up to the boundary; fault time is split in the same way (R403, R404). -/
def closeReached (n : Nat) (t0 t1 : Instant) (before : List Int) (parts : List (Nat × Int)) (fault : Nat) :
    Nat → Nat → State → State × Nat
  | 0, done, s => (s, done)
  | fuel + 1, done, s =>
    let b := (s.metCh n).winEnd * 2 ^ 32
    if b = 0 ∨ t1 < b then (s, done)
    else
      let upto := max b t0 - t0
      let share (x : Int) : Int := Q.round ⟨x * upto, t1 - t0⟩
      let f := (share fault).toNat
      let regs := parts.foldl (fun l p => modNth (· + share p.2) l p.1) before
      let s := s.modMetCh n fun c => { c with fault := c.fault + (f - done) }
      closeReached n t0 t1 before parts fault fuel f (s.latchClosing n regs false)

/-- An increment that begins before the open window sets LATE, and GAP when metering was stopped in between
(R404, R406). -/
def markLate (n : Nat) (t0 : Instant) (s : State) : State :=
  s.modMetCh n fun c =>
    if t0 < c.winFrom * 2 ^ 32 then
      { c with wflags := setBit (setBit c.wflags 1 true) 2 (bit c.wflags 2 || decide (t0 < c.mark)) }
    else c

/-- Sets a flag of the open window for a point event (R403). -/
def windowFlag (n i : Nat) (s : State) : State := s.modMetCh n fun c => { c with wflags := setBit c.wflags i true }

/-! ### Pulse dividers (R391) -/

/-- Units of the register that make one pulse. -/
def pulseUnits (c : PulseCfg) : Nat := if c.src = 1 ∧ 4 ≤ c.reg then c.weight * 2 ^ 6 else c.weight * 2 ^ 10

/-- Starts the next waiting pulse of an output that is idle; outputs stay low while PD_FLD is off. -/
def startPulse (p : Nat) (s : State) : State :=
  match tget s.metCfg.pulses p, s.met.pulses[p]? with
  | some c, some x =>
    if x.phase = 0 ∧ 0 < x.waiting ∧ s.domOn 7 then
      { s with met := { s.met with pulses := modNth (fun y =>
        { y with phase := 1, waiting := y.waiting - 1, until_ := s.raw + rawUs (1000 * c.width) }) s.met.pulses p } }
    else s
  | _, _ => s

/-- An output's divider receives an increment of its register. -/
def pulseAdd (p : Nat) (c : PulseCfg) (x : Nat) (s : State) : State :=
  match s.met.pulses[p]? with
  | none => s
  | some y =>
    let u := pulseUnits c
    let n := (y.div + x) / u
    let room := 65535 - y.waiting
    let spill := decide (room < n)
    let s := { s with met := { s.met with pulses := modNth (fun y =>
      { y with div := (y.div + x) % u, waiting := y.waiting + min n room, logged := y.logged || spill }) s.met.pulses p } }
    let s := if spill then s.setRegBit R.MET_PULSE_OVERFLOW p true else s
    let s := if spill && !y.logged then s.raise srcMet Ev.MET_PULSE_OVERFLOW p 0 else s
    s.startPulse p

/-- Increments of a channel's registers go to every output bound to them. -/
def pulseFeed (n : Nat) (parts : List (Nat × Int)) (s : State) : State :=
  s.metCfg.pulses.foldl (fun s x =>
    let p := x.2
    let bound := if p.src = 1 then p.ix else if p.src = 2 then p.ix + 2048 else 9999
    if bound = n then
      parts.foldl (fun s y => if y.1 = p.reg ∧ 0 < y.2 then s.pulseAdd x.1 p y.2.toNat else s) s
    else s) s

/-! ### Virtual meters (R376 to R388) -/

/-- The linear interpolation of a user table at θ: enthalpy and density (R382, R385). -/
def tableAt (pts : List (Nat × Nat × Nat)) (x : Q) : Q × Q :=
  match pts with
  | (t0, h0, r0) :: (t1, h1, r1) :: rest =>
    let q (v : Nat) : Q := Q.ofFp fp32 v
    if rest.isEmpty || x.le (q t1) then
      let f := (x.sub (q t0)).div ((q t1).sub (q t0))
      ((q h0).add (f.mul ((q h1).sub (q h0))), (q r0).add (f.mul ((q r1).sub (q r0))))
    else tableAt ((t1, h1, r1) :: rest) x
  | _ => (Q.ofInt 0, Q.ofInt 0)

/-- Enthalpy in kJ/kg and density in kg/m³ of a meter's medium at a temperature (R382). -/
def mediumAt (s : State) (c : MeterCfg) (x : Nat) : Q × Q :=
  if c.medium = 0 then
    let p := (fpConvert fp32 fp64 0 c.pressure).bits
    (Q.ofFp fp64 (Config.waterEnthalpy p x), Q.ofFp fp64 (Config.waterDensity p x))
  else tableAt ((tget s.metCfg.tables c.medium).getD []) (Q.ofFp fp64 x)

/-- A temperature lies in the medium's range (R380). -/
def inRange (s : State) (c : MeterCfg) (x : Nat) : Bool :=
  let q := Q.ofFp fp64 x
  if c.medium = 0 then (Q.ofInt 2).le q && q.le (Q.ofInt 180)
  else
    match (tget s.metCfg.tables c.medium).bind (·.head?), (tget s.metCfg.tables c.medium).bind (·.getLast?) with
    | some a, some b => (Q.ofFp fp32 a.1).le q && q.le (Q.ofFp fp32 b.1)
    | _, _ => false

/-- A usable temperature with the meter's offset: finite and in range (R380). -/
def tempOf (s : State) (c : MeterCfg) (off : Nat) : Option Nat → Option Nat
  | none => none
  | some v =>
    let x := f64Add v (toF64 8 off)
    match fpDecode fp64 x with
    | .fin .. => if s.inRange c x then some x else none
    | _ => none

/-- The energy of Δ counts in 2^-20 Wh, rounded to the nearest, ties to even (R382). -/
def partEnergy (s : State) (c : MeterCfg) (delta m sup ret : Nat) : Int :=
  let dh := (s.mediumAt c sup).1.sub (s.mediumAt c ret).1
  let e := ((s.mediumAt c m).2.mul dh).mul ⟨(delta * c.countVol * 2 ^ 20 : Nat), 3600000000⟩
  e.round

/-- The energy register and amount of one part (R381, R383, R384): `dir` 0 forward, 1 reverse. -/
def energyPart (s : State) (c : MeterCfg) (dir delta thS thR : Nat) : List (Nat × Int) :=
  if delta = 0 then []
  else
    let swap := dir == 1 && bit c.flags 1
    let sup := if swap then thR else thS
    let ret := if swap then thS else thR
    let e := s.partEnergy c delta (if bit c.flags 2 then thS else thR) sup ret
    let d := (Q.ofFp fp64 sup).sub (Q.ofFp fp64 ret)
    let dmin := Q.ofFp fp32 c.dMin
    let net := bit c.flags 0
    let reg (kind : Nat) : Nat := 2 * kind + if net then 0 else dir
    let amt (x : Int) : Int := if net && dir == 1 then -x else x
    if c.mode % 2 = 1 ∧ dmin.le d then [(reg 0, amt e)]
    else if 2 ≤ c.mode ∧ dmin.le d.neg then [(reg 1, amt (-e))]
    else []

/-- The volume amounts of a sample (R379, R384). -/
def volumeParts (c : MeterCfg) (df dr : Nat) : List (Nat × Int) :=
  if bit c.flags 0 then [(4, ((df : Int) - dr) * 2 ^ 16)] else [(4, (df : Int) * 2 ^ 16), (5, (dr : Int) * 2 ^ 16)]

/-- Adds amounts to a meter's registers in order; the second component tells whether a record write is due. -/
def addMeter (t : Nat) (parts : List (Nat × Int)) (c : MetCh) : MetCh × Bool :=
  parts.foldl (fun p x =>
    if x.1 < 4 then MetCh.addEnergy [0, 1, 2, 3] t x.1 x.2 p
    else ({ p.1 with acc := modNth (· + x.2) p.1.acc x.1 }, p.2)) (c, false)

/-- Takes counters as the new baseline: registers 6 and 7 hold the counters last accepted (R384). -/
def rebase (n cf cr : Nat) (m : MeterSample) (s : State) : State :=
  s.modMetCh n fun c =>
    { c with base := some ⟨cf, cr, m.bits, m.time, 0⟩, acc := c.acc.take 6 ++ [(cf : Int), (cr : Int)] }

/-- One sample of a meter against its baseline (R377 to R388). [DEDUCED, log entry 82] -/
def meterSample (n : Nat) (c : MeterCfg) (m : MeterSample) (s : State) : State :=
  let ch := s.metCh n
  match m.fwd, (if c.rev = 0xFFFF then some 0 else m.rev) with
  | some cf, some cr =>
    let fresh := match ch.base with | none => true | some b => b.bits != m.bits
    let b := ch.base.getD ⟨cf, cr, m.bits, m.time, 0⟩
    if fresh then (s.closeReached n m.time m.time ch.acc [] 0 8 0).1.rebase n cf cr m
    else if m.time ≤ b.time ∧ b.step = 0 then s
    else
      let w := 2 ^ m.bits
      let span := ((m.time : Int) - (b.time : Int) - b.step).toNat
      let from_ := m.time - span
      let df := (cf + w - b.fwd) % w
      let dr := (cr + w - b.rev) % w
      let limit := c.maxRate * span + 2 ^ 32
      let jumpF := decide (limit < df * 2 ^ 32)
      let jump := jumpF || decide (limit < dr * 2 ^ 32)
      let good := match s.tempOf c c.offS m.sup, s.tempOf c c.offR m.ret with
        | some x, some y => some (x, y, m.time)
        | _, _ => none
      let s := match good with | some g => s.modMetCh n fun x => { x with pair := some g } | none => s
      let pair := match good with
        | some g => some g
        | none => match ch.pair with
          | some g => if m.time - g.2.2 ≤ c.age * 2 ^ 32 then some g else none
          | none => none
      let df' := if jump then 0 else df
      let dr' := if jump then 0 else dr
      let energy := match pair with
        | some g => s.energyPart c 0 df' g.1 g.2.1 ++ s.energyPart c 1 dr' g.1 g.2.1
        | none => []
      let parts := energy ++ volumeParts c df' dr'
      let fault := if pair.isSome then 0 else span
      let s := s.markLate n from_
      let (s, done) := s.closeReached n from_ m.time ch.acc parts fault 8 0
      let s := s.modMetCh n fun x => { x with fault := x.fault + (fault - done) }
      let s := if jump then
          ((s.windowFlag n 4).bump R.MET_COUNTER_JUMPS 1).raise srcMet Ev.MET_COUNTER_JUMP n (if jumpF then df else dr)
        else s
      let s := if c.gap * 2 ^ 32 < span then
          let (sec, s) := s.roundFree 8 (span : Int) (2 ^ 32)
          (s.windowFlag n 2).raise srcMet Ev.MET_GAP n sec.toNat
        else s
      let s := if pair.isNone then
          let logged := bit (s.metCh n).wflags 3
          let s := s.windowFlag n 3
          if logged then s else s.raise srcMet Ev.MET_SENSOR n 0
        else s
      let (x, due) := addMeter c.t parts (s.metCh n)
      let x := { x with cntF := x.cntF + df', cntR := x.cntR + dr' }
      let s := (s.setMetCh n x).rebase n cf cr m
      let s := s.pulseFeed n parts
      if due ∨ 524287 ≤ x.cntF ∨ 524287 ≤ x.cntR then s.startRecord n else s
  | _, _ => s

/-! ### Electric sets (R371 to R375, R408) -/

/-- The demand of an amount of energy over P_D, in W, FP32 (R408). -/
def demandOf (e : Int) (pd : Nat) : Nat := Q.toFp fp32 ⟨e * 3600, 2 ^ 20 * pd⟩

/-- The +A energy of a block over (t0, t1] goes to the demand windows it touches; an ended one raises the highest
demand of the window (R396, R408). -/
def demandAdd (n : Nat) (t0 t1 : Instant) (x : Int) (s : State) : State :=
  let c := s.metCh n
  let b := c.demEnd * 2 ^ 32
  if b = 0 ∨ t1 < b then s.setMetCh n { c with demand := c.demand + x }
  else
    let part := Q.round ⟨x * (max b t0 - t0), t1 - t0⟩
    let pd := (s.met.grid.map (·.pd)).getD 60
    let e := c.demand + part
    let w := demandOf e pd
    let high := if (fpCompare fp32 1 c.high w).1 then w else c.high
    s.setMetCh n
      { c with demand := x - part, demEnd := s.demandAfter c.demEnd, demWhole := true,
               demDone := c.demDone ++ [(c.demEnd - pd, e, c.demWhole)], high := if c.demWhole then high else c.high }

/-- One block of a set is added: energies by register, demand, closing values, and the record write that a flush or
spill makes (R373, R386, R387, R403); the apparent register follows the active one, whatever their amounts (R395).
[DEDUCED, log entry 136] -/
def setBlock (n t : Nat) (b : SetBlock) (s : State) : State :=
  let parts := [b.active, b.reactive, b.apparent]
  let before := (s.metCh n).acc
  let s := s.markLate n b.t0
  let s := if b.clipped then s.modMetCh n fun c => { c with clips := c.clips + 1, wflags := setBit c.wflags 7 true } else s
  let s := s.demandAdd n b.t0 b.t1 (if b.active.1 = 0 then b.active.2 else 0)
  let (s, _) := s.closeReached n b.t0 b.t1 before parts 0 8 0
  let p := MetCh.settle [6, 7] b.apparent.1 (MetCh.settle [0, 1] b.active.1 (s.metCh n, false))
  let (c, due) := MetCh.addEnergy [6, 7] t b.apparent.1 b.apparent.2 (MetCh.addEnergy [2, 3, 4, 5] t b.reactive.1 b.reactive.2
    (MetCh.addEnergy [0, 1] t b.active.1 b.active.2 p))
  let s := (s.setMetCh n c).pulseFeed n parts
  if due then s.startRecord n else s

/-- Adds the waiting increments of a channel while no record write of it is outstanding (R389). -/
def drainMet (n : Nat) : Nat → State → State
  | 0, s => s
  | fuel + 1, s =>
    let c := s.metCh n
    if c.writing.isSome then s
    else
      match c.samples, c.blocks with
      | m :: rest, _ =>
        let s := s.setMetCh n { c with samples := rest }
        drainMet n fuel (match s.meterCfg n with | some k => s.meterSample n k m | none => s)
      | [], b :: rest =>
        drainMet n fuel ((s.setMetCh n { c with blocks := rest }).setBlock n (s.metT n) b)
      | [], [] => s

/-- A meter takes a sample from a frame of its station (R377); nothing is processed while metering is frozen (R398). -/
def feedMeter (n : Nat) (m : MeterSample) (s : State) : State :=
  if s.metRuns then (s.modMetCh n fun c => { c with samples := c.samples ++ [m] }).drainMet n 4 else s

/-- A set takes a block; while metering is frozen its energies are held (R398). -/
def feedSet (i : Nat) (b : SetBlock) (s : State) : State :=
  let n := 2048 + i
  if s.metRuns then (s.modMetCh n fun c => { c with blocks := c.blocks ++ [b] }).drainMet n 4
  else if s.met.frozen then
    s.modMetCh n fun c => { c with held := [b.active, b.reactive, b.apparent].foldl (fun l x => modNth (· + x.2) l x.1) c.held,
                                   demWhole := false }
  else s

/-! ### Save (R395, R397) -/

/-- The save word of a metering channel. -/
def saveWord (s : State) (n : Nat) : Nat :=
  let c := s.metCh n
  if n < 2048 then
    let r := ((List.range 4).find? fun j => c.rem j != 0).getD 0
    ofSigned 24 (c.rem r) + 2 ^ 24 * (r % 2) + 2 ^ 25 * (r / 2) + 2 ^ 26 * (c.cntF % 2 ^ 19) + 2 ^ 45 * (c.cntR % 2 ^ 19)
  else
    let q := ((List.range 4).find? fun j => c.rem (2 + j) != 0).getD 0
    let neg := if c.rem 1 ≠ 0 ∨ c.rem 7 ≠ 0 then 1 else 0
    (c.rem neg).natAbs % 2 ^ 20 + 2 ^ 20 * neg + 2 ^ 21 * ((c.rem (2 + q)).natAbs % 2 ^ 20) + 2 ^ 41 * q +
      2 ^ 43 * ((c.rem (6 + neg)).natAbs % 2 ^ 20)

/-- A save slot is valid (R395): the sequence of its save. -/
def slotSeq (s : State) (i : Nat) : Option Nat :=
  let b := s.bytesAt (metSlot i) 16712
  if fieldAt b 0 4 = 0x56535A47 ∧ fieldAt b 4 2 = 1 ∧ (crc32 (b.take 0x4140)).toNat = fieldAt b 0x4140 4 ∧
      fieldAt b 0x4144 4 = fieldAt b 8 4 then some (fieldAt b 8 4) else none

/-- The slot with the latest valid save, and its sequence. -/
def latestSave (s : State) : Option (Nat × Nat) :=
  match s.slotSeq 0, s.slotSeq 1 with
  | some a, some b => if a < b then some (1, b) else some (0, a)
  | some a, none => some (0, a)
  | none, some b => some (1, b)
  | none, none => none

/-- A save (R397): metering freezes, the record writes in flight complete, and the slot that does not hold the latest
valid save is written. Only one save is made per freeze. The second component tells whether a save was made.
[DESIGN CHOICE, log entry 80] -/
def metSave (reason : Nat) (s : State) : State × Bool :=
  match s.met.epoch with
  | none => (s, false)
  | some e =>
    if s.met.frozen then (s, false)
    else
      let s := s.met.chs.foldl (fun s x => s.endRecord x.1) s
      let i := match s.latestSave with | some (0, _) => 1 | _ => 0
      let head := leBytes 4 0x56535A47 ++ leBytes 2 1 ++ leBytes 2 reason ++ leBytes 4 e ++ leBytes 4 2080 ++
        instantBytes s.now ++ zeros 36
      let body := head ++ ((List.range 2080).map fun n => leBytes 8 (s.saveWord n)).flatten
      let s := s.setBytes (metSlot i) (body ++ leBytes 4 (crc32 body).toNat ++ leBytes 4 e)
      let (us, s) := s.draw 9
      let s := { s with met := { s.met with frozen := true } }
      let s := (s.setReg R.MET_SAVE_SEQ (BitVec.ofNat 32 e)).setReg R.MET_SAVE_US (BitVec.ofNat 32 (us % 89))
      (((s.setRegBit R.MET_STATUS 0 false).setRegBit R.MET_STATUS 1 true), true)

/-! ### Epochs and restore (R393, R399 to R401) -/

/-- The header copies and the newest (R393). -/
def hdrNewest (s : State) : Nat :=
  let h0 := s.bytesAt (metHdr 0) 32
  let h1 := s.bytesAt (metHdr 1) 32
  newestCopy (crc16Ok 0x1E h0) (crc16Ok 0x1E h1) (fieldAt h0 6 1) (fieldAt h1 6 1)

/-- OPEN_EPOCH as the store holds it. -/
def storedEpoch (s : State) : Option Nat :=
  let h := s.bytesAt (metHdr s.hdrNewest) 32
  if crc16Ok 0x1E h ∧ fieldAt h 0 4 = 0x57505A47 then some (fieldAt h 8 4) else none

/-- The open window's end at a start of metering. -/
def windowStart (s : State) : State :=
  let ends := match s.metCfg.tariff with | some g => [(gridNext g.pw g.off s.nowSec, false)] | none => []
  { s with met := { s.met with grid := s.metCfg.tariff, ends := ends } }.metShow

/-- Opens an epoch (R399). -/
def openEpoch (s : State) : State :=
  let e := match s.latestSave with | some (_, q) => q + 1 | none => 1
  let k := s.hdrNewest
  let old := s.bytesAt (metHdr k) 32
  let h := withCrc16 0x1E (leBytes 4 0x57505A47 ++ leBytes 2 1 ++ leBytes 1 (fieldAt old 6 1 + 1) ++ [0] ++ leBytes 4 e ++
    zeros 20)
  let s := s.setBytes (metHdr (1 - k)) h
  let s := { s with met := { s.met with epoch := some e, frozen := false } }
  (s.setRegBit R.MET_STATUS 0 true).setRegBit R.MET_STATUS 1 false

/-- Chooses an instant between two bounds that the spec leaves open: when the restored baseline was taken.
[DESIGN CHOICE, log entry 79] -/
def drawInstant (lo hi : Instant) (s : State) : Instant × State :=
  if hi ≤ lo then (lo, s)
  else
    let (v, s) := s.draw 10
    (lo + v % (hi - lo + 1), s)

/-- The registers of a record, as integers. -/
def recRegs (b : List Byte) : List Int := (List.range 8).map fun i => toSigned 64 (fieldAt b (8 + 8 * i) 8)

/-- Width of a meter's counters, from the type of its forward counter. -/
def counterBits (s : State) (c : MeterCfg) : Nat :=
  match s.adm (64 * c.seg + c.stn) with
  | some a => if s.loaded && s.sigType (a.inFirst + c.fwd) == 5 then 64 else 32
  | none => 32

/-- Restores one channel (R400, R401). `save` is the save slot that closes the epoch. [DESIGN CHOICE, log entry 79] -/
def restoreCh (save : Option Nat) (n : Nat) (s : State) : State :=
  let r0 := s.recCopy n 0
  let r1 := s.recCopy n 1
  if allZero r0 && allZero r1 then
    if (tget s.met.chs n).isSome then s.setMetCh n MetCh.empty else s
  else
    let k := s.recNewest n
    let r := if k = 0 then r0 else r1
    let bits := match tget s.metCfg.meters n with | some c => s.counterBits c | none => 32
    if crc16Ok 2 r then
      let regs := recRegs r
      let c0 := { MetCh.empty with acc := regs, tot := regs, flags := BitVec.ofNat 8 (fieldAt r 0 1), bound := fieldAt r 4 4 }
      let wrote := fieldAt r 0x48 8 * 2 ^ 32
      match save with
      | some i =>
        let w := s.numAt (metSlot i + 0x40 + 8 * n) 8
        let frozenAt := instantOf (s.bytesAt (metSlot i + 0x10) 12)
        if n < 2048 then
          let net := bit c0.flags 2
          let rem : Int := if net then toSigned 24 w else (w % 2 ^ 24 : Nat)
          let j : Nat := w / 2 ^ 24 % 2 + 2 * (w / 2 ^ 25 % 2)
          let cf : Nat := w / 2 ^ 26 % 2 ^ 19
          let cr : Nat := w / 2 ^ 45 % 2 ^ 19
          let acc := modNth (· + rem) regs j
          let acc := if net then modNth (· + ((cf : Int) - cr) * 2 ^ 16) acc 4
            else modNth (· + (cr : Int) * 2 ^ 16) (modNth (· + (cf : Int) * 2 ^ 16) acc 4) 5
          let bf : Nat := ((nth 0 regs 6).toNat + cf) % 2 ^ bits
          let br : Nat := ((nth 0 regs 7).toNat + cr) % 2 ^ bits
          let (t, s) := s.drawInstant wrote frozenAt
          s.setMetCh n { c0 with acc := acc.take 6 ++ [(bf : Int), (br : Int)], cntF := cf, cntR := cr,
                                 base := some ⟨bf, br, bits, t, 0⟩ }
        else
          let neg : Nat := w / 2 ^ 20 % 2
          let q : Nat := w / 2 ^ 41 % 4
          let acc := modNth (· + ((w % 2 ^ 20 : Nat) : Int)) regs neg
          let acc := modNth (· + ((w / 2 ^ 21 % 2 ^ 20 : Nat) : Int)) acc (2 + q)
          let acc := modNth (· + ((w / 2 ^ 43 % 2 ^ 20 : Nat) : Int)) acc (6 + neg)
          s.setMetCh n { c0 with acc := acc }
      | none =>
        let (t, s) := s.drawInstant wrote s.now
        let base : Option Baseline :=
          if n < 2048 then some ⟨(nth 0 regs 6).toNat, (nth 0 regs 7).toNat, bits, t, 0⟩ else none
        s.setMetCh n { c0 with flags := setBit c0.flags 0 true, bound := s.metT n, base := base }
    else
      let cl := s.bytesAt (metClose n) (closeLen n)
      let ok := crc16Ok (closeLen n - 2) cl && !allZero cl
      let regs := if ok then recRegs cl else List.replicate 8 0
      let regs := if n < 2048 then regs.take 6 ++ [0, 0] else regs
      s.setMetCh n { MetCh.empty with acc := regs, tot := regs, flags := 0x03, bound := 0xFFFFFFFF }

/-- The configured channels, sets and user layer come into force, at a block boundary (R367, R409). -/
def metSync (s : State) : State :=
  let m := s.metCfg
  let s := { s with met := { s.met with chans := m.chans, sets := m.sets, cal := m.cal } }
  let s := m.chans.foldl (fun s x => s.setRegField (R.MET_CH_STATUS x.1) 1 0 x.2.kind) s
  m.sets.foldl (fun s x => s.setRegBit (R.MET_SET_STATE x.1) 0 x.2.enable) s

/-- Restores every channel, opens the epoch and writes the flagged channels (R399, R400). In the FeRAM hold it waits, since
it writes to the store (R127). [DEDUCED, log entry 164] -/
def metRestore (s : State) : State :=
  if s.pwr.feramHold then { s with met := { s.met with waits := true } }
  else restoreNow { s with met := { s.met with waits := false } }
where restoreNow (s : State) : State :=
  let latest := s.latestSave
  let save := match latest, s.storedEpoch with
    | some (i, q), some e => if q = e then some i else none
    | _, _ => none
  let s := { s with met := { s.met with chs := [], snap := [], closeQ := [] } }
  let ns := List.range 2080
  let s := ns.foldl (fun s n => s.restoreCh save n) s
  let valid (n c : Nat) : Bool := crc16Ok 2 (s.recCopy n c)
  let hurt := ns.filter fun n => (tget s.met.chs n).isSome && (save.isNone || !(valid n 0 || valid n 1))
  let fromClosing := hurt.countP fun n => bit (s.metCh n).flags 1 && !(valid n 0 || valid n 1)
  let s := s.openEpoch
  let s := hurt.foldl (fun s n =>
    ((s.startRecord n).endRecord n).raise srcMet Ev.MET_LOSS_BOUND n (s.metCh n).bound) s
  let s := s.setReg R.MET_RESTORE (BitVec.ofNat 32 (hurt.length + 2 ^ 12 * fromClosing))
  let s := (s.setRegBit R.MET_STATUS 3 (!hurt.isEmpty)).setReg R.MET_SAVE_SEQ
    (BitVec.ofNat 32 ((latest.map (·.2)).getD 0))
  let s := if hurt.isEmpty then s else s.setRegBit R.SYS_BOOT_STATUS 8 true
  let s := s.windowStart
  s.met.chs.foldl (fun s x => s.windowOpen x.1) s

/-- Metering resumes under R128: the held energy of each set is added and a new epoch opens (R398, R399). With PD_MET
off there is nothing to resume. -/
def metResume (s : State) : State :=
  if !s.met.frozen ∨ !s.domOn 8 then s
  else
    let s := s.openEpoch
    let old := s.openEnd
    let s := if old ≠ 0 ∧ old * 2 ^ 32 ≤ s.now then s.windowStart else s
    let s := s.met.chs.foldl (fun s x =>
      let c := s.metCh x.1
      if c.winEnd ≠ 0 ∧ c.winEnd * 2 ^ 32 ≤ s.now then
        let late := !(c.held.all (· == 0))
        let s := s.windowOpen x.1
        if late then (s.windowFlag x.1 1).windowFlag x.1 2 else s
      else s) s
    s.met.chs.foldl (fun s x =>
      let c := s.metCh x.1
      let parts := (c.held.mapIdx fun j v => (j, v)).filter fun p => p.2 != 0
      if parts.isEmpty then s
      else
        let t := s.metT x.1
        let grp (j : Nat) : List Nat := if j < 2 then [0, 1] else if j < 6 then [2, 3, 4, 5] else [6, 7]
        let (c, due) := parts.foldl (fun p y => MetCh.addEnergy (grp y.1) t y.1 y.2 p)
          ({ c with held := List.replicate 8 0, demWhole := false }, false)
        let s := (s.setMetCh x.1 c).pulseFeed x.1 parts
        if due then s.startRecord x.1 else s) s

/-- The engine loses its state with PD_MET (R48): what is in the store stays; a freeze lasts until an epoch opens. -/
def metLost (s : State) : State :=
  { s with met := { MetSt.reset with frozen := s.met.frozen, epoch := if s.met.frozen then s.met.epoch else none } }

/-- A power-up of PD_MET (R399, R400): the restore of order 3 of R138 stands at the first one after it. -/
def metPowerUp (s : State) : State :=
  (if s.met.restored then { s with met := { s.met with restored := false } } else s.metRestore).metSync.metShow

end State

end Sys2Proof.Machine
end

