-- ==== Sys2Proof/Machine/TimeOps.lean ====
section
/-! DEFINITION. Device time: the model, steps, the servo and the qualification of samples (spec 11, R430 to R449). -/

namespace Sys2Proof.Machine

/-- Units of 2^-32 s as nanoseconds times 2^32. -/
def nsScaled (t : Int) : Int := t * 1000000000

namespace State

/-! ### The model (R431, R432) -/

/-- SERVO: 0 FREE, 1 ACQUIRING, 2 LOCKED, 3 HOLDOVER. -/
def servo (s : State) : Nat := s.regField R.TIME_STATE 1 0
/-- The slave port; 31 for none. -/
def slavePort (s : State) : Nat := s.regField R.TIME_STATE 12 8
/-- SOURCE: 0 FREE, 1 PTP, 2 PPS, 3 LINK. -/
def timeSource (s : State) : Nat := s.regField R.TIME_CFG 2 0
def ptpProfile (s : State) : Nat := s.regField R.TIME_CFG 4 3
def refIn (s : State) : Nat := s.regField R.TIME_CFG 6 5
def ptpDomain (s : State) : Nat := s.regField R.TIME_CFG 14 8

/-- The model is rebased: T_b becomes T at the present count, to 2^-64 s (R432). [DEDUCED, log entry 100] -/
def rebaseTime (s : State) : State :=
  { s with time := { s.time with tb := s.exactTime / 250000000, cb := s.time.raw } }

/-- RATE_LIMIT in units of 2^-40. -/
def rateLimit (s : State) : Int := ((s.regField R.TIME_RATE_LIMIT 9 0 * 2 ^ 40 / 1000000 : Nat) : Int)

/-- A change of RATE (R432). -/
def setRate (r : Int) (s : State) : State :=
  s.rebaseTime.setReg R.TIME_RATE (BitVec.ofInt 32 (clampInt (-s.rateLimit) s.rateLimit r))

/-! ### Steps (R192, R447, R448) -/

/-- Releases that a forward step passes over are counted; after a backward step the next release is the first grid tick
after the last one made (R192). -/
def stepTask (fwd : Bool) (t : Nat) (x : Nat × State) : Nat × State :=
  let s := x.2
  if s.releasable t ∧ 0 < s.period t then
    if fwd then
      let i := tickOf s.now
      let n := s.dueCount t i
      (x.1 + n, (s.bump (R.CYC_SKIPPED t) n).modTask t fun y => { y with seenTick := max y.seenTick i })
    else (x.1, s.modTask t fun y => { y with seenTick := y.lastTick.getD 0 })
  else x

/-- What a step does to a bound segment: no STAGE and no COMMIT for STEP_SETTLE bus cycles (R448). -/
def stepSegment (k : Nat) (s : State) : State :=
  if (s.boundTask k).isSome then
    s.modSeg k fun g => { g with settle := s.regField R.TIME_STEP_SETTLE 3 0, phase := .idle, staged := none }
  else s

/-- A step of device time by `d` units, with its effects (R447, R448). -/
def stepTime (d : Int) (byCmd : Bool) (s : State) : State :=
  let before := tickOf s.now
  let s := s.rebaseTime
  let s := { s with time := { s.time with tb := ((s.time.tb : Int) + d * 2 ^ 32).toNat, steps := s.time.steps + 1 } }
  let s := s.bump R.TIME_STEPS 1
  let s := s.setReg64 R.TIME_LAST_STEP_LO R.TIME_LAST_STEP_HI (ofSigned 64 d)
  let s := s.raise srcTime Ev.TIME_STEP (ofSigned 32 d) (if byCmd then 1 else 0)
  let (missed, s) := (List.range 32).foldl (fun x t => stepTask (decide (0 < d)) t x) (0, s)
  let s :=
    if 0 < d then s.raise srcCyc Ev.CYC_TIME_SKIP (satTo 32 (tickOf s.now - before)) (satTo 32 missed) else s
  let s := (List.range 20).foldl (fun s k => s.stepSegment k) s
  { s with met := { s.met with chs := s.met.chs.map fun c =>
      (c.1, { c.2 with base := c.2.base.map fun b => { b with step := b.step + d } }) } }

/-! ### The servo (R443, R444) -/

/-- A value in ns of 2^-32 s units, saturating as a signed 32-bit number. -/
def toNs (t : Int) (s : State) : Int × State :=
  let (v, s) := s.roundFree 40 (nsScaled t) (2 ^ 32)
  (clampInt (-2147483648) 2147483647 v, s)

/-- A change of servo state is logged and raises vector 27 (R443, R453). [DEDUCED, log entry 102] -/
def setServo (new : Nat) (theta : Int) (expired : Bool) (s : State) : State :=
  let old := s.servo
  if old = new then s
  else
    let s := s.setRegField R.TIME_STATE 1 0 new
    let s := if new = 3 then
        { s with time := { s.time with holdoverAt := s.raw, lastEdge := none } }.setRate s.time.rI
      else s
    let s := { s with time := { s.time with lockRun := if new = 2 then s.time.lockRun else 0, failRun := 0 } }
    let s := match new with
      | 0 => s.raise srcTime Ev.TIME_FREE 0 (if expired then 1 else 0)
      | 1 =>
        if old = 2 then
          let (ns, s) := s.toNs theta
          s.raise srcTime Ev.TIME_UNLOCKED (ofSigned 32 ns) 0
        else s
      | 2 => s.raise srcTime Ev.TIME_LOCKED s.slavePort 0
      | _ => s.raise srcTime Ev.TIME_HOLDOVER 0 0
    s.notify 27

/-- A rejected sample or message (R442). -/
def rejectSample (check : Nat) (s : State) : State :=
  let s := s.bump R.TIME_SAMPLES_REJECTED 1
  let n := s.time.rejSince + 1
  let due := match s.time.rejLogged with | none => true | some t => decide (t + rawUs 1000000 ≤ s.raw)
  if due then
    { s with time := { s.time with rejSince := 0, rejLogged := some s.raw } }.raise srcTime Ev.TIME_REJECT check n
  else { s with time := { s.time with rejSince := n } }

/-- The PI rule for a sample `d` raw counts after the previous one (R444). -/
def slew (theta : Int) (d : Nat) (s : State) : State :=
  let lim := s.rateLimit
  let part (g : Nat) : Int := (g : Int) * theta * 250000000
  let (di, s) := s.roundFree 41 (part (s.regField R.TIME_GAINS 31 16)) (256 * max 1 d)
  let rI := clampInt (-lim) lim (s.time.rI - di)
  let (dp, s) := s.roundFree 42 (part (s.regField R.TIME_GAINS 15 0)) (256 * max 1 d)
  { s with time := { s.time with rI := rI } }.setRate (clampInt (-lim) lim (rI - dp))

/-- The first sample has no predecessor: the spec gives τ no value, so the rates are free within the limits.
[DESIGN CHOICE, log entry 101] -/
def slewFirst (s : State) : State :=
  let lim := s.rateLimit
  let pick (v : Nat) : Int := (v % (2 * lim.toNat + 1) : Nat) - lim
  let (a, s) := s.draw 43
  let (b, s) := s.draw 44
  { s with time := { s.time with rI := pick a } }.setRate (pick b)

/-- The magnitude of θ lies below (or, with `le`, at most at) a number of ns. -/
def thetaBelow (theta : Int) (ns : Nat) (le : Bool) : Bool :=
  let a := theta.natAbs * 1000000000
  if le then decide (a ≤ ns * 2 ^ 32) else decide (a < ns * 2 ^ 32)

/-- LOCK_THRESH in ns. -/
def lockThresh (s : State) : Nat := s.regField R.TIME_LOCK_THRESH 15 0

/-- An accepted sample updates the model (R443, R444); `delay` is its path delay. -/
def acceptSample (theta delay : Int) (s : State) : State :=
  let (ns, s) := s.toNs theta
  let s := s.setReg R.TIME_OFFSET (BitVec.ofInt 32 ns)
  let (path, s) := s.toNs delay
  let s := s.setReg R.TIME_MEAN_PATH (BitVec.ofInt 32 path)
  let s := if s.servo = 0 ∨ s.servo = 3 then s.setServo 1 theta false else s
  let big := decide (s.regField R.TIME_STEP_THRESH 23 0 * 2 ^ 32 ≤ theta.natAbs * 1000000)
  let prev := s.time.lastAccept
  let run := if thetaBelow theta s.lockThresh false then s.time.lockRun + 1 else 0
  let s := { s with time := { s.time with lastAccept := some s.raw, waitFrom := s.raw, lockRun := run, failRun := 0 } }
  let s : State :=
    if s.servo = 1 ∧ big ∧ s.regBit R.TIME_CFG 7 then s.stepTime (-theta) false
    else match prev with
      | some t => s.slew theta (s.raw - t)
      | none => s.slewFirst
  if s.servo = 1 ∧ 16 ≤ run then s.setServo 2 theta false else s

/-- A sample with the checks other than check 4: the first that fails rejects it; then check 4 (R442). -/
def qualifySample (theta delay : Int) (checks : List (Bool × Nat)) (s : State) : State × Bool :=
  match checks.find? fun c => !c.1 with
  | some (_, n) => ({ s with time := { s.time with failRun := 0 } }.rejectSample n, false)
  | none =>
    if s.servo = 2 ∧ !thetaBelow theta (16 * s.lockThresh) true then
      if s.time.failRun < 3 then
        ({ s with time := { s.time with failRun := s.time.failRun + 1 } }.rejectSample 4, false)
      else ((s.setServo 1 theta false).acceptSample theta delay, true)
    else (s.acceptSample theta delay, true)

/-! ### Best master clock (R437, R444) -/

/-- PTP runs on external port `p`. -/
def ptpOn (s : State) (p : Nat) : Bool :=
  s.regBit (R.NET_PORT_CFG p) 8 && s.regField (R.NET_PORT_CFG p) 1 0 != 0 && s.regBit (R.NET_PORT_STATE p) 0 && s.domOn 6

/-- Port `p` carries a segment. -/
def isSegment (s : State) (p : Nat) : Bool := s.regField (R.NET_PORT_CFG p) 1 0 == 1

/-- Port `p` may become SLAVE. -/
def slaveOk (s : State) (p : Nat) : Bool := s.timeSource == 1 && s.regBit (R.NET_PORT_CFG p) 9

/-- The clock identity formed from base + 20 as from an EUI-48 (R452). -/
def clockIdentity : List Byte :=
  let m := beBytes 6 (baseMac + 20)
  m.take 3 ++ [0xFF, 0xFE] ++ m.drop 3

/-- The clockClass announced as a grandmaster (R444). [PRESUMED, log entry 96] -/
def ownClass (s : State) : Nat :=
  if s.servo = 2 ∧ s.timeSource = 2 then 6 else if s.servo = 3 then 7 else 248

/-- The comparison key of a clock: grandmaster values, then steps removed, then the sender. -/
def gmKey (a : PtpParent) : List Nat :=
  [a.gmPriority1, a.gmClass, a.gmAccuracy, a.gmVariance, a.gmPriority2, beNat a.gmIdent, a.steps, beNat a.ident]

/-- Dictionary order. -/
def listLt : List Nat → List Nat → Bool
  | x :: xs, y :: ys => decide (x < y) || (x == y && listLt xs ys)
  | _, _ => false

/-- `a` is the better master: of one grandmaster the nearer, otherwise by the grandmaster's values.
[PRESUMED, log entry 96] -/
def better (a b : PtpParent) : Bool :=
  if a.gmIdent = b.gmIdent then listLt [a.steps, beNat a.ident] [b.steps, beNat b.ident] else listLt (gmKey a) (gmKey b)

/-- An Announce is fresh for three Announce intervals, IEEE 1588's receipt timeout. [DEDUCED, log entry 95] -/
def freshAnnounce (s : State) (a : PtpParent) : Bool :=
  decide (s.raw * 8 < a.heard * 8 + 3 * 250000000 * 2 ^ (s.time.cfg.logAnnounce + 3).toNat)

/-- The best of the fresh Announce messages. [DEDUCED, log entry 95] -/
def bestAnnounce (s : State) : Option PtpParent :=
  ((s.time.announces.map (·.2)).filter fun a => s.freshAnnounce a && s.ptpOn a.port && s.slaveOk a.port).foldl
    (fun b a => match b with | none => some a | some x => if better a x then some a else some x) none

/-- Whether another clock beats the controller's own. -/
def beatsOwn (s : State) (a : PtpParent) : Bool :=
  let own := [s.time.cfg.priority1, s.ownClass]
  if [a.gmPriority1, a.gmClass] = own then
    decide (a.gmPriority2 < s.time.cfg.priority2 ∨
      (a.gmPriority2 = s.time.cfg.priority2 ∧ beNat a.gmIdent < beNat clockIdentity))
  else listLt [a.gmPriority1, a.gmClass] own

/-- The PTP state of port `p` (R437, R451, R510). -/
def ptpPortState (s : State) (p : Nat) : Nat :=
  if !s.ptpOn p then 0
  else if s.isSegment p then (if s.role = 2 ∨ s.role = 3 then 1 else 2)
  else match s.time.parent with
    | some a =>
      if a.port = p then (if s.time.lastSeq.isSome then 5 else 4)
      else match tget s.time.announces p with
        | some x => if s.freshAnnounce x ∧ x.gmIdent = a.gmIdent ∧ better x a = false ∧ x.steps ≤ a.steps then 3 else 2
        | none => 2
    | none => 2

/-- Shows the states of the PTP ports. -/
def showPtp (s : State) : State :=
  (List.range 20).foldl (fun s p => s.setRegField (R.TIME_PORT_STATE p) 3 0 (s.ptpPortState p)) s

/-- The best master clock algorithm runs: a new parent or grandmaster is logged (R437, R453).
[PRESUMED, log entry 96] -/
def bmca (s : State) : State :=
  let old := s.time.parent
  let new := match s.bestAnnounce with | some a => if s.beatsOwn a then some a else none | none => none
  let same := match old, new with
    | some a, some b => a.ident == b.ident && a.gmIdent == b.gmIdent
    | none, none => true
    | _, _ => false
  let sameIdent := match old, new with | some a, some b => a.ident == b.ident | _, _ => false
  let s := { s with time := { s.time with
    parent := new, lastSeq := if sameIdent then s.time.lastSeq else none,
    waitFrom := if sameIdent || same then s.time.waitFrom else s.raw } }
  let s := s.setRegField R.TIME_STATE 12 8 ((new.map (·.port)).getD 31)
  let s := match new with
    | some a => if same then s else s.raise srcTime Ev.TIME_PARENT (beNat (a.gmIdent.drop 4)) 0
    | none => s
  s.showPtp

end State

end Sys2Proof.Machine
end

