-- ==== Sys2Proof/Machine/NetTime.lean ====
section
/-! DEFINITION. The commands and events of the switch's ports and of the time block (spec 11, R415, R422 to R429,
R436 to R449, R452). -/

namespace Sys2Proof.Machine

namespace State

/-! ### Ports -/

/-- The AN field of a port that has no link: in progress where it negotiates. -/
def anStart (s : State) (p : Nat) : Nat :=
  let w := s.reg (R.NET_PORT_CFG p)
  if field w 1 0 = 0 then 0 else if p < 16 then (if field w 3 2 < 2 then 1 else 0) else if field w 5 4 < 2 then 1 else 0

/-- A port's link is lost (R453). -/
def linkLost (p : Nat) (s : State) : State :=
  let s := s.setRegField (R.NET_PORT_STATE p) 3 0 (4 * s.anStart p)
  let s := (s.bump (R.NET_PORT_LINK_DOWNS p) 1).raise srcNet Ev.NET_LINK_DOWN p 1
  ({ s with time := { s.time with announces := tdel s.time.announces p } }).bmca

/-- LINK_DOWN: lost, or refused at a speed other than 1,000 Mb/s (R423). -/
def linkDown (p : Nat) (refused : Bool) (s : State) : State :=
  if !s.domOn 6 ∨ s.regField (R.NET_PORT_CFG p) 1 0 = 0 then s
  else
    let up := s.regBit (R.NET_PORT_STATE p) 0
    if refused then
      if p < 16 ∨ s.regField (R.NET_PORT_CFG p) 5 4 ≠ 0 then s
      else
        let s := s.setRegField (R.NET_PORT_STATE p) 3 0 0xC
        let s := if up then s.bump (R.NET_PORT_LINK_DOWNS p) 1 else s
        ({ s.raise srcNet Ev.NET_LINK_DOWN p 2 with
            time := { s.time with announces := tdel s.time.announces p } }).bmca
    else if up then s.linkLost p
    else s

/-- The level at which a T1L link comes up: 0 for 2.4 Vpp, 1 for 1.0 Vpp, `none` for no common level (R422).
[DEDUCED, log entry 97] -/
def linkLevel (amp : Nat) (offers24 offers10 : Bool) : Option Nat :=
  if amp = 0 then (if offers24 then some 0 else if offers10 then some 1 else none)
  else if amp = 1 then (if offers10 then some 1 else none)
  else some (amp - 2)

/-- LINK_UP (R422, R423, R453). [DEDUCED, log entry 97] -/
def linkUp (p : Nat) (offers24 offers10 : Bool) (s : State) : State :=
  let w := s.reg (R.NET_PORT_CFG p)
  if !s.domOn 6 ∨ field w 1 0 = 0 ∨ s.regBit (R.NET_PORT_STATE p) 0 then s
  else
    let level := if p < 16 then linkLevel (field w 3 2) offers24 offers10 else some 0
    let an := s.anStart p
    match level with
    | none => s.setRegField (R.NET_PORT_STATE p) 3 2 3
    | some l =>
      let s := s.setRegField (R.NET_PORT_STATE p) 3 0 (1 + 2 * l + 8 * an)
      (s.raise srcNet Ev.NET_LINK_UP p l).showPtp

/-- Whether NET_PORT_CONFIG sets a field that the port does not allow (R422, R424, R450). -/
def portFieldBad (p : Nat) (w : Word) : Bool :=
  field w 1 0 == 3 || decide (1 < field w 7 6) ||
    (if p < 16 then field w 5 4 != 0 || field w 7 6 != 0 else field w 3 2 != 0 || field w 5 4 == 3)

/-- NET_PORT_CONFIG (R415, R452): a SEGMENT port always has PTP enabled and is never a slave. -/
def netPortConfig (c : Cmd) (s : State) : State × CmdEnd :=
  let p := c.p 0 4
  let w : Word := BitVec.ofNat 32 (c.p 4 4)
  if 19 < p then (s, .st .portInvalid)
  else if portFieldBad p w then (s, .st .portInvalid)
  else if field w 11 10 ≠ 0 ∨ field w 31 24 ≠ 0 ∨ field w 23 12 = 0 ∨ field w 23 12 = 4095 then (s, .st .badParam 4)
  else if s.segState p ≠ 0 ∨ s.net.sas.any (fun x => x.2.port == p) then (s, .st .mode)
  else
    let old := s.reg (R.NET_PORT_CFG p)
    let w := if field w 1 0 = 1 then setField w 9 8 1 else w
    let s := s.setReg (R.NET_PORT_CFG p) w
    let restart := field w 1 0 = 0 ∨ field old 5 2 ≠ field w 5 2
    let s : State :=
      if s.regBit (R.NET_PORT_STATE p) 0 then (if restart then s.linkLost p else s)
      else s.setRegField (R.NET_PORT_STATE p) 3 0 (4 * s.anStart p)
    (s.bmca, .st .ok)

/-- NET_VLAN_CONFIG (R418). -/
def netVlanConfig (c : Cmd) (s : State) : State × CmdEnd :=
  let e := c.p 0 4
  let vid := c.p 4 2
  match firstBad [(decide (63 < e), 0),
      (decide (4094 < vid) || (vid != 0 && s.net.vlans.any fun x => x.1 != e && x.2.vid == vid), 4),
      (decide (c.p 6 2 ≠ 0), 6), (decide (2 ^ 21 ≤ c.p 8 4), 8), (decide (2 ^ 21 ≤ c.p 0xC 4), 0xC)] with
  | some off => (s, .st .badParam off)
  | none =>
    let v : Vlan := ⟨vid, BitVec.ofNat 21 (c.p 8 4), BitVec.ofNat 21 (c.p 0xC 4)⟩
    ({ s with net := { s.net with vlans := if vid = 0 then tdel s.net.vlans e else tput s.net.vlans e v } }, .st .ok)

/-! ### MACsec associations (R425 to R429) -/

/-- Shows the number of associations. -/
def showSas (s : State) : State := s.setReg R.NET_SA_COUNT (BitVec.ofNat 32 s.net.sas.length)

/-- The secure association that NET_SA_INSTALL describes. -/
def saOf (c : Cmd) (key : List Byte) : Sa :=
  { port := c.p 0 4, rx := c.p 4 1 == 1, an := c.p 5 1, xpn := c.p 6 1 == 1, command := c.p 4 1 == 1 && c.p 7 1 == 1,
    sci := c.p 8 8, slot := c.p 0x10 4, key := key, pn := c.p 0x14 8, ssci := c.p 0x1C 4, salt := slice c.params 0x20 12,
    window := c.p 0x2C 4, inUse := c.p 4 1 == 0, lowLogged := false, exhausted := false }

/-- NET_SA_INSTALL (R425, R426). [DEDUCED, log entry 98] -/
def netSaInstall (c : Cmd) (s : State) : State × CmdEnd :=
  let p := c.p 0 4
  let rx := c.p 4 1 == 1
  let last := if c.p 6 1 = 1 then 2 ^ 64 - 1 else 2 ^ 32 - 1
  if p < 16 ∨ 19 < p ∨ s.regField (R.NET_PORT_CFG p) 7 6 ≠ 1 then (s, .st .portInvalid)
  else
    match firstBad [(decide (1 < c.p 4 1), 4), (decide (3 < c.p 5 1), 5), (decide (1 < c.p 6 1), 6),
        (decide (1 < c.p 7 1), 7), (decide (255 < c.p 0x10 4), 0x10),
        (decide (last < c.p 0x14 8) || (!rx && c.p 0x14 8 == 0), 0x14), (decide (2 ^ 30 < c.p 0x2C 4), 0x2C)] with
    | some off => (s, .st .badParam off)
    | none =>
      match s.slotInUse (c.p 0x10 4) with
      | none => (s, .st .slotEmpty)
      | some k =>
        if field k.attr 7 0 ≠ 1 ∨ field k.attr 15 8 ≠ (if rx then 1 else 0) ∨ bit k.attr 20 then (s, .st .slotUsage)
        else
          match (List.range 128).find? fun i => (tget s.net.sas i).isNone with
          | none => (s, .st .saFull)
          | some i =>
            let sas := if rx then s.net.sas else
              s.net.sas.map fun x => if x.2.port = p ∧ !x.2.rx then (x.1, { x.2 with inUse := false }) else x
            let s := ({ s with net := { s.net with sas := tput sas i (saOf c k.key) } }).showSas
            (if rx then s else s.setRegBit (R.NET_PORT_STATE p) 4 true, .st .ok i)

/-- Association `i` is removed and its key memory zeroed. A secure channel that no SA marks any longer ends as a command
association (R428). [DEDUCED, log entry 141] -/
def removeSa (i : Nat) (s : State) : State :=
  match tget s.net.sas i with
  | none => s
  | some a =>
    let s : State := { s with net := { s.net with sas := tdel s.net.sas i } }
    let s := (if s.commandChannel a.channel then s
      else { s with host := { s.host with assocs := tdel s.host.assocs a.channel } }).showSas
    if a.inUse then s.setRegBit (R.NET_PORT_STATE a.port) 4 false else s

/-- NET_SA_REMOVE. -/
def netSaRemove (c : Cmd) (s : State) : State × CmdEnd :=
  if (tget s.net.sas (c.p 0 4)).isNone then (s, .st .badParam 0) else (s.removeSa (c.p 0 4), .st .ok)

/-- Every association of a key slot that is emptied is removed at once (R429). [DEDUCED, log entry 99] -/
def removeSlotSas (slot : Nat) (s : State) : State :=
  (s.net.sas.filter fun x => x.2.slot == slot).foldl
    (fun s x => (s.removeSa x.1).raise srcNet Ev.NET_SA_REMOVED x.1 slot) s

/-- NET_PORT_STATUS: the port's group of registers as it stands; what PD_NET holds reads 0 while it is off (R47). -/
def netPortStatus (c : Cmd) (s : State) : State × CmdEnd :=
  let p := c.p 0 4
  if 20 < p then (s, .st .portInvalid)
  else
    let w (off : Nat) : List Byte :=
      let keep := off == 0 || off == 0x18
      leBytes 4 (if keep || s.domOn 6 then (s.reg (R.NET_PORT_CFG p + off)).toNat else 0)
    (s, replyOr c (((List.range 8).map fun i => w (4 * i)).flatten))

/-! ### Time commands -/

/-- The interval limits of a profile: Sync, Announce, delay request (R436). -/
def intervalRange (profile i : Nat) : Int × Int :=
  if profile = 2 then (0, 0) else nth (0, 0) [(-4, 1), (-3, 3), (-4, 5)] i

/-- TIME_CONFIG (R436, R451, R452). -/
def timeConfig (c : Cmd) (s : State) : State × CmdEnd :=
  let log (i : Nat) : Int := toSigned 8 (c.p (5 + i) 1)
  let badLog (i : Nat) : Bool :=
    let r := intervalRange (c.p 1 1) i
    decide (log i < r.1 ∨ r.2 < log i)
  let out (off lo hi : Nat) : Bool × Nat := (decide (c.p off 4 < lo ∨ hi < c.p off 4), off)
  match firstBad [(decide (3 < c.p 0 1), 0), (decide (2 < c.p 1 1), 1), (decide (127 < c.p 2 1), 2),
      (decide (1 < c.p 3 1), 3), (decide (2 < c.p 4 1), 4), (badLog 0, 5), (badLog 1, 6), (badLog 2, 7),
      (decide (c.p 0xA 2 ≠ 0), 0xA), out 0x10 1 16000000, out 0x14 10 65535, out 0x18 1 500, out 0x1C 1 65535,
      out 0x20 1 15] with
  | some off => (s, .st .badParam off)
  | none =>
    if c.p 0 1 = 3 ∧ s.role = 0 then (s, .st .role)
    else feramGate s <|
      let theta := (s.reg R.TIME_OFFSET).toInt * 2 ^ 32 / 1000000000
      let cfg := c.p 0 1 + 2 ^ 3 * c.p 1 1 + 2 ^ 5 * c.p 4 1 + 2 ^ 7 * c.p 3 1 + 2 ^ 8 * c.p 2 1
      let s := (s.setReg R.TIME_CFG (BitVec.ofNat 32 cfg)).nvReg R.TIME_CFG
      let s := [(R.TIME_GAINS, 0xC), (R.TIME_STEP_THRESH, 0x10), (R.TIME_LOCK_THRESH, 0x14), (R.TIME_RATE_LIMIT, 0x18),
        (R.TIME_HOLDOVER_MAX, 0x1C), (R.TIME_STEP_SETTLE, 0x20)].foldl
          (fun s x => (s.setReg x.1 (BitVec.ofNat 32 (c.p x.2 4))).nvReg x.1) s
      let ptp : PtpCfg := ⟨log 0, log 1, log 2, c.p 8 1, c.p 9 1⟩
      let s := s.updNv fun n => { n with ptp := ptp }
      let lim := s.rateLimit
      let s := { s with time := { s.time with
        cfg := ptp, parent := none, announces := [], lastSeq := none, lastAccept := none, waitFrom := s.raw,
        lockRun := 0, failRun := 0, lastEdge := none, onRef := c.p 4 1 == 1, due := [], seqs := [],
        rI := clampInt (-lim) lim s.time.rI } }
      let s := if s.rate < -lim ∨ lim < s.rate then s.setRate s.rate else s
      let s := (s.setReg R.TIME_PTP_UTC 0).setRegField R.TIME_STATE 12 8 31
      (s.showPtp.setServo (if c.p 0 1 = 0 then 0 else 1) theta false, .st .ok)

/-- TIME_STATUS. -/
def timeStatus (c : Cmd) (s : State) : State × CmdEnd :=
  let r (a : Nat) : List Byte := leBytes 4 (s.reg a).toNat
  let who := match s.time.parent with
    | some a => (padTo 10 a.ident, a.gmClass, a.gmPriority1, padTo 8 a.gmIdent)
    | none => (clockIdentity ++ [0, 0], s.ownClass, s.time.cfg.priority1, clockIdentity)
  (s, replyOr c (r R.TIME_STATE ++ r R.TIME_OFFSET ++ r R.TIME_RATE ++ r R.TIME_MEAN_PATH ++ r R.TIME_PTP_UTC ++
    leBytes 4 (satTo 32 s.time.steps) ++ r R.TIME_LAST_STEP_LO ++ r R.TIME_LAST_STEP_HI ++ who.1 ++ leBytes 1 who.2.1 ++
    leBytes 1 who.2.2.1 ++ instantBytes s.now ++ who.2.2.2))

/-- The source lets device time be set from outside (R449). -/
def stepAllowed (s : State) : Bool := s.timeSource == 0 || s.timeSource == 2

/-- An instant of device time that may be set: 2000-01-01 to 2400-01-01 TAI (R449). -/
def settable (t : Instant) : Bool := decide (946684800 * 2 ^ 32 ≤ t ∧ t ≤ 13569465600 * 2 ^ 32)

/-- TIME_STEP (R449). -/
def timeStepCmd (c : Cmd) (s : State) : State × CmdEnd :=
  let frac := c.p 0x10 4
  if 1 < c.p 0 4 then (s, .st .badParam 0)
  else if c.p 4 4 ≠ 0 then (s, .st .badParam 4)
  else if !s.stepAllowed then (s, .st .timeStepRefused)
  else if s.timeSource = 2 ∧ frac ≠ 0 then (s, .st .badParam 16)
  else if c.p 0 4 = 0 then
    let d := toSigned 64 (c.p 8 8) * 2 ^ 32 + (frac : Int)
    if d = 0 then (s, .st .ok)
    else if (s.now : Int) + d < 0 then (s, .st .badParam 8)
    else (s.stepTime d true, .st .ok)
  else
    let t := c.p 8 8 * 2 ^ 32 + frac
    if settable t then (s.stepTime ((t : Int) - (s.now : Int)) true, .st .ok) else (s, .st .badParam 8)

/-! ### Samples, time-outs and messages -/

/-- The link delay of a port in a peer-to-peer profile, in ns (R436, R451). [DESIGN CHOICE, log entry 137] -/
def setLinkDelay (p ns : Nat) (s : State) : State :=
  if s.ptpProfile = 0 then s else s.setRegField (R.TIME_PORT_STATE p) 31 8 (satTo 24 ns)

/-- A PTP message on the slave port is a sample (R442, R444); PORT_LAT adds to its ingress stamp (R435). In a
peer-to-peer profile its delay is the port's link delay. -/
def ptpSample (p : Nat) (m : PtpSample) (s : State) : State :=
  if s.timeSource ≠ 1 ∨ s.slavePort ≠ p ∨ !s.ptpOn p then s
  else
    let lat := toSigned 16 (s.regField (R.NET_PORT_LAT p) 15 0)
    let latU : Int := if lat < 0 then -(nsToUnits lat.natAbs : Int) else (nsToUnits lat.natAbs : Int)
    let theta := m.t2 + latU - m.t1 - m.corr - m.delay
    let fromParent := match s.time.parent with | some a => a.ident == m.ident | none => false
    let next := match s.time.lastSeq with
      | none => true
      | some l => decide (1 ≤ (m.seq + 65536 - l) % 65536 ∧ (m.seq + 65536 - l) % 65536 ≤ 256)
    let (s, ok) := s.qualifySample theta m.delay
      [(m.version == 2 && m.domain == s.ptpDomain && fromParent, 1), (next, 2),
       (decide (0 ≤ m.delay ∧ m.delay * 1000 ≤ 2 ^ 32), 3)]
    if ok then
      (({ s with time := { s.time with lastSeq := some (m.seq % 65536) } }).showPtp).setLinkDelay p
        (s.reg R.TIME_MEAN_PATH).toNat
    else s

/-- An edge on TIME_REF_IN in 1 PPS use (R442, R445): its stamp lies within 4 ns (R435), and θ is its distance from the
nearest whole second. [DESIGN CHOICE, log entry 55] -/
def ppsEdge (s : State) : State :=
  if s.timeSource ≠ 2 ∨ s.refIn ≠ 2 then s
  else
    let (e, s) := s.draw 45
    let stamp := s.now + e % 35 - 17
    let f : Nat := stamp % 2 ^ 32
    let theta : Int := if f < 2 ^ 31 then (f : Int) else (f : Int) - 2 ^ 32
    let spaced := match s.time.lastEdge with
      | none => true
      | some t => decide (t + 250000000 ≤ s.raw + 250000 ∧ s.raw ≤ t + 250250000)
    let (s, ok) := s.qualifySample theta 0 [(spaced, 5)]
    if ok then { s with time := { s.time with lastEdge := some s.raw } } else s

/-- The raw counts of an interval of 2^k s, k at least −4. -/
def intervalRaw (k : Int) : Nat := 250000000 * 2 ^ (k + 4).toNat / 16

/-- No accepted sample for four Sync intervals, or no accepted edge for 3 s (R442). -/
def syncTimeout (s : State) : State :=
  let live := s.servo = 1 ∨ s.servo = 2
  let limit := if s.timeSource = 1 then 4 * intervalRaw s.time.cfg.logSync else rawUs 3000000
  let src := (s.timeSource = 1 ∧ (s.slavePort ≠ 31 ∨ s.servo = 2)) ∨ s.timeSource = 2
  if live ∧ src ∧ s.time.waitFrom + limit ≤ s.raw then s.setServo 3 0 false else s

/-- Holdover past HOLDOVER_MAX (R443). -/
def holdoverExpiry (s : State) : State :=
  if s.servo = 3 ∧ s.time.holdoverAt + rawUs (1000000 * s.regField R.TIME_HOLDOVER_MAX 15 0) ≤ s.raw then
    s.setServo 0 0 true
  else s

/-- The 10 MHz reference is lost (R445). -/
def refLost (s : State) : State :=
  if s.refIn = 1 ∧ s.time.onRef then
    let s := ({ s with time := { s.time with onRef := false } }).raise srcTime Ev.TIME_REF_LOST 0 0
    if s.timeSource = 0 then s else s.setServo 1 ((s.reg R.TIME_OFFSET).toInt * 2 ^ 32 / 1000000000) false
  else s

/-- The instant up to which the service window of a segment lasts; none where it has no end (R249, R253). -/
def windowEnd (s : State) (k : Nat) : Option Instant :=
  match s.segCfg k with
  | none => none
  | some c =>
    let g := s.seg k
    if g.period = 0 then none
    else
      let lead := if (s.boundTask k).isSome then stageWinNs k c + tInNs k c else tInNs k c
      some (g.boundary + g.period - nsToUnits lead)

/-- A frame of `n` bytes fits the open service window of segment `k`: the state with its line taken (R420).
[DEDUCED, log entries 91, 92] -/
def fitsWindow (k n : Nat) (s : State) : Option State :=
  let start := max s.now (s.seg k).lineFree
  let stop := start + nsToUnits (wireByte k * (n + 24))
  let fits : Bool := match s.windowEnd k with | none => true | some e => decide (stop ≤ e)
  if (s.seg k).phase = .service ∧ fits then some (s.modSeg k fun g => { g with lineFree := stop }) else none

/-- The body of a PTP message (R436, R444): header, then what its kind carries. What the spec gives no value is free.
[DEDUCED, log entry 103] -/
def ptpBody (p kind : Nat) (s : State) : List Byte × State :=
  let (f, s) := s.draw 46
  let (q, s) := s.draw 47
  let k := if kind = 2 then (if s.ptpProfile = 0 then 1 else 2) else if kind = 1 then 0xB else 0
  let len := if kind = 1 then 64 else if k = 2 then 54 else 44
  let log := if kind = 0 then s.time.cfg.logSync else if kind = 1 then s.time.cfg.logAnnounce else s.time.cfg.logDelay
  let seq := (tget s.time.seqs (3 * p + kind)).getD 0
  let stamp := beBytes 6 s.nowSec ++ beBytes 4 (s.now % 2 ^ 32 * 1000000000 / 2 ^ 32)
  let head := beBytes 1 k ++ beBytes 1 2 ++ beBytes 2 len ++ beBytes 1 s.ptpDomain ++ zeros 1 ++
    beBytes 2 (if kind = 1 then f % 256 else 0) ++ zeros 12 ++ clockIdentity ++ beBytes 2 (p + 1) ++ beBytes 2 seq ++
    beBytes 1 (if k = 0 then 0 else if k = 1 then 1 else 5) ++ beBytes 1 (ofSigned 8 log)
  let body :=
    if kind = 1 then
      match s.time.parent with
      | some a =>
        beBytes 2 (s.regField R.TIME_PTP_UTC 15 0) ++ zeros 1 ++ beBytes 1 a.gmPriority1 ++ beBytes 1 a.gmClass ++
          beBytes 1 a.gmAccuracy ++ beBytes 2 a.gmVariance ++ beBytes 1 a.gmPriority2 ++ padTo 8 a.gmIdent ++
          beBytes 2 (a.steps + 1) ++ beBytes 1 (q / 2 ^ 40)
      | none =>
        beBytes 2 q ++ zeros 1 ++ beBytes 1 s.time.cfg.priority1 ++ beBytes 1 s.ownClass ++ beBytes 1 (q / 2 ^ 16) ++
          beBytes 2 (q / 2 ^ 24) ++ beBytes 1 s.time.cfg.priority2 ++ clockIdentity ++ beBytes 2 0 ++
          beBytes 1 (q / 2 ^ 40)
    else if k = 2 then zeros 10
    else []
  (head ++ stamp ++ body, s)

/-- Whether a port sends a kind of PTP message now (R436 to R439, R510). [DEDUCED, log entry 94] -/
def ptpMaySend (s : State) (p kind : Nat) : Bool :=
  let st := s.ptpPortState p
  let due := match tget s.time.due (3 * p + kind) with | none => true | some t => decide (t ≤ s.raw)
  due && (match kind with
    | 0 => st == 2
    | 1 => st == 2 && !(s.isSegment p && s.servo == 1)
    | _ => if s.ptpProfile = 0 then st == 4 || st == 5 else st != 0 && !(s.isSegment p && st == 1))

/-- PTP_MESSAGE_SEND. -/
def ptpSend (p kind : Nat) (s : State) : State :=
  if !s.ptpMaySend p kind then s
  else
    let cfg := s.time.cfg
    let step := intervalRaw (if kind = 0 then cfg.logSync else if kind = 1 then cfg.logAnnounce else cfg.logDelay)
    let key := 3 * p + kind
    let go (s : State) : State :=
      let (b, s) := s.ptpBody p kind
      let s := s.sendFrame p (.ptp p kind b)
      { s with time := { s.time with
        due := tput s.time.due key (s.raw + step),
        seqs := tput s.time.seqs key (((tget s.time.seqs key).getD 0 + 1) % 65536) } }
    if s.isSegment p then
      match s.fitsWindow p 78 with
      | some s => go s
      | none => s
    else go s

/-- A learned address reaches its ageing time (R417). -/
def fdbAge (key : Nat) (s : State) : State :=
  match tget s.net.fdb key with
  | none => s
  | some e =>
    if e.seen + rawUs (1000000 * s.regField R.NET_SWITCH_CFG 11 0) ≤ s.raw then
      let s := { s with net := { s.net with fdb := tdel s.net.fdb key } }
      s.setReg R.NET_FDB_COUNT (BitVec.ofNat 32 s.net.fdb.length)
    else s

end State

def execNetPortConfig (id : Nat) (s : State) : Res := hostRow Op.NET_PORT_CONFIG id State.netPortConfig s
def execNetVlanConfig (id : Nat) (s : State) : Res := hostRow Op.NET_VLAN_CONFIG id State.netVlanConfig s
def execNetSaInstall (id : Nat) (s : State) : Res := hostRow Op.NET_SA_INSTALL id State.netSaInstall s
def execNetSaRemove (id : Nat) (s : State) : Res := hostRow Op.NET_SA_REMOVE id State.netSaRemove s
def execNetPortStatus (id : Nat) (s : State) : Res := hostRow Op.NET_PORT_STATUS id State.netPortStatus s
def execTimeConfig (id : Nat) (s : State) : Res := hostRow Op.TIME_CONFIG id State.timeConfig s
def execTimeStatus (id : Nat) (s : State) : Res := hostRow Op.TIME_STATUS id State.timeStatus s
def execTimeStep (id : Nat) (s : State) : Res := hostRow Op.TIME_STEP id State.timeStepCmd s
def execLinkUp (p : Fin 20) (offers24 offers10 : Bool) (s : State) : Res := .next (s.linkUp p offers24 offers10)
def execLinkDown (p : Fin 20) (refused : Bool) (s : State) : Res := .next (s.linkDown p refused)
def execFdbAgeing (vid mac : Nat) (s : State) : Res := .next (s.fdbAge (vid * 2 ^ 48 + mac))
def execPtpSample (p : Fin 20) (m : PtpSample) (s : State) : Res := .next (s.ptpSample p m)
def execPpsEdge (s : State) : Res := .next s.ppsEdge
def execPtpMessageSend (p : Fin 20) (kind : Fin 3) (s : State) : Res := .next (s.ptpSend p kind)
def execSyncTimeout (s : State) : Res := .next s.syncTimeout
def execHoldoverExpiry (s : State) : Res := .next s.holdoverExpiry
def execRefLost (s : State) : Res := .next s.refLost

end Sys2Proof.Machine
end

