-- ==== Sys2Proof/Machine/Tamper.lean ====
section
/-! DEFINITION. The tamper sources and their filters at each CK_RTC tick (spec 15, R555, R556). -/

namespace Sys2Proof.Machine

/-- The ticks for which the condition of source `n` must hold: FILT for a switch, 2 for the mesh and the supply. -/
def tamperLimit (filt : Word) (n : Nat) : Nat := if n < 4 then field filt (8 * n + 7) (8 * n) else 2

namespace State

/-- ACTION of source `n`: 0 OFF, 1 LOG, 2 PURGE. -/
def tamperAction (s : State) (n : Nat) : Nat := s.regField R.KEY_TAMPER_CFG (2 * n + 1) (2 * n)
/-- STATE of source `n`: 0 OFF, 1 OK, 2 PENDING, 3 TRIPPED. -/
def tamperState (s : State) (n : Nat) : Nat := s.regField R.KEY_TAMPER_STATUS (2 * n + 1) (2 * n)
def setTamper (n v : Nat) (s : State) : State := s.setRegField R.KEY_TAMPER_STATUS (2 * n + 1) (2 * n) v

/-- Sets the run of ticks of source `n`. -/
def setFilt (n v : Nat) (s : State) : State := { s with key := { s.key with filt := modNth (fun _ => v) s.key.filt n } }

/-- One tick of source `n`: its filter runs while the condition holds. The clock source is OK at every edge. -/
def tamperSource (n : Nat) (cond : Bool) (s : State) : State :=
  if s.tamperAction n = 0 then (s.setTamper n 0).setFilt n 0
  else if n = 6 ∨ !cond then (s.setTamper n 1).setFilt n 0
  else
    let s := s.setFilt n (min 255 (nth 0 s.key.filt n + 1))
    if s.tamperState n = 3 then s else s.setTamper n 2

/-- The condition of source `n` at a tick: a switch pin at the active level that POLARITY gives (R559), or the mesh or the
supply as the tick finds it. -/
def tamperCond (given : BitVec 7) (n : Nat) (s : State) : Bool :=
  if n < 4 then given.getLsbD n == s.regBit R.KEY_TAMPER_CFG (16 + n) else given.getLsbD n

/-- A CK_RTC tick (R556) with the levels of TAMPER_SW[3:0] in bits 3 to 0, a mesh that differs in bit 4, and a battery
supply out of its range in bit 5. -/
def tamperTick (given : BitVec 7) (s : State) : State :=
  (List.range 7).foldl (fun s n => s.tamperSource n (s.tamperCond given n)) s

/-- The sources that trip now: a filter that has run its ticks, or the clock source when its ring oscillator has counted
four periods without an edge. -/
def tamperDue (s : State) (clock : Bool) : List Nat :=
  (List.range 7).filter fun n =>
    s.tamperAction n != 0 && s.tamperState n != 3 &&
      (if n = 6 then clock else s.tamperState n == 2 && decide (tamperLimit (s.reg R.KEY_TAMPER_FILT) n ≤ nth 0 s.key.filt n))

/-- A PURGE source is PENDING or TRIPPED: the root secret is deferred (R557). -/
def rootDeferred (s : State) : Bool :=
  (List.range 7).any fun n => s.tamperAction n == 2 && decide (2 ≤ s.tamperState n)

end State

end Sys2Proof.Machine
end

