-- ==== Sys2Proof/Machine/Rtc.lean ====
section
/-! DEFINITION. The real-time clock and its calendar views (spec 12). -/

namespace Sys2Proof.Machine

/-! ### The calendar (R461, R463) -/

/-- The full Gregorian leap-year rule. -/
def leapYear (y : Nat) : Bool := (y % 4 == 0 && y % 100 != 0) || y % 400 == 0

/-- The last day of a month. -/
def monthDays (y m : Nat) : Nat :=
  if m = 2 then (if leapYear y then 29 else 28) else if m = 4 ∨ m = 6 ∨ m = 9 ∨ m = 11 then 30 else 31

/-- Days from 1970-01-01 to a date, counting years from March so that February ends each. -/
def dayNumber (y m d : Nat) : Int :=
  let y' := if m ≤ 2 then y - 1 else y
  let doy := (153 * ((m + 9) % 12) + 2) / 5 + d - 1
  (365 * y' + y' / 4 - y' / 100 + y' / 400 + doy : Nat) - 719468

/-- Year, month and day of day number `n`. -/
def civil (n : Int) : Nat × Nat × Nat :=
  let z := (n + 719468).toNat
  let doe := z % 146097
  let yoe := (doe - doe / 1460 + doe / 36524 - doe / 146096) / 365
  let doy := doe - (365 * yoe + yoe / 4 - yoe / 100)
  let mp := (5 * doy + 2) / 153
  let m := if mp < 10 then mp + 3 else mp - 9
  let y := yoe + z / 146097 * 400
  (if m ≤ 2 then y + 1 else y, m, doy - (153 * mp + 2) / 5 + 1)

/-- The 8-byte calendar value of a view (R472). -/
def calBytes (v : Int) : List Byte :=
  let (y, m, d) := civil (v / 86400)
  let t := (v % 86400).toNat
  leBytes 2 y ++ leBytes 1 m ++ leBytes 1 d ++ leBytes 1 (t / 3600) ++ leBytes 1 (t / 60 % 60) ++ leBytes 1 (t % 60) ++ [0]

namespace State

/-! ### Reading -/

def rtcHalt (s : State) : Bool := s.regBit R.RTC_STATUS 1
/-- UTC_OFFSET and ZONE in force. -/
def utcOffset (s : State) : Nat := s.regField R.RTC_UTC_OFFSET 7 0
def zoneQuarters (s : State) : Int := toSigned 8 (s.regField R.RTC_UTC_OFFSET 15 8)
/-- The UTC view and the local view of a count, in seconds (R461). -/
def utcView (s : State) (c : Instant) : Int := ((c / 2 ^ 32 : Nat) : Int) - s.utcOffset
def localView (s : State) (c : Instant) : Int := s.utcView c + 900 * s.zoneQuarters
/-- The local day of the present count. -/
def localDay (s : State) : Int := s.localView s.rtc.count / 86400
/-- `RTC.CAL_DATE` and `RTC.CAL_TIME`. -/
def calDate (s : State) : Nat :=
  let (y, m, d) := civil s.localDay
  y % 2 ^ 16 + 2 ^ 16 * m + 2 ^ 20 * d
def calTime (s : State) : Nat :=
  let t := (s.localView s.rtc.count % 86400).toNat
  t / 3600 + 2 ^ 5 * (t / 60 % 60) + 2 ^ 11 * (t % 60) + 2 ^ 17 * s.rtc.weekday
/-- Following is active (R457). -/
def following (s : State) : Bool := s.regBit R.RTC_CTRL 0 && s.pwr.main && !s.rtcHalt
def rtcCal (s : State) : Int := toSigned 16 (s.regField R.RTC_CAL 15 0)
/-- The time of alarm `a`. -/
def alarmTime (s : State) (a : Nat) : Instant :=
  (s.regField (R.RTC_ALARM_SEC_HI a) 15 0 * 2 ^ 32 + (s.reg (R.RTC_ALARM_SEC_LO a)).toNat) * 2 ^ 32 +
    (s.reg (R.RTC_ALARM_FRAC a)).toNat
def alarmArmed (s : State) (a : Nat) : Bool := s.regBit (R.RTC_ALARM_STATE a) 0

/-! ### Effects -/

def modRtc (f : RtcSt → RtcSt) (s : State) : State := { s with rtc := f s.rtc }

/-- An RTC event: logged now with main supply, at the next start-up without it. -/
def rtcEvent (code a b : Nat) (s : State) : State :=
  if s.pwr.main then s.raise srcRtc code a b else s.modRtc fun r => { r with unlogged := r.unlogged ++ [(r.count, code, a, b)] }

/-- An alarm fires (R469, R470): `flags` holds STEPPED and DELAYED at their places. -/
def fireAlarm (a flags : Nat) (s : State) : State :=
  let bat := if s.pwr.main then 0 else 1
  let s := s.setReg (R.RTC_ALARM_STATE a) (BitVec.ofNat 32 (2 + flags + 16 * bat))
  let s := s.rtcEvent Ev.RTC_ALARM (a + 2 ^ 8 * (flags / 4) + 2 ^ 10 * bat) (s.reg (R.RTC_ALARM_SEC_LO a)).toNat
  if s.pwr.main then s.notify 28 else s

/-- Armed alarms whose time lies in `(old, new]` fire. -/
def fireBetween (old new : Instant) (flags : Nat) (s : State) : State :=
  (List.range 4).foldl (fun s a =>
    if s.alarmArmed a ∧ old < s.alarmTime a ∧ s.alarmTime a ≤ new then s.fireAlarm a flags else s) s

/-- The weekday advances by the days that counting has taken the local view forward (R465). -/
def countDays (before : Int) (s : State) : State :=
  let d := s.localDay - before
  if 0 < d then s.modRtc fun r => { r with weekday := (r.weekday + d.toNat) % 7 } else s

/-- A step of the count (R470). -/
def rtcStep (new : Instant) (s : State) : State :=
  let old := s.rtc.count
  ((s.modRtc fun r => { r with count := new, secTick := false }).bump R.RTC_WRITES 1).fireBetween old new 4

/-- A difference of counts in whole seconds, or in ms with `per` 1000, saturating. -/
def stepIn (per : Nat) (d : Int) (s : State) : Nat × State :=
  let (v, s) := s.roundFree 50 (d * per) (2 ^ 32)
  (ofSigned 32 (clampInt (-2147483648) 2147483647 v), s)

/-- HALT ends (R467): a halted write is a step from the count at the halt, and the halted ticks count, when asked. -/
def rtcRelease (add : Bool) (s : State) : State :=
  let written := s.regBit R.RTC_STATUS 4
  let s : State :=
    if written then ((s.bump R.RTC_WRITES 1).fireBetween s.rtc.heldAt s.rtc.count 4) else s
  let ticks := (s.reg R.RTC_HALT_TICKS).toNat
  let blocks := (s.rtc.subAtHalt + ticks) / 1024
  let old := s.rtc.count
  let day := s.localDay
  let new := ((old : Int) + ((ticks * 2 ^ 17 : Nat) : Int) + (blocks : Int) * s.rtcCal).toNat % 2 ^ 80
  let s : State :=
    if add then (((s.modRtc fun r => { r with count := new }).countDays day).fireBetween old new 8) else s
  (s.setReg R.RTC_HALT_TICKS 0).modReg R.RTC_STATUS fun w => w &&& ~~~0x1A

/-- A waiting operation is taken at the edge (R460 to R470): the status of its command and RESULT0. -/
def rtcTake (op : RtcOp) (s : State) : State × Status × Nat :=
  match op with
  | .write v calendar =>
    let (b, s) := s.stepIn 1 ((v : Int) - s.rtc.count)
    let halted := s.rtcHalt
    let s : State := if halted then
        (s.modRtc fun r => { r with count := v }).setRegBit R.RTC_STATUS 4 true
      else s.rtcStep v
    let s := (s.setRegBit R.RTC_STATUS 0 true).rtcEvent Ev.RTC_SET (if calendar then 1 else 2) b
    let s := if !halted ∧ s.regBit R.RTC_CTRL 0 then s.stepTime ((v : Int) - s.now) true else s
    (s, .ok, 0)
  | .halt =>
    if s.rtcHalt then (s, .ok, 0)
    else
      let s := s.modRtc fun r => { r with heldAt := r.count, subAtHalt := r.sub, secTick := false, stepTo := none }
      ((s.setReg R.RTC_HALT_TICKS 0).setRegBit R.RTC_STATUS 1 true, .ok, 0)
  | .release add =>
    let written := s.regBit R.RTC_STATUS 4
    if !s.rtcHalt then (s, .ok, 0)
    else if written ∧ s.regBit R.RTC_CTRL 0 ∧ !s.stepAllowed then (s, .timeStepRefused, 0)
    else
      let (b, s) := s.stepIn 1 (if written then (s.rtc.count : Int) - s.rtc.heldAt else 0)
      let s := s.rtcRelease add
      let s := if written ∧ s.regBit R.RTC_CTRL 0 then s.stepTime ((s.rtc.count : Int) - s.now) true else s
      (s.rtcEvent Ev.RTC_SET 3 b, .ok, 0)
  | .arm a t =>
    if t ≤ s.rtc.count then (s, .alarmInvalid, 1)
    else
      let s := s.setReg (R.RTC_ALARM_SEC_LO a) (BitVec.ofNat 32 (t / 2 ^ 32))
      let s := s.setReg (R.RTC_ALARM_SEC_HI a) (BitVec.ofNat 32 (t / 2 ^ 64))
      ((s.setReg (R.RTC_ALARM_FRAC a) (BitVec.ofNat 32 t)).setReg (R.RTC_ALARM_STATE a) 1, .ok, 0)
  | .zone off z =>
    ((s.setReg R.RTC_UTC_OFFSET (BitVec.ofNat 32 (off + 256 * z))).rtcEvent Ev.RTC_UTC (off + 256 * z) 0, .ok, 0)

/-- Takes the waiting operations in order and completes their commands. [DESIGN CHOICE, log entry 160] -/
def rtcTakeAll : List (Nat × RtcOp) → State → State
  | [], s => s
  | (n, op) :: rest, s =>
    let (s, st, r0) := s.rtcTake op
    rtcTakeAll rest (s.completeWaiting (.rtcEdge n) st r0)

/-- The count of a tick (R454, R465, R466). -/
def rtcCount (s : State) : State :=
  let wrap := s.rtc.sub == 1023
  let s := s.modRtc fun r => { r with sub := (r.sub + 1) % 1024 }
  if s.rtcHalt then s.bump R.RTC_HALT_TICKS 1
  else
    let adj := if s.rtc.adjLeft = 0 then 0 else (s.reg R.RTC_FOLLOW_ADJ).toInt
    let d : Int := 2 ^ 17 + (if wrap then s.rtcCal + adj else 0)
    let day := s.localDay
    let old := s.rtc.count
    let new := ((old : Int) + d).toNat % 2 ^ 80
    (s.modRtc fun r => { r with
      count := new, adjLeft := if wrap then r.adjLeft - 1 else r.adjLeft,
      secTick := decide (old / 2 ^ 32 < new / 2 ^ 32) }).countDays day

/-- RTC_TICK (R454): the count, the step of R457, and what waits for the tick. [DEDUCED, log entry 104] -/
def rtcTick (s : State) : State :=
  let s := s.rtcCount
  let step := s.rtc.stepTo
  let s : State := match step with
    | some d =>
      let s := s.modRtc fun r => { r with stepTo := none }
      if s.following then
        let (b, s) := s.stepIn 1000 ((d : Int) - s.rtc.count)
        (s.rtcStep d).rtcEvent Ev.RTC_FOLLOW_STEP 0 b
      else s
    | none => s
  let pend := s.rtc.pend
  let s := rtcTakeAll pend (s.modRtc fun r => { r with pend := [] })
  let s := s.setRegBit R.RTC_STATUS 2 s.following
  if s.following then s
  else (s.setReg R.RTC_FOLLOW_ADJ 0).modRtc fun r => { r with learnSum := 0, learnN := 0, stepTo := none }

/-- The nearest whole number; a tie is broken freely, since the spec says only "rounded".
[DESIGN CHOICE, log entry 105] -/
def roundNearest (tag : Nat) (n : Int) (d : Nat) (s : State) : Int × State :=
  if 2 * (n % d) = d then s.roundFree tag n d else ((2 * n + d) / (2 * d : Nat), s)

/-- RTC_FOLLOW_UPDATE (R457). -/
def followUpdate (s : State) : State :=
  if !s.following ∨ !s.rtc.secTick then s
  else
    let s := s.modRtc fun r => { r with secTick := false }
    let d : Int := (s.now : Int) - s.rtc.count
    if s.regField R.RTC_FOLLOW_STEP 15 0 * 2 ^ 32 ≤ d.natAbs * 1000 then
      let now := s.now
      s.modRtc fun r => { r with stepTo := some now }
    else
      let (q, s) := s.roundNearest 51 d 512
      let adj := clampInt (-131072) 131072 q
      let locked := s.servo = 2
      (s.setReg R.RTC_FOLLOW_ADJ (BitVec.ofInt 32 adj)).modRtc fun r => { r with
        adjLeft := 32, learnSum := if locked then r.learnSum + adj else 0, learnN := if locked then r.learnN + 1 else 0 }

/-- RTC_CAL_LEARN (R458). -/
def calLearn (s : State) : State :=
  if s.rtc.learnN < 4096 then s
  else
    let (m, s) := s.roundNearest 52 s.rtc.learnSum s.rtc.learnN
    let s := s.modRtc fun r => { r with learnSum := 0, learnN := 0 }
    if s.regBit R.RTC_CTRL 1 then
      (s.setReg R.RTC_CAL (BitVec.ofInt 32 (clampInt (-32767) 32767 (s.rtcCal + m)))).setRegBit R.RTC_STATUS 0 true
    else s

/-- RTC_ALARM_FIRE: counting has brought the count to the time of an armed alarm or beyond it (R469). -/
def alarmFire (a : Nat) (s : State) : State :=
  if s.alarmArmed a ∧ !s.rtcHalt ∧ s.alarmTime a ≤ s.rtc.count then s.fireAlarm a 0 else s

/-- A change of offset and zone that counts as counting (R462, R465). -/
def changeUtc (off z cause : Nat) (s : State) : State :=
  let day := s.localDay
  ((s.setReg R.RTC_UTC_OFFSET (BitVec.ofNat 32 (off + 256 * z))).countDays day).rtcEvent Ev.RTC_UTC (off + 256 * z) cause

/-- UTC_CHANGE_SCHEDULED: a scheduled change is due, or PTP gives another offset (R462). -/
def utcChange (s : State) : State :=
  let at_ := s.regField R.RTC_UTC_AT_HI 15 0 * 2 ^ 32 + (s.reg R.RTC_UTC_AT_LO).toNat
  let s : State :=
    if s.regBit R.RTC_UTC_NEXT 16 ∧ !s.rtcHalt ∧ at_ ≤ s.rtc.count / 2 ^ 32 then
      (s.setRegBit R.RTC_UTC_NEXT 16 false).changeUtc (s.regField R.RTC_UTC_NEXT 7 0) (s.regField R.RTC_UTC_NEXT 15 8) 1
    else s
  let ptp := s.regField R.TIME_PTP_UTC 15 0
  if s.regBit R.RTC_CTRL 2 ∧ s.pwr.main ∧ s.regBit R.TIME_PTP_UTC 16 ∧ ptp ≠ s.utcOffset then
    if ptp < 256 then s.changeUtc ptp (s.regField R.RTC_UTC_OFFSET 15 8) 2 else s
  else s

/-- HALT_TICKS_OVERFLOW (R466). -/
def haltOverflow (s : State) : State :=
  if s.rtcHalt ∧ s.reg R.RTC_HALT_TICKS = 0xFFFFFFFF ∧ !s.regBit R.RTC_STATUS 3 then
    (s.setRegBit R.RTC_STATUS 3 true).rtcEvent Ev.RTC_HALT_OVF 0 0
  else s

/-- RTC_AUTO_RELEASE: main supply has failed while HALT is 1 (R468). -/
def autoRelease (s : State) : State :=
  if s.pwr.main ∨ !s.rtcHalt then s else (s.rtcRelease true).rtcEvent Ev.RTC_AUTO_RELEASE 0 0

/-! ### Commands (R472) -/

/-- A command whose operation waits for the next tick. [DEDUCED, log entry 104] -/
def rtcWait (op : RtcOp) (s : State) : State × CmdEnd :=
  let n := s.rtc.nextOp
  (s.modRtc fun r => { r with pend := r.pend ++ [(n, op)], nextOp := n + 1 }, .later (.rtcEdge n))

/-- RTC_READ. -/
def rtcRead (c : Cmd) (s : State) : State × CmdEnd :=
  let n := s.rtc.count
  (s, replyOr c (instantBytes n ++ calBytes (s.utcView n) ++ calBytes (s.localView n) ++
    leBytes 4 (s.reg R.RTC_STATUS).toNat ++ leBytes 4 (s.reg R.RTC_HALT_TICKS).toNat ++ leBytes 1 s.rtc.weekday ++
    leBytes 1 s.utcOffset ++ leBytes 1 (s.regField R.RTC_UTC_OFFSET 15 8) ++ [0]))

/-- A write of the count, once its value is valid (R459). -/
def rtcWrite (v : Instant) (calendar : Bool) (s : State) : State × CmdEnd :=
  if s.regBit R.RTC_CTRL 0 then
    if !s.stepAllowed then (s, .st .timeStepRefused)
    else if s.timeSource = 2 ∧ v % 2 ^ 32 ≠ 0 then (s, .st .badParam 8)
    else s.rtcWait (.write v calendar)
  else s.rtcWait (.write v calendar)

/-- RTC_SET_CALENDAR (R464). -/
def rtcSetCalendar (c : Cmd) (s : State) : State × CmdEnd :=
  let y := c.p 0 2
  let m := c.p 2 1
  let d := c.p 3 1
  match firstBad [(decide (y < 2000 ∨ 2399 < y), 0), (decide (m < 1 ∨ 12 < m), 2), (decide (d < 1 ∨ monthDays y m < d), 3),
      (decide (23 < c.p 4 1), 4), (decide (59 < c.p 5 1), 5), (decide (59 < c.p 6 1), 6), (decide (c.p 7 1 ≠ 0), 7)] with
  | some off => (s, .st .dateInvalid off)
  | none =>
    let l : Int := dayNumber y m d * 86400 + ((3600 * c.p 4 1 + 60 * c.p 5 1 + c.p 6 1 : Nat) : Int)
    let v := (l - 900 * s.zoneQuarters + s.utcOffset).toNat * 2 ^ 32 + c.p 8 4
    if settable v then s.rtcWrite v true else (s, .st .dateInvalid 0xFFFF)

/-- RTC_SET_COUNT. -/
def rtcSetCount (c : Cmd) (s : State) : State × CmdEnd :=
  let v := c.p 0 8 * 2 ^ 32 + c.p 8 4
  if settable v then s.rtcWrite v false else (s, .st .badParam 0)

/-- RTC_HALT. -/
def rtcHaltCmd (_ : Cmd) (s : State) : State × CmdEnd := s.rtcWait .halt

/-- RTC_RELEASE. -/
def rtcReleaseCmd (c : Cmd) (s : State) : State × CmdEnd :=
  if 1 < c.p 0 4 then (s, .st .badParam 0) else s.rtcWait (.release (c.p 0 4 == 1))

/-- RTC_ALARM_SET. -/
def rtcAlarmSet (c : Cmd) (s : State) : State × CmdEnd :=
  if 3 < c.p 0 4 then (s, .st .alarmInvalid 0)
  else if 2 ^ 48 ≤ c.p 4 8 then (s, .st .badParam 4)
  else s.rtcWait (.arm (c.p 0 4) (c.p 4 8 * 2 ^ 32 + c.p 0xC 4))

/-- RTC_ALARM_CLEAR. -/
def rtcAlarmClear (c : Cmd) (s : State) : State × CmdEnd :=
  if 3 < c.p 0 4 then (s, .st .alarmInvalid 0) else (s.setReg (R.RTC_ALARM_STATE (c.p 0 4)) 0, .st .ok)

/-- RTC_SET_WEEKDAY. -/
def rtcSetWeekday (c : Cmd) (s : State) : State × CmdEnd :=
  if 6 < c.p 0 4 then (s, .st .badParam 0)
  else
    let d := c.p 0 4
    (s.modRtc fun r => { r with weekday := d }, .st .ok)

/-- RTC_UTC_OFFSET (R462). -/
def rtcUtcOffset (c : Cmd) (s : State) : State × CmdEnd :=
  let z := toSigned 8 (c.p 2 1)
  match firstBad [(decide (1 < c.p 0 1), 0), (decide (z < -64 ∨ 64 < z), 2), (decide (1 < c.p 3 1), 3),
      (c.p 0 1 == 1 && decide (c.p 4 8 ≤ s.rtc.count / 2 ^ 32 ∨ 2 ^ 48 ≤ c.p 4 8), 4)] with
  | some off => (s, .st .badParam off)
  | none =>
    let s := s.setRegBit R.RTC_CTRL 2 (c.p 3 1 == 1)
    if c.p 0 1 = 0 then s.rtcWait (.zone (c.p 1 1) (c.p 2 1))
    else
      let s := s.setReg R.RTC_UTC_NEXT (BitVec.ofNat 32 (c.p 1 1 + 256 * c.p 2 1 + 2 ^ 16))
      ((s.setReg R.RTC_UTC_AT_LO (BitVec.ofNat 32 (c.p 4 8))).setReg R.RTC_UTC_AT_HI (BitVec.ofNat 32 (c.p 4 8 / 2 ^ 32)),
        .st .ok)

end State

def execRtcRead (id : Nat) (s : State) : Res := hostRow Op.RTC_READ id State.rtcRead s
def execRtcSetCalendar (id : Nat) (s : State) : Res := hostRow Op.RTC_SET_CALENDAR id State.rtcSetCalendar s
def execRtcSetCount (id : Nat) (s : State) : Res := hostRow Op.RTC_SET_COUNT id State.rtcSetCount s
def execRtcHalt (id : Nat) (s : State) : Res := hostRow Op.RTC_HALT id State.rtcHaltCmd s
def execRtcRelease (id : Nat) (s : State) : Res := hostRow Op.RTC_RELEASE id State.rtcReleaseCmd s
def execRtcAlarmSet (id : Nat) (s : State) : Res := hostRow Op.RTC_ALARM_SET id State.rtcAlarmSet s
def execRtcAlarmClear (id : Nat) (s : State) : Res := hostRow Op.RTC_ALARM_CLEAR id State.rtcAlarmClear s
def execRtcSetWeekday (id : Nat) (s : State) : Res := hostRow Op.RTC_SET_WEEKDAY id State.rtcSetWeekday s
def execRtcUtcOffset (id : Nat) (s : State) : Res := hostRow Op.RTC_UTC_OFFSET id State.rtcUtcOffset s
def execRtcTick (x : TickIn) (s : State) : Res :=
  .next (x.upsets.foldl State.applyUpset ((s.rtcTick.tamperTick x.tamper).admitWaiting))
def execRtcFollowUpdate (s : State) : Res := .next s.followUpdate
def execRtcCalLearn (s : State) : Res := .next s.calLearn
def execRtcAlarmFire (a : Fin 4) (s : State) : Res := .next (s.alarmFire a)
def execUtcChangeScheduled (s : State) : Res := .next s.utcChange
def execHaltTicksOverflow (s : State) : Res := .next s.haltOverflow
def execRtcAutoRelease (s : State) : Res := .next s.autoRelease

end Sys2Proof.Machine
end

