-- ==== Sys2Proof/Machine/Can.lean ====
section
/-! DEFINITION. The CAN FD channels (spec 13). -/

namespace Sys2Proof.Machine

/-- Data bytes of a DLC in a frame with or without FDF (R477). -/
def dlcLen (fd : Bool) (dlc : Nat) : Nat :=
  if dlc ≤ 8 then dlc else if fd then nth 64 [12, 16, 20, 24, 32, 48, 64] (dlc - 9) else 8

/-- An entry of the queue is offered once. -/
def CanTx.oneShot (e : CanTx) : Bool := bit e.flags 2

/-- An entry is a remote frame. -/
def CanTx.rtr (e : CanTx) : Bool := bit e.flags 0

/-- The 80 MHz bit timing that R475 accepts: prescaler, segments and jump width, each as held (less one). -/
def bitTimingOk (brp t1 t2 sjw minRate minQuanta : Nat) : Bool :=
  let q := t1 + t2 + 3
  decide (minRate ≤ (brp + 1) * q ∧ minQuanta ≤ q ∧ sjw ≤ t2)

namespace State

/-! ### State of a channel -/

def canCh (s : State) (c : Nat) : CanCh := nth CanCh.empty s.can.chs c
def modCan (c : Nat) (f : CanCh → CanCh) (s : State) : State :=
  { s with can := { s.can with chs := modNth f s.can.chs c } }
/-- CH: 0 DISABLED, 1 STARTING, 2 ACTIVE, 3 STOPPING. -/
def canState (s : State) (c : Nat) : Nat := s.regField (R.CAN_STATE c) 1 0
/-- ERR: 0 ERROR_ACTIVE, 1 ERROR_PASSIVE, 2 BUS_OFF. -/
def canErr (s : State) (c : Nat) : Nat := s.regField (R.CAN_STATE c) 4 3
/-- A flag of CFG. -/
def canCfg (s : State) (c i : Nat) : Bool := s.regBit (R.CAN_CFG c) i
/-- REF_ROLE: 0 none, 1 master, 2 follower. -/
def canRefRole (s : State) (c : Nat) : Nat := s.regField (R.CAN_CFG c) 7 6
/-- REF_PERIOD as raw counts. -/
def canRefRaw (s : State) (c : Nat) : Nat := rawUs (1000 * s.regField (R.CAN_REF_PERIOD c) 15 0)

/-- Shows the queue (R496). -/
def showTxq (c : Nat) (s : State) : State :=
  let q := (s.canCh c).tx
  let h := q.head?
  s.setReg (R.CAN_TXQ c) (BitVec.ofNat 32 (q.length + 2 ^ 8 * ((h.map (·.clashes)).getD 0 % 4) +
    2 ^ 16 * (h.map (·.tag)).getD 0))

/-- Takes new error counters: WARNING, and a change between error-active and error-passive (R490).
[PRESUMED, log entry 106] -/
def setErrors (c tec rec_ : Nat) (s : State) : State :=
  let s := s.modCan c fun x => { x with tec := tec, rec_ := rec_ }
  let s := s.setReg (R.CAN_ERRCNT c) (BitVec.ofNat 32 (satTo 8 tec + 256 * satTo 8 rec_))
  let s := s.setRegBit (R.CAN_STATE c) 5 (decide (96 ≤ tec ∨ 96 ≤ rec_))
  let new := if 128 ≤ tec ∨ 128 ≤ rec_ then 1 else 0
  if s.canErr c = 2 ∨ s.canErr c = new then s
  else (s.setRegField (R.CAN_STATE c) 4 3 new).raise srcCan Ev.CAN_ERR_STATE c new

/-! ### Completion (R483) -/

/-- Ends a queue entry: its completion record goes into the ring, or is counted as lost. -/
def canComplete (c : Nat) (e : CanTx) (st : Status) (reason : Nat) (sof : Option Instant) (s : State) : State :=
  let n := s.regField (R.CAN_CFG c) 15 12
  if n = 0 then s
  else
    let size := 2 ^ n
    let tail := (s.reg (R.CAN_TXC_TAIL c)).toNat % size
    let head := (s.reg (R.CAN_TXC_HEAD c)).toNat % size
    if (tail + 1) % size = head then s.bump (R.CAN_TXC_LOST c) 1
    else
      let stamp := match sof with | some t => leBytes 4 (t % 2 ^ 32) ++ leBytes 4 (t / 2 ^ 32) | none => zeros 8
      let bytes := leBytes 2 e.tag ++ leBytes 2 st.code ++ leBytes 1 reason ++ leBytes 1 (if e.program then 1 else 0) ++
        leBytes 2 (satTo 16 e.attempts) ++ stamp
      (s.setBytes (s.reg64 (R.CAN_TXC_BASE_LO c) (R.CAN_TXC_BASE_HI c) + 16 * tail) bytes).setReg (R.CAN_TXC_TAIL c)
        (BitVec.ofNat 32 ((tail + 1) % size))

/-- The head entry ends. -/
def headEnds (c : Nat) (st : Status) (reason : Nat) (sof : Option Instant) (s : State) : State :=
  match (s.canCh c).tx with
  | [] => s
  | e :: rest => ((s.modCan c fun x => { x with tx := rest }).canComplete c e st reason sof).showTxq c

/-! ### Sending (R478 to R482, R497) -/

/-- The checks of R479 after the channel number, and the queueing; `off` is the offset of the frame header. -/
def canQueue (c off : Nat) (hdr data : List Byte) (program : Bool) (s : State) : State × Status × Nat :=
  let w : Word := BitVec.ofNat 32 (fieldAt hdr 0 4)
  let flags : Byte := BitVec.ofNat 8 (fieldAt hdr 5 1)
  let fd := bit w 30
  if !s.domOn 7 then (s, .domainOff, 7)
  else if s.canState c ≠ 1 ∧ s.canState c ≠ 2 then (s, .mode, 0)
  else if s.canErr c = 2 then (s, .busOff, 0)
  else
    match firstBad [((fd && !s.canCfg c 0) || (bit w 31 && !(fd && s.canCfg c 1)), off),
        (decide (15 < fieldAt hdr 4 1), off + 4), (bit flags 0 && fd || bit flags 1 || field flags 7 3 != 0, off + 5)] with
    | some o => (s, .badParam, o)
    | none =>
      if 32 ≤ (s.canCh c).tx.length then (s, .busy, 2)
      else
        let e : CanTx :=
          { idWord := w, dlc := fieldAt hdr 4 1, flags := flags, tag := fieldAt hdr 6 2,
            data := data.take (dlcLen fd (fieldAt hdr 4 1)), program := program, attempts := 0, clashes := 0,
            marked := false }
        let s := (s.modCan c fun x => { x with tx := x.tx ++ [e] }).showTxq c
        (s, .ok, (s.canCh c).tx.length)

/-- CAN_SEND. A DLC above 15 gives no length to check; the checks of R479 refuse it in their order. -/
def canSend (c : Cmd) (s : State) : State × CmdEnd :=
  let dlc := c.p 8 1
  let need := 12 + dlcLen (bit (BitVec.ofNat 32 (c.p 4 4)) 30) dlc
  if 3 < c.p 0 4 then (s, .st .badParam 0)
  else if dlc ≤ 15 ∧ c.len ≠ need then (s, badLen need)
  else
    let (s, st, r0) := s.canQueue (c.p 0 4) 4 (slice c.params 4 8) (c.params.drop 12) false
    (s, .st st r0)

/-- A program write to CAN.PSEND_HI by an initiator sends the record at the held address. [DEDUCED, log entry 30] -/
def psend (who : Nat) (v : Word) (s : State) : State :=
  let addr := (s.heldLo who R.CAN_PSEND_LO).toNat / 16 * 16 + 2 ^ 32 * field v 7 0
  let (s, st, r0) : State × Status × Nat :=
    if Sys2Proof.Machine.inside (addr, 80) (sramBase, sramSize) then
      let bs := s.bytesAt addr 80
      if 3 < fieldAt bs 0 4 then (s, .badParam, 0)
      else if fieldAt bs 4 4 ≠ 0 then (s, .badParam, 4)
      else s.canQueue (fieldAt bs 0 4) 8 (slice bs 8 8) (bs.drop 16) true
    else
      let (k, s) := s.draw 60
      (s, .badParam, k % 65536)
  let w : Word := BitVec.ofNat 32 (st.code + 0x10000 * r0)
  let s : State := { s with can := { s.can with psend := tput s.can.psend who w } }
  (s.setReg R.CAN_PSEND_HI (v &&& 0xFF)).dropHeld who R.CAN_PSEND_LO

/-- The frame of the head entry may be on the wire. [DESIGN CHOICE, log entry 107] -/
def headMayBeOnWire (s : State) (c : Nat) : Bool :=
  (s.canState c == 2 || s.canState c == 3) && s.canErr c != 2 && !s.canCfg c 4 && (s.canCh c).offers.isEmpty

/-- CAN_ABORT: whether the head's frame is on the wire at that moment is the bus's, and free (R481).
[DESIGN CHOICE, log entry 107] -/
def canAbort (c : Cmd) (s : State) : State × CmdEnd :=
  let k := c.p 0 4
  if 3 < k then (s, .st .badParam 0)
  else if 2 ^ 17 ≤ c.p 4 4 then (s, .st .badParam 4)
  else
    let hit (e : CanTx) : Bool := c.p 4 4 / 2 ^ 16 == 1 || e.tag == c.p 4 4 % 2 ^ 16
    let q := (s.canCh k).tx
    let (v, s) := s.draw 61
    let wire := s.headMayBeOnWire k && v % 2 == 1
    let (front, rest) := if wire then (q.take 1, q.drop 1) else ([], q)
    let front' := front.map fun e => if hit e then { e with marked := true } else e
    let gone := rest.filter hit
    let s := s.modCan k fun x => { x with tx := front' ++ rest.filter fun e => !hit e }
    let s := gone.foldl (fun s e => s.canComplete k e .canAborted 1 none) s
    (s.showTxq k, .st .ok (front.countP hit + gone.length))

/-- A transmit attempt of the reference service ends (R493). -/
def serviceEnd (c : Nat) (r : CanEnd) (sof : Instant) (s : State) : State :=
  match (s.canCh c).offers, r with
  | .ref :: rest, .sent =>
    let seq := (s.canCh c).refSeq
    let locked := if s.regField R.TIME_STATE 1 0 = 2 then 1 else 0
    let s := s.modCan c fun x => { x with offers := .fup seq sof :: rest, refSeq := (seq + 1) % 256 }
    s.emit (.can c (s.reg (R.CAN_REF_ID c)) 2 false (leBytes 1 seq ++ leBytes 1 locked))
  | .fup seq t :: rest, .sent =>
    (s.modCan c fun x => { x with offers := rest }).emit (.can c (s.reg (R.CAN_FUP_ID c)) 8 false
      (leBytes 1 seq ++ leBytes 3 (t % 2 ^ 32 / 256) ++ leBytes 4 (t / 2 ^ 32)))
  | _, _ => s

/-- A transmit attempt of the head entry ends (R481 to R484). -/
def entryEnd (c : Nat) (r : CanEnd) (sof : Instant) (s : State) : State :=
  match (s.canCh c).tx with
  | [] => s
  | e :: rest =>
    let clashes := if r = .clash then e.clashes + 1 else e.clashes
    let e := { e with attempts := e.attempts + 1, clashes := clashes }
    let s := (s.modCan c fun x => { x with tx := e :: rest }).showTxq c
    let once := e.oneShot || s.canCfg c 3
    match r with
    | .sent => (s.headEnds c .ok 0 (some sof)).emit (.can c e.idWord e.dlc e.rtr (if e.rtr then [] else e.data))
    | .arbLost =>
      if e.marked then s.headEnds c .canAborted 1 none else if once then s.headEnds c .canAborted 3 none else s
    | .error _ =>
      if e.marked then s.headEnds c .canAborted 1 none else if once then s.headEnds c .canAborted 4 none else s
    | .clash =>
      if e.marked then s.headEnds c .canAborted 1 none
      else if once then s.headEnds c .canAborted 4 none
      else if 3 ≤ clashes then
        ((s.headEnds c .idClash 5 none).raise srcCan Ev.CAN_ID_CLASH (c + 2 ^ 16 * e.tag) e.idWord.toNat).notify 26
      else s

/-- CAN_TRANSMIT_END. [PRESUMED, log entry 106] -/
def transmitEnd (c : Nat) (service : Bool) (r : CanEnd) (ago : Nat) (s : State) : State :=
  let x := s.canCh c
  let offered := if service then !x.offers.isEmpty else !x.tx.isEmpty
  if (s.canState c ≠ 2 ∧ s.canState c ≠ 3) ∨ s.canErr c = 2 ∨ 256 ≤ x.tec ∨ s.canCfg c 4 ∨ !offered then s
  else
    let sof := s.now - ago
    let s := match r with
      | .sent => (s.bump (R.CAN_TX_OK c) 1).setErrors c (x.tec - 1) x.rec_
      | .arbLost => s.bump (R.CAN_ARB_LOST c) 1
      | .error exempt => if exempt then s else s.setErrors c (x.tec + 8) x.rec_
      | .clash => (s.bump (R.CAN_CLASHES c) 1).setErrors c (x.tec + 8) x.rec_
    if service then s.serviceEnd c r sof else s.entryEnd c r sof

/-! ### Receiving (R485 to R489, R494) -/

/-- The first enabled filter that an identifier matches. -/
def canFilter (s : State) (c : Nat) (w : Word) : Option Nat :=
  (List.range 32).find? fun f =>
    let m := s.reg (R.CAN_FILT_MASK c f) &&& 0x1FFFFFFF
    let cfg := s.reg (R.CAN_FILT_CFG c f)
    bit cfg 0 && bit cfg 3 == bit w 29 && (w &&& m) == (s.reg (R.CAN_FILT_ID c f) &&& m)

/-- Stores a frame in the receive queue (R486). -/
def storeQueue (c filt : Nat) (f : CanFrame) (data : List Byte) (sof : Instant) (s : State) : State :=
  let n := s.regField (R.CAN_CFG c) 11 8
  let seq := (s.canCh c).rxSeq
  if n = 0 then s.bump (R.CAN_RX_DROPS c) 1
  else
    let s := s.modCan c fun x => { x with rxSeq := (seq + 1) % 2 ^ 32 }
    let size := 2 ^ n
    let tail := (s.reg (R.CAN_RXQ_TAIL c)).toNat % size
    if (tail + 1) % size = (s.reg (R.CAN_RXQ_HEAD c)).toNat % size then
      let s := s.bump (R.CAN_RX_OVERFLOW c) 1
      let k := (s.canCh c).ovSince + 1
      let due := match (s.canCh c).ovLogged with | none => true | some t => decide (t + rawUs 1000000 ≤ s.raw)
      if due then
        (s.modCan c fun x => { x with ovSince := 0, ovLogged := some s.raw }).raise srcCan Ev.CAN_RX_OVERFLOW c k
      else s.modCan c fun x => { x with ovSince := k }
    else
      let flags := (if f.rtr then 1 else 0) + (if f.esi then 2 else 0)
      let bytes := leBytes 4 f.idWord.toNat ++ leBytes 1 f.dlc ++ leBytes 1 flags ++ leBytes 2 filt ++
        instantBytes sof ++ leBytes 4 seq ++ zeros 8 ++ padTo 64 data
      (s.setBytes (s.reg64 (R.CAN_RXQ_BASE_LO c) (R.CAN_RXQ_BASE_HI c) + 96 * tail) bytes).setReg (R.CAN_RXQ_TAIL c)
        (BitVec.ofNat 32 ((tail + 1) % size))

/-- Stores a frame in latest-value buffer `b` (R487, R488). -/
def storeBuffer (b age : Nat) (f : CanFrame) (data : List Byte) (sof : Instant) (s : State) : State :=
  let old := s.reg (R.CAN_LVB_STATUS b)
  let s := s.setReg (R.CAN_LVB_ID b) f.idWord
  let s := s.setReg (R.CAN_LVB_TSEC b) (BitVec.ofNat 32 (sof / 2 ^ 32))
  let s := s.setReg (R.CAN_LVB_TFRAC b) (BitVec.ofNat 32 sof)
  let s := (List.range 16).foldl (fun s w =>
    s.setReg (R.CAN_LVB_DATA b w) (BitVec.ofNat 32 (fieldAt (padTo 64 data) (4 * w) 4))) s
  let s := s.setReg (R.CAN_LVB_STATUS b) (BitVec.ofNat 32
    (1 + 2 ^ 2 + 2 ^ 8 * ((field old 15 8 + 1) % 256) + 2 ^ 16 * data.length))
  { s with can := { s.can with lvb := tput s.can.lvb b (sof, age) } }

/-- The follower's part of a received frame (R494). -/
def refFollow (c : Nat) (f : CanFrame) (sof : Instant) (s : State) : State :=
  let is (a : Nat) : Bool := (f.idWord &&& 0x3FFFFFFF) == (s.reg a &&& 0x3FFFFFFF)
  if s.canRefRole c ≠ 2 then s
  else if is (R.CAN_REF_ID c) then
    s.modCan c fun x => { x with lastRef := some (fieldAt f.data 0 1, sof, s.raw) }
  else if is (R.CAN_FUP_ID c) then
    match (s.canCh c).lastRef with
    | some (seq, t, at_) =>
      if fieldAt f.data 0 1 = seq ∧ s.raw ≤ at_ + s.canRefRaw c ∧ f.data.length = 8 then
        let lo := fieldAt f.data 4 4
        let near := s.nowSec
        let base := near / 2 ^ 32 * 2 ^ 32 + lo
        let sec := if base + 2 ^ 31 < near then base + 2 ^ 32 else if near + 2 ^ 31 < base then base - 2 ^ 32 else base
        let (ns, s) := s.roundFree 62 (((sec * 2 ^ 32 + 256 * fieldAt f.data 1 3 : Nat) - (t : Int)) * 1000000000) (2 ^ 32)
        let s := s.setReg (R.CAN_REF_OFFSET c) (BitVec.ofInt 32 (clampInt (-2147483648) 2147483647 ns))
        let s := s.setReg (R.CAN_REF_STATUS c) (BitVec.ofNat 32 (1 + 256 * seq))
        s.modCan c fun x => { x with lastPair := s.raw }
      else s.bump (R.CAN_REF_REJECTS c) 1
    | none => s.bump (R.CAN_REF_REJECTS c) 1
  else s

/-- The checks of R485 on a valid frame. -/
def canSort (c : Nat) (f : CanFrame) (sof : Instant) (s : State) : State :=
  let len := dlcLen (bit f.idWord 30) f.dlc
  let data := if f.rtr then [] else padTo len f.data
  match s.canFilter c f.idWord with
  | none => if s.canCfg c 5 then s.storeQueue c 0xFFFF f data sof else s.bump (R.CAN_RX_DROPS c) 1
  | some k =>
    let cfg := s.reg (R.CAN_FILT_CFG c k)
    let target := field cfg 2 1
    if target = 0 then s
    else if data.length < field cfg 16 10 then s.bump (R.CAN_RX_DROPS c) 1
    else
      let s := if target % 2 = 1 then s.storeQueue c k f data sof else s
      if 2 ≤ target then s.storeBuffer (field cfg 9 4) (field cfg 31 20) f data sof else s

/-- CAN_FRAME_RECEIVED. [PRESUMED, log entry 106] -/
def canReceive (c : Nat) (f : CanFrame) (ago : Nat) (valid dominant : Bool) (s : State) : State :=
  let x := s.canCh c
  if (s.canState c ≠ 2 ∧ s.canState c ≠ 3) ∨ s.canErr c = 2 then s
  else if bit f.idWord 30 ∧ !s.canCfg c 0 then s.bump (R.CAN_RX_DROPS c) 1
  else if !valid then
    if s.canCfg c 4 then s else s.setErrors c x.tec (x.rec_ + if dominant then 8 else 1)
  else
    let sof := s.now - ago
    let (v, s) := s.draw 63
    let rec_ := if 127 < x.rec_ then 119 + v % 9 else x.rec_ - 1
    let s := if s.canCfg c 4 then s else s.setErrors c x.tec rec_
    ((s.bump (R.CAN_RX_OK c) 1).canSort c f sof).refFollow c f sof

/-- LVB_AGE_STALE (R488). -/
def lvbStale (b : Nat) (s : State) : State :=
  match tget s.can.lvb b with
  | some (sof, age) =>
    if s.regField (R.CAN_LVB_STATUS b) 3 2 = 1 ∧ age ≠ 0 ∧ sof + usToUnits (10000 * age) ≤ s.now then
      s.setRegField (R.CAN_LVB_STATUS b) 3 2 2
    else s
  | none => s

/-- A write to `CAN.LVB_STATUS[b]`: 1 to NEW clears it (R487). -/
def lvbWrite (b : Nat) (v : Word) (s : State) : State :=
  if bit v 0 ∧ s.domOn 7 then s.setRegBit (R.CAN_LVB_STATUS b) 0 false else s

/-- A head write of a ring of `2^n` entries: ignored where it would pass the tail (R483, R486). -/
def ringHead (head tail n : Nat) (v : Word) (s : State) : State :=
  let size := 2 ^ n
  let h := (s.reg head).toNat % size
  let t := (s.reg tail).toNat % size
  let new := field v 11 0
  if n ≠ 0 ∧ new < size ∧ (new + size - h) % size ≤ (t + size - h) % size then s.setReg head (BitVec.ofNat 32 new) else s

/-- A write to CAN.RXQ_HEAD or CAN.TXC_HEAD. -/
def rxqHead (c : Nat) (v : Word) (s : State) : State :=
  s.ringHead (R.CAN_RXQ_HEAD c) (R.CAN_RXQ_TAIL c) (s.regField (R.CAN_CFG c) 11 8) v
def txcHead (c : Nat) (v : Word) (s : State) : State :=
  s.ringHead (R.CAN_TXC_HEAD c) (R.CAN_TXC_TAIL c) (s.regField (R.CAN_CFG c) 15 12) v

/-! ### Channel states (R476) -/

/-- A channel starts, error-active with its counters at 0. -/
def canStart (c : Nat) (pend : Bool) (s : State) : State :=
  let s := s.modCan c fun x => { x with pendStart := pend, tec := 0, rec_ := 0, offers := [], lastRef := none }
  (s.setReg (R.CAN_ERRCNT c) 0).setReg (R.CAN_STATE c) 1

/-- CAN_BUS_INTEGRATION: 11 recessive bits end STARTING. -/
def canUp (c : Nat) (s : State) : State :=
  if s.canState c ≠ 1 then s
  else
    let pend := if (s.canCh c).pendStart then 1 else 0
    let s := s.setRegField (R.CAN_STATE c) 1 0 2
    let s := s.modCan c fun x => { x with pendStart := false, refDue := s.raw + s.canRefRaw c }
    (s.raise srcCan Ev.CAN_CHANNEL_UP c pend).completeWaiting (.canOn c) .ok 0

/-- A channel stops; an enable that waits for it ends without it. -/
def canStop (c : Nat) (s : State) : State :=
  (s.setRegField (R.CAN_STATE c) 1 0 3).completeWaiting (.canOn c) .aborted 0

/-- CAN_CHANNEL_STOPPED. -/
def canDown (c : Nat) (s : State) : State :=
  if s.canState c ≠ 3 then s
  else
    let pend := s.regBit (R.CAN_STATE c) 2
    let q := (s.canCh c).tx
    let s := s.modCan c fun x => { x with tx := [], offers := [] }
    let s := (q.foldl (fun s e => s.canComplete c e .canAborted 2 none) s).showTxq c
    let s := s.modReg (R.CAN_STATE c) fun w => w &&& ~~~0x47
    let s := (s.raise srcCan Ev.CAN_CHANNEL_DOWN c 0).completeWaiting (.canOff c) .ok 0
    if pend then s.canStart c true else s

/-- CAN_ENABLE. -/
def canEnable (c : Cmd) (s : State) : State × CmdEnd :=
  let k := c.p 0 4
  if 3 < k ∨ !s.canCfg k 31 then (s, .st .badParam 0)
  else match s.canState k with
    | 0 => (s.canStart k false, .later (.canOn k))
    | 1 => (s, .later (.canOn k))
    | 2 => (s, .st .ok)
    | _ => (s.setRegBit (R.CAN_STATE k) 2 true, .st .pending)

/-- CAN_DISABLE. -/
def canDisable (c : Cmd) (s : State) : State × CmdEnd :=
  let k := c.p 0 4
  if 3 < k then (s, .st .badParam 0)
  else match s.canState k with
    | 0 => (s, .st .ok)
    | 3 =>
      if s.regBit (R.CAN_STATE k) 2 then
        ((s.setRegBit (R.CAN_STATE k) 2 false).raise srcCan Ev.CAN_ENABLE_CANCELLED k 0, .later (.canOff k))
      else (s, .later (.canOff k))
    | _ => (s.canStop k, .later (.canOff k))

/-- BUS_OFF: the channel enters bus-off (R491). [PRESUMED, log entry 106] -/
def busOff (c : Nat) (s : State) : State :=
  if (s.canCh c).tec < 256 ∨ s.canErr c = 2 ∨ (s.canState c ≠ 2 ∧ s.canState c ≠ 3) then s
  else
    let auto := s.canCfg c 2
    let s := s.modCan c fun x => { x with offers := [], recAuto := auto }
    let s := (s.setRegField (R.CAN_STATE c) 4 3 2).raise srcCan Ev.CAN_ERR_STATE c 2
    let s := (s.raise srcCan Ev.CAN_BUS_OFF c (s.canCh c).tx.length).bump (R.CAN_BUS_OFFS c) 1
    (s.setRegBit (R.CAN_STATE c) 6 (auto && s.canState c == 2)).notify 26

/-- BUS_OFF_RECOVERED (R492). -/
def busRecovered (c : Nat) (s : State) : State :=
  if !s.regBit (R.CAN_STATE c) 6 then s
  else
    let auto := if (s.canCh c).recAuto then 1 else 0
    let s := s.modReg (R.CAN_STATE c) fun w => w &&& ~~~0x78
    let s := (s.raise srcCan Ev.CAN_ERR_STATE c 0).setErrors c 0 0
    let s := s.modCan c fun x => { x with recAuto := false, refDue := s.raw + s.canRefRaw c }
    s.raise srcCan Ev.CAN_RECOVERED c auto

/-- CAN_RECOVER (R492). -/
def canRecover (c : Cmd) (s : State) : State × CmdEnd :=
  let k := c.p 0 4
  if 3 < k then (s, .st .badParam 0)
  else if s.canErr k ≠ 2 then (s, .st .ok)
  else if s.regBit (R.CAN_STATE k) 6 then (s, .st .pending)
  else ((s.modCan k fun x => { x with recAuto := false }).setRegBit (R.CAN_STATE k) 6 true, .st .pending)

/-- CAN_REF_PERIOD: a reference frame not sent within its period is dropped, and the next one is offered (R493). -/
def refPeriod (c : Nat) (s : State) : State :=
  let x := s.canCh c
  if s.canRefRole c ≠ 1 ∨ s.canState c ≠ 2 ∨ s.canErr c = 2 ∨ s.canCfg c 4 ∨ s.raw < x.refDue then s
  else s.modCan c fun x =>
    { x with offers := (x.offers.filter fun o => decide (o ≠ .ref)) ++ [.ref], refDue := x.refDue + s.canRefRaw c }

/-- CAN_REF_STALE (R494). -/
def refStale (c : Nat) (s : State) : State :=
  if s.canRefRole c = 2 ∧ s.regField (R.CAN_REF_STATUS c) 1 0 = 1 ∧ (s.canCh c).lastPair + 3 * s.canRefRaw c ≤ s.raw then
    (s.setRegField (R.CAN_REF_STATUS c) 1 0 2).raise srcCan Ev.CAN_REF_STALE c 0
  else s

/-! ### CAN_CONFIG and CAN_STATUS -/

/-- An ID word that a channel with this CFG can send. -/
def idWordOk (cfg w : Word) : Bool :=
  (bit w 29 || field w 28 11 == 0) && (!bit w 30 || bit cfg 0) && (!bit w 31 || (bit w 30 && bit cfg 1))

/-- A ring size that CFG may hold. -/
def ringLogOk (n : Nat) : Bool := n == 0 || (decide (4 ≤ n) && decide (n ≤ 12))

/-- The offset of the first parameter of CAN_CONFIG that is refused (R475, R496). -/
def canConfigBad (c : Cmd) : Option Nat :=
  let cfg : Word := BitVec.ofNat 32 (c.p 4 4)
  let nbt : Word := BitVec.ofNat 32 (c.p 8 4)
  let dbt : Word := BitVec.ofNat 32 (c.p 0xC 4)
  let role := field cfg 7 6
  let ring (off n size align : Nat) : Bool :=
    n != 0 && (c.p off 8 % align != 0 || !Sys2Proof.Machine.inside (c.p off 8, size * 2 ^ n) (sramBase, sramSize))
  let filt (f : Nat) : List (Bool × Nat) :=
    let o := 0x30 + 12 * f
    let w : Word := BitVec.ofNat 32 (c.p (o + 8) 4)
    [(decide (2 ^ 29 ≤ c.p o 4), o), (decide (2 ^ 29 ≤ c.p (o + 4) 4), o + 4),
     (decide (64 < field w 16 10) || field w 19 17 != 0, o + 8)]
  firstBad ([
    ((bit cfg 1 && !bit cfg 0) || role == 3 || !ringLogOk (field cfg 11 8) || !ringLogOk (field cfg 15 12) ||
      field cfg 29 16 != 0, 4),
    (!bitTimingOk (field nbt 7 0) (field nbt 15 8) (field nbt 22 16) (field nbt 29 23) 80 8 || field nbt 31 30 != 0, 8),
    (!bitTimingOk (field dbt 4 0) (field dbt 9 5) (field dbt 13 10) (field dbt 17 14) 10 5 || field dbt 31 26 != 0, 0xC),
    (ring 0x10 (field cfg 11 8) 96 64, 0x10), (ring 0x18 (field cfg 15 12) 16 16, 0x18),
    (role != 0 && !idWordOk cfg (BitVec.ofNat 32 (c.p 0x20 4)), 0x20),
    (role != 0 && !idWordOk cfg (BitVec.ofNat 32 (c.p 0x24 4)), 0x24),
    (role != 0 && decide (c.p 0x28 4 < 10 ∨ 60000 < c.p 0x28 4), 0x28)] ++
    ((List.range (c.p 0x2C 4)).map filt).flatten)

/-- The registers that CAN_CONFIG writes for channel `k`, with their values. -/
def canConfigRegs (c : Cmd) (k : Nat) : List (Nat × Nat) :=
  let n := c.p 0x2C 4
  [(R.CAN_CFG k, c.p 4 4 % 2 ^ 31 + 2 ^ 31), (R.CAN_NBT k, c.p 8 4), (R.CAN_DBT k, c.p 0xC 4),
   (R.CAN_RXQ_BASE_LO k, c.p 0x10 4 / 64 * 64), (R.CAN_RXQ_BASE_HI k, c.p 0x14 4),
   (R.CAN_TXC_BASE_LO k, c.p 0x18 4 / 16 * 16), (R.CAN_TXC_BASE_HI k, c.p 0x1C 4), (R.CAN_REF_ID k, c.p 0x20 4),
   (R.CAN_FUP_ID k, c.p 0x24 4), (R.CAN_REF_PERIOD k, c.p 0x28 4 % 2 ^ 16)] ++
  ((List.range 32).map fun f =>
    let v (o : Nat) : Nat := if f < n then c.p (0x30 + 12 * f + o) 4 else 0
    [(R.CAN_FILT_ID k f, v 0), (R.CAN_FILT_MASK k f, v 4), (R.CAN_FILT_CFG k f, v 8)]).flatten

/-- CAN_CONFIG. -/
def canConfig (c : Cmd) (s : State) : State × CmdEnd :=
  let k := c.p 0 4
  let n := c.p 0x2C 4
  if 3 < k then (s, .st .badParam 0)
  else if 32 < n then (s, .st .badParam 0x2C)
  else if c.len ≠ 48 + 12 * n then (s, badLen (48 + 12 * n))
  else if s.canState k ≠ 0 then (s, .st .mode)
  else
    match canConfigBad c with
    | some off => (s, .st .badParam off)
    | none => feramGate s <|
      ((canConfigRegs c k).foldl (fun s x => (s.setReg x.1 (BitVec.ofNat 32 x.2)).nvReg x.1) s, .st .ok)

/-- CAN_STATUS: what PD_FLD holds reads 0 while it is off (R47). -/
def canStatus (c : Cmd) (s : State) : State × CmdEnd :=
  let k := c.p 0 4
  if 3 < k then (s, .st .badParam 0)
  else
    let kept (i : Nat) : Bool := (decide (1 ≤ i) && decide (i ≤ 3)) || (decide (6 ≤ i) && decide (i ≤ 16))
    let w (i : Nat) : List Byte := leBytes 4 (if kept i || s.domOn 7 then (s.reg (R.CAN_STATE k + 4 * i)).toNat else 0)
    (s, replyOr c (((List.range 29).map w).flatten))

/-- PD_FLD reaches ON: a channel with START is enabled (R476). [DEDUCED, log entry 39] -/
def canDomainUp (s : State) : State :=
  (List.range 4).foldl (fun s c =>
    if s.canCfg c 30 ∧ s.canCfg c 31 ∧ s.canState c = 0 then s.canStart c false else s) s

/-- What PD_FLD holds of the channels is lost. [DEDUCED, log entry 41] -/
def canDomainDown (s : State) : State :=
  let s := (List.range 4).foldl (fun s c =>
    (s.completeWaiting (.canOn c) .domainOff 7).completeWaiting (.canOff c) .ok 0) s
  { s with can := { s.can with chs := List.replicate 4 CanCh.empty, lvb := [] } }

end State

def execCanConfig (id : Nat) (s : State) : Res := hostRow Op.CAN_CONFIG id State.canConfig s
def execCanEnable (id : Nat) (s : State) : Res := hostRow Op.CAN_ENABLE id State.canEnable s
def execCanDisable (id : Nat) (s : State) : Res := hostRow Op.CAN_DISABLE id State.canDisable s
def execCanSend (id : Nat) (s : State) : Res := hostRow Op.CAN_SEND id State.canSend s
def execCanAbort (id : Nat) (s : State) : Res := hostRow Op.CAN_ABORT id State.canAbort s
def execCanRecover (id : Nat) (s : State) : Res := hostRow Op.CAN_RECOVER id State.canRecover s
def execCanStatus (id : Nat) (s : State) : Res := hostRow Op.CAN_STATUS id State.canStatus s
def execCanBusIntegration (c : Fin 4) (s : State) : Res := .next (s.canUp c).admitWaiting
def execCanChannelStopped (c : Fin 4) (s : State) : Res := .next (s.canDown c).admitWaiting
def execCanFrameReceived (c : Fin 4) (f : CanFrame) (ago : Nat) (valid dominant : Bool) (s : State) : Res :=
  .next (s.canReceive c f ago valid dominant)
def execCanTransmitEnd (c : Fin 4) (service : Bool) (r : CanEnd) (ago : Nat) (s : State) : Res :=
  .next (s.transmitEnd c service r ago)
def execBusOff (c : Fin 4) (s : State) : Res := .next (s.busOff c)
def execBusOffRecovered (c : Fin 4) (s : State) : Res := .next (s.busRecovered c)
def execCanRefPeriod (c : Fin 4) (s : State) : Res := .next (s.refPeriod c)
def execCanRefStale (c : Fin 4) (s : State) : Res := .next (s.refStale c)
def execLvbAgeStale (b : Fin 64) (s : State) : Res := .next (s.lvbStale b)
def execLvbNewClear (b : Fin 64) (v : Word) (s : State) : Res := .next (s.lvbWrite b v)
def execPsendHiWrite (who : Fin 34) (v : Word) (s : State) : Res := .next (s.psend who v)
def execRxqHeadWrite (c : Fin 4) (v : Word) (s : State) : Res := .next (s.rxqHead c v)
def execTxcHeadWrite (c : Fin 4) (v : Word) (s : State) : Res := .next (s.txcHead c v)

end Sys2Proof.Machine
end

