-- ==== Sys2Proof/Machine/CycCmd.lean ====
section
/-! DEFINITION. The CYC commands (spec 06, R194, R213 to R243, R636). -/

namespace Sys2Proof.Machine

namespace State

/-! ### Views -/

/-- CYC.TASK_STATE of a task (R242). [DEDUCED, log entry 67] -/
def taskStateWord (s : State) (t : Nat) : Nat :=
  let x := s.task t
  let st :=
    if !s.taskEnabled t then 0
    else if x.stopped ∧ x.phase = .idle then 6
    else
      match x.phase with
      | .idle => 1 | .copyIn | .ready => 2 | .running | .copyOut => 3 | .preempted => 4 | .held => 5
  st + 2 ^ 8 * satTo 8 x.faults + 2 ^ 16 * satTo 8 x.overruns

/-- The status group of a task, 8 words (R242). -/
def taskGroup (s : State) (t : Nat) : List Byte :=
  leBytes 4 (s.taskStateWord t) ++
    ((List.range 7).map fun i => leBytes 4 (s.reg (R.CYC_TASK_STATE t + 4 * (i + 1))).toNat).flatten

/-- The image that the cycle engine runs. -/
def progImage (s : State) : List Byte := (s.cyc.prog.map (·.image)).getD []

/-- What image checks take from the state (R236, R307). -/
def imageEnv (s : State) : ImageEnv := { ddr := s.ddrArea, solver := s.loadedAreas none }

/-! ### The task table from registers (R193, R194) -/

/-- The entry that the registers of a task hold. -/
def regEnt (s : State) (t : Nat) : TaskEnt := ⟨(List.range 16).map fun w => (s.reg (R.CYC_TASK_CFG t + 4 * w)).toNat⟩

/-- The runs of a section map in shared data SRAM. -/
def sramRuns (s : State) (m : Nat × Nat) : List (Nat × Nat) := runsOf (s.bytesAt (sramBase + m.1) m.2) (m.2 / 4)

/-- What the validity of an entry for task `t` depends on. -/
def regCtx (s : State) (t : Nat) (e : TaskEnt) : TableCtx :=
  let img := s.progImage
  let base := (s.cyc.prog.map (·.codeBase)).getD 0
  let count (e : TaskEnt) : Nat := runCount (s.sramRuns e.inMap) + runCount (s.sramRuns e.outMap)
  let others := ((List.range 32).filter fun i => i != t).map fun i => s.regEnt i
  { others := others.map fun x => (x, count x)
    count := count e
    codeOk := fun x => decide (base ≤ x ∧ x < base + hCodeLen img)
    image := ((s.reg R.CYC_IMAGE_BASE).toNat, 16 * (s.reg R.CYC_SIGNALS).toNat)
    data := (hDataBase img - sramBase, if hDataBase img < sramBase then 0 else hDataLen img)
    inRuns := s.sramRuns e.inMap, outRuns := s.sramRuns e.outMap, signals := (s.reg R.CYC_SIGNALS).toNat
    otherOut := others.flatMap fun x => s.sramRuns x.outMap }

/-! ### Entering Run (R190, R191, R210, R212, R214, R217) -/

/-- What refuses a start: no program, DDR not ready, a segment too slow for its task, a logical core without a core. -/
def startRefusal (s : State) : Option CmdEnd :=
  let img := s.progImage
  let slow := (List.range 20).find? fun k =>
    match s.boundTask k, s.segCfg k with
    | some t, some c => decide (250 * s.period t < minCycleUs k c)
    | _, _ => false
  let dead := (List.range 16).find? fun l =>
    s.hlt.dead.contains l && (List.range 32).any fun t => s.taskEnabled t && s.lcore t == l
  if !s.loaded then some (.st .mode)
  else if !s.ddrReady ∧ 0 < hDataLen img ∧ s.areaInDdr (hDataBase img, hDataLen img) then some (.st .noDdr)
  else
    match slow, dead with
    | some k, _ => some (.st .badParam (0x100 + k))
    | none, some l => some (.st .noSpare l)
    | none, none => none

/-- Stop is left for Run; `cause` is parameter B of EV_CYC_MODE. -/
def enterRun (cold : Bool) (cause : Nat) (s : State) : State :=
  let i := tickOf s.now
  let fresh := s.cyc.fresh
  let s := if cold || fresh then s.initData else s
  let s := { s with cyc := { s.cyc with
    fresh := false, runFrom := s.now, fixedDue := none, autostart := false,
    tasks := s.cyc.tasks.map fun (x : TaskSt) => { x with stopped := false, seenTick := i, noStage := false } } }
  let s := (List.range 32).foldl (fun s t => s.setReg64 (R.CYC_CYCLE_LO t) (R.CYC_CYCLE_HI t) 0) s
  let s := if s.regBit R.CYC_CTRL 0 then s.enterFixed 0
    else (s.setRegBit R.CYC_MODE 2 false).setReg R.CYC_FRAME 0
  s.changeMode 1 cause

/-- Hold is left for Run: a held task continues after HOLDPT, and FIXED_REQ takes effect (R180, R210, R214). -/
def resumeRun (cold : Bool) (s : State) : State :=
  let i := tickOf s.now
  let s := if cold then s.initData else s
  let held := (List.range 32).filter fun t => (s.task t).phase == .held
  let s := { s with cyc := { s.cyc with
    runFrom := s.now,
    tasks := s.cyc.tasks.map fun (x : TaskSt) =>
      { x with seenTick := i, phase := if x.phase = CycPhase.held then .preempted else x.phase } } }
  let s := if s.regBit R.CYC_CTRL 0 ∧ !s.fixedRun then s.enterFixed 0 else s
  let s := s.changeMode 1 0
  let s := held.foldl (fun s t => s.checkOverrun t) s
  held.foldl (fun s t =>
    let l := s.lcore t
    let c := s.core l
    let s := if c.mode = .held then s.setCore l { c with mode := .idle, task := 0 } else s
    s.dispatchCore l) s

/-- CYC_STOP mode 1: every cycle is stopped, but a copy-out already begun completes; no station receives it, nor an
earlier cycle that waits for its boundary (R213, R214). -/
def stopNow (s : State) : State :=
  let begun := match s.cyc.xfer with | (t, true) :: _ => some t | _ => none
  let s := if s.changeState = 2 then s.abandonChange .aborted else s
  let s := (List.range 32).foldl (fun s t =>
    if !s.inside t then s.modTask t fun x => { x with stageFor := none }
    else if begun = some t then s.modTask t fun x => { x with noStage := true, draining := true }
    else ((s.dropXfer t).clearCore t .idle).modTask t fun x => { x with phase := .idle, stageFor := none }) s
  let s := (List.range 16).foldl (fun s l => s.dispatchCore l) s
  let s := { s with stn := { s.stn with segs := s.stn.segs.map fun (g : SegSt) => { g with staged := none } } }
  s.changeMode 0 0

end State

/-! ### Programs -/

/-- What a chunk makes of a partial image: the bytes so far, or none where it is out of order (R243). -/
def takeChunk (old : Option Chunks) (off total : Nat) (chunk : List Byte) : Option Chunks :=
  let load := if off = 0 then some ⟨total, []⟩ else old
  match load with
  | none => none
  | some l =>
    let all := l.bytes ++ chunk
    if l.total ≠ total ∨ l.bytes.length ≠ off ∨ total < all.length then none else some ⟨total, all⟩

/-- The last chunk of a program: checks, store, placement (R233, R236, R308). -/
def loadProgram (img : List Byte) (s : State) : State × CmdEnd :=
  match imageFault s.imageEnv img with
  | some k => (s, .st .imageInvalid k)
  | none =>
    let slot := 1 - s.nvNext.activeSlot
    let s := (s.writeSlot slot img).updNv fun n => { n with activeSlot := slot }
    let s := (s.placeProgram img).offlineSegs
    let s := { s with cyc := { s.cyc with tasks := List.replicate 32 TaskSt.empty, store := [], autostart := false } }
    (((s.rebind).emptyDescs slot).rebindDescs.solvShow, .st .ok)

/-- CYC_LOAD_PROGRAM; only the chunk that completes the image writes FeRAM (R123). -/
def cycLoadProgram (c : Cmd) (s : State) : State × CmdEnd :=
  roleGate s <|
    if !s.stopped then (s, .st .mode)
    else if s.changeState ≠ 0 then (s, .st .changeActive)
    else
      match takeChunk s.cyc.load (c.p 0 4) (c.p 4 4) (c.params.drop 8) with
      | none => ({ s with cyc := { s.cyc with load := none } }, .st .badParam)
      | some l =>
        if l.bytes.length < l.total then ({ s with cyc := { s.cyc with load := some l } }, .st .ok)
        else feramGate s <| loadProgram l.bytes { s with cyc := { s.cyc with load := none } }

/-! ### Modes -/

/-- CYC_START. -/
def cycStart (c : Cmd) (s : State) : State × CmdEnd :=
  roleGate s <|
    if !s.loaded then (s, .st .mode)
    else if 2 ≤ c.p 0 4 then (s, .st .badParam)
    else if s.mode = 1 then (s, .st .ok)
    else
      match s.startRefusal with
      | some e => (s, e)
      | none =>
        let cold := c.p 0 4 == 1
        (if s.mode = 0 then s.enterRun cold 0 else s.resumeRun cold, .st .ok)

/-- CYC_STOP. -/
def cycStop (c : Cmd) (s : State) : State × CmdEnd :=
  roleGate s <|
    match c.p 0 4 with
    | 0 => (s.enterStop 0, .st .ok)
    | 1 => (if s.mode = 0 then s else s.stopNow, .st .ok)
    | _ => (s, .st .badParam)

/-- CYC_HOLD. -/
def cycHold (_ : Cmd) (s : State) : State × CmdEnd :=
  if s.role ≠ 0 ∧ s.role ≠ 4 then (s, .st .role)
  else
    match s.mode with
    | 0 => (s, .st .mode)
    | 1 => (s.changeMode 2 0, .st .ok)
    | _ => (s, .st .ok)

/-- CYC_STATUS. -/
def cycStatus (c : Cmd) (s : State) : State × CmdEnd :=
  let b (a : Nat) : List Byte := leBytes 4 (s.reg a).toNat
  (s, replyOr c (b R.CYC_MODE ++ b R.CYC_CHANGE_STATUS ++ leBytes 4 s.cyc.forces.length ++ b R.CYC_LAST_SWITCH ++
    ((List.range 32).map s.taskGroup).flatten))

/-- CYC_TASK_CONFIG. [DESIGN CHOICE, log entry 132] -/
def cycTaskConfig (c : Cmd) (s : State) : State × CmdEnd :=
  roleGate s <|
    let t := c.p 0 4
    if !s.stopped ∨ !s.loaded then (s, .st .mode)
    else if 32 ≤ t then (s, .st .badParam)
    else
      let e := taskEntAt c.params 4
      let ctx := s.regCtx t e
      match firstFault ctx e with
      | some w => (s, .st .badParam w)
      | none =>
        let e : TaskEnt := ⟨e.words.take 14 ++ [runCount ctx.inRuns, runCount ctx.outRuns]⟩
        let outs := s.outEntries
        ((((s.installTask 0 t e).installOut outs t).showFrame.rebind).rebindDescs.solvShow, .st .ok)

/-! ### Forces -/

/-- The forces of a pending full change's conflicts: a symbol that the change deletes or retypes (R230). -/
def pendingConflict (s : State) (f : Force) : Bool :=
  match s.cyc.change with
  | some ch => !ch.values && (s.changeState == 1 || s.changeState == 2) && State.forceConflict (symbols ch.image) f
  | none => false

/-- CYC_FORCE_SET. [DEDUCED, log entry 64] -/
def cycForceSet (c : Cmd) (s : State) : State × CmdEnd :=
  roleGate s <|
    let id := c.p 0 4
    match s.symById id with
    | none => (s, .st .symbolUnknown)
    | some y =>
      let f : Force := ⟨id, BitVec.ofNat 8 (c.p 4 1), BitVec.ofNat 8 y.type, slice c.params 8 (typeSize y.type)⟩
      let known := s.cyc.forces.any (·.id == id)
      if y.kind < 1 ∨ 3 < y.kind then (s, .st .badParam)
      else if c.p 5 3 ≠ 0 then (s, .st .badParam 5)
      else if pendingConflict s f then (s, .st .forceConflict)
      else if !known ∧ 4096 ≤ s.cyc.forces.length then (s, .st .forceFull)
      else
        let fs := if known then s.cyc.forces.map fun g => if g.id = id then f else g else s.cyc.forces ++ [f]
        let s := { s with cyc := { s.cyc with forces := fs } }
        let s := if y.kind = 1 then s else s.writeForce (s.entryAddr y.loc) f false
        (s.raise srcCyc Ev.CYC_FORCE_SET id (c.p 8 4), .st .ok)

/-- CYC_FORCE_RELEASE. -/
def cycForceRelease (c : Cmd) (s : State) : State × CmdEnd :=
  roleGate s <|
    let id := c.p 0 4
    let all := id == 0xFFFFFFFF
    if !all ∧ (s.symById id).isNone then (s, .st .symbolUnknown)
    else
      let gone := s.cyc.forces.filter fun f => all || f.id == id
      let s := { s with cyc := { s.cyc with forces := s.cyc.forces.filter fun f => !(all || f.id == id) } }
      (gone.foldl (fun s f => s.raise srcCyc Ev.CYC_FORCE_RELEASED f.id 0) s, .st .ok gone.length)

/-- CYC_FORCE_LIST. -/
def cycForceList (c : Cmd) (s : State) : State × CmdEnd :=
  let fs := (s.cyc.forces.drop (c.p 0 4)).take (c.replyLen / 16)
  (s, replyOr c (fs.map fun f => leBytes 4 f.id ++ [f.quality, f.type] ++ zeros 2 ++ padTo 8 f.value).flatten)

/-! ### Online change -/

/-- The last chunk of a change package; a primary sends it to the peer as well (R222, R223, R236, R524).
[DEDUCED, log entry 151] -/
def loadChange (pkg : List Byte) (s : State) : State × CmdEnd :=
  let img := pkg.take (hLen pkg)
  let map := pkg.drop (hLen pkg)
  let old := s.progImage
  if 0x400000 < hLen pkg then (s, .st .imageTooLarge)
  else
    match changeFault s.imageEnv old img map with
    | some k => (s, .st .imageInvalid k)
    | none =>
      let s := (s.placeCode img (State.halfBase s.otherHalf)).placeTables img
      let s := if s.role = 1 ∧ s.linkUpNow then s.emit (.changePackage img) else s
      let s := { s with cyc := { s.cyc with change := some ⟨false, img, map, false, 0⟩ } }
      ((s.setRegField R.CYC_CHANGE_STATUS 2 0 1).setRegBit R.CYC_CHANGE_STATUS 3 false, .st .ok)

/-- CYC_CHANGE_LOAD. -/
def cycChangeLoad (c : Cmd) (s : State) : State × CmdEnd :=
  roleGate s <|
    if !s.loaded then (s, .st .imageInvalid 9)
    else if s.changeState ≠ 0 then (s, .st .changeActive)
    else if 0x400000 < hLen s.progImage then (s, .st .imageTooLarge)
    else
      match takeChunk s.cyc.changeLoad (c.p 0 4) (c.p 4 4) (c.params.drop 8) with
      | none => ({ s with cyc := { s.cyc with changeLoad := none } }, .st .badParam)
      | some l =>
        if l.bytes.length < l.total then ({ s with cyc := { s.cyc with changeLoad := some l } }, .st .ok)
        else loadChange l.bytes { s with cyc := { s.cyc with changeLoad := none } }

/-- CYC_CHANGE_APPLY. -/
def cycChangeApply (c : Cmd) (s : State) : State × CmdEnd :=
  roleGate s <|
    if s.mode = 2 then (s, .st .mode)
    else
      match s.cyc.change with
      | none => (s, .st .badParam 0xFFFF)
      | some ch =>
        if 2 ≤ s.changeState then (s, .st .changeActive)
        else if 2 ≤ c.p 0 4 then (s, .st .badParam)
        else
          let release := c.p 0 4 == 1
          let bad := if ch.values then none else s.cyc.forces.find? (State.forceConflict (symbols ch.image))
          match if release then none else bad with
          | some f => (s, .st .forceConflict (f.id % 65536) (f.id / 65536))
          | none =>
            let s := { s with cyc := { s.cyc with change := some { ch with releaseForces := release, waitFrom := s.raw } } }
            (s.setRegField R.CYC_CHANGE_STATUS 2 0 2, .st .pending)

/-- The first item of a value list that lies in no single variable or constant (R231). -/
def badItem (ys : List Sym) (items : List (Nat × List Byte)) : Option Nat :=
  (items.mapIdx fun i x => (i, x)).findSome? fun x =>
    let n := x.2.2.length
    let ok := decide (1 ≤ n ∧ n ≤ 4096) && ys.any fun y =>
      (y.kind == 4 || y.kind == 5) && inside (x.2.1, n) (y.loc, y.count * typeSize y.type)
    if ok then none else some x.1

/-- CYC_CHANGE_VALUES. -/
def cycChangeValues (c : Cmd) (s : State) : State × CmdEnd :=
  roleGate s <|
    let n := c.p 12 4
    if !s.loaded then (s, .st .mode)
    else if s.changeState ≠ 0 then (s, .st .changeActive)
    else if c.p 0 4 ≠ hProgramId s.progImage then (s, .st .badParam 0xFFF0)
    else if c.p 4 8 ≠ hBuildId s.progImage then (s, .st .badParam 0xFFF1)
    else if n = 0 ∨ 4096 < n then (s, .st .badParam 0xFFF2)
    else
      match splitValues n (c.params.drop 16) with
      | none => (s, badLen (16 + itemsLen n (c.params.drop 16)))
      | some items =>
        match badItem s.syms items with
        | some i => (s, .st .badParam i)
        | none =>
          if !s.valuesFit c.params then (s, .st .badParam 0xFFFE)
          else
            let s := { s with cyc := { s.cyc with change := some ⟨true, [], c.params, false, s.raw⟩ } }
            ((s.setRegField R.CYC_CHANGE_STATUS 2 0 2).setRegBit R.CYC_CHANGE_STATUS 3 true, .st .pending)

/-- CYC_CHANGE_CANCEL. [DEDUCED, log entry 64] -/
def cycChangeCancel (_ : Cmd) (s : State) : State × CmdEnd :=
  roleGate s <|
    if s.changeState = 3 then (s, .st .changeActive)
    else
      let s := { s with cyc := { s.cyc with change := none } }
      (((s.setRegField R.CYC_CHANGE_STATUS 2 0 0).setRegBit R.CYC_CHANGE_STATUS 3 false).flushDelayed, .st .ok)

/-! ### Signals -/

/-- CYC_READ_SIGNALS. -/
def cycReadSignals (c : Cmd) (s : State) : State × CmdEnd :=
  let n := c.p 0 4
  if n = 0 ∨ 4096 < n then (s, .st .badParam 0xFFFF)
  else if c.params.length ≠ 4 + 4 * n then (s, badLen (4 + 4 * n))
  else
    let ids := (List.range n).map fun i => c.p (4 + 4 * i) 4
    let bad := (ids.mapIdx fun i id => (i, id)).findSome? fun x =>
      match s.symById x.2 with
      | none => some (Status.symbolUnknown, x.1)
      | some y => if 1 ≤ y.kind ∧ y.kind ≤ 3 then none else some (Status.badParam, x.1)
    match bad with
    | some (st, i) => (s, .st st i)
    | none =>
      let entry (id : Nat) : List Byte :=
        let e := s.bytesAt (s.entryAddr ((s.symById id).elim 0 (·.loc))) 16
        e.take 10 ++ [if s.cyc.forces.any (·.id == id) then 1 else 0, 0] ++ e.drop 12
      (s, replyOr c (ids.map entry).flatten)

/-- CYC_WRITE_SIGNALS. -/
def cycWriteSignals (c : Cmd) (s : State) : State × CmdEnd :=
  roleGate s <|
    let n := c.p 0 4
    if s.mode = 1 then (s, .st .mode)
    else if n = 0 ∨ 1024 < n then (s, .st .badParam 0xFFFF)
    else if c.params.length ≠ 4 + 16 * n then (s, badLen (4 + 16 * n))
    else
      let ix := List.range n
      let bad := ix.findSome? fun i =>
        let id := c.p (4 + 16 * i) 4
        match s.symById id with
        | none => some (Status.symbolUnknown, i)
        | some y =>
          if y.kind < 2 ∨ 3 < y.kind ∨ s.cyc.forces.any (·.id == id) ∨ c.p (8 + 16 * i) 4 ≠ 0 then
            some (Status.badParam, i)
          else none
      match bad with
      | some (st, i) => (s, .st st i)
      | none =>
        (ix.foldl (fun s i =>
          match s.symById (c.p (4 + 16 * i) 4) with
          | some y => s.setBytes (s.entryAddr y.loc) (padTo 8 (slice c.params (12 + 16 * i) (typeSize y.type)))
          | none => s) s, .st .ok)

/-! ### Rows -/

/-- CYC_LOAD_PROGRAM (R233, R236, R243). -/
def execCycLoadProgram (id : Nat) (s : State) : Res := hostRow Op.CYC_LOAD_PROGRAM id cycLoadProgram s
/-- CYC_START (R214, R243). -/
def execCycStart (id : Nat) (s : State) : Res := hostRow Op.CYC_START id cycStart s
/-- CYC_STOP (R214, R243). -/
def execCycStop (id : Nat) (s : State) : Res := hostRow Op.CYC_STOP id cycStop s
/-- CYC_HOLD (R214, R215, R243). -/
def execCycHold (id : Nat) (s : State) : Res := hostRow Op.CYC_HOLD id cycHold s
/-- CYC_STATUS (R243). -/
def execCycStatus (id : Nat) (s : State) : Res := hostRow Op.CYC_STATUS id cycStatus s
/-- CYC_TASK_CONFIG (R194, R243). -/
def execCycTaskConfig (id : Nat) (s : State) : Res := hostRow Op.CYC_TASK_CONFIG id cycTaskConfig s
/-- CYC_FORCE_SET (R218, R220, R243). -/
def execCycForceSet (id : Nat) (s : State) : Res := hostRow Op.CYC_FORCE_SET id cycForceSet s
/-- CYC_FORCE_RELEASE (R220, R243). -/
def execCycForceRelease (id : Nat) (s : State) : Res := hostRow Op.CYC_FORCE_RELEASE id cycForceRelease s
/-- CYC_FORCE_LIST (R243). -/
def execCycForceList (id : Nat) (s : State) : Res := hostRow Op.CYC_FORCE_LIST id cycForceList s
/-- CYC_CHANGE_LOAD (R222, R223, R243). -/
def execCycChangeLoad (id : Nat) (s : State) : Res := hostRow Op.CYC_CHANGE_LOAD id cycChangeLoad s
/-- CYC_CHANGE_APPLY (R224, R243). -/
def execCycChangeApply (id : Nat) (s : State) : Res := hostRow Op.CYC_CHANGE_APPLY id cycChangeApply s
/-- CYC_CHANGE_VALUES (R231, R243). -/
def execCycChangeValues (id : Nat) (s : State) : Res := hostRow Op.CYC_CHANGE_VALUES id cycChangeValues s
/-- CYC_CHANGE_CANCEL (R230, R243). -/
def execCycChangeCancel (id : Nat) (s : State) : Res := hostRow Op.CYC_CHANGE_CANCEL id cycChangeCancel s
/-- CYC_READ_SIGNALS (R243). -/
def execCycReadSignals (id : Nat) (s : State) : Res := hostRow Op.CYC_READ_SIGNALS id cycReadSignals s
/-- CYC_WRITE_SIGNALS (R221, R243). -/
def execCycWriteSignals (id : Nat) (s : State) : Res := hostRow Op.CYC_WRITE_SIGNALS id cycWriteSignals s

end Sys2Proof.Machine
end

