-- ==== Sys2Proof/Machine/Metering.lean ====
section
/-! DEFINITION. Analog channels and electric sets, windows, demand, pulse outputs and the metering commands
(spec 10, R365 to R412). -/

namespace Sys2Proof.Machine

/-- A sample reaches the rails of the modulator (R369). -/
def atRail (x : Int) : Bool := x == 2 ^ 23 - 1 || x == -(2 ^ 23)

namespace State

/-! ### The analog front end (R366 to R371) -/

def anCh (s : State) (c : Nat) : AnCh := nth AnCh.empty s.met.analog c
def modAn (c : Nat) (f : AnCh → AnCh) (s : State) : State :=
  { s with met := { s.met with analog := modNth f s.met.analog c } }
def anCfg (s : State) (c : Nat) : AnCfg := (tget s.met.chans c).getD ⟨0, 0, 0, 0, 0⟩
/-- The user layer of a channel: gain 1, no offset and no delay before any. -/
def userCal (s : State) (c : Nat) : Nat × Int × Int := (s.met.cal[c]?).getD (0x3F800000, 0, 0)
def fcalOffset (s : State) (c : Nat) : Int := toSigned 24 (s.regField (R.MET_FCAL_OFFSET c) 23 0)
def fcalDelay (s : State) (c : Nat) : Int := toSigned 12 (s.regField (R.MET_FCAL_DELAY c) 11 0)

/-- Volts or amperes at the primary of one code (R366, steps 3 and 5). -/
def codeScale (s : State) (c : Nat) : Q :=
  ((Q.ofFp fp32 (s.userCal c).1).mul ⟨((s.reg (R.MET_FCAL_GAIN c)).toNat : Int), 2 ^ 30⟩).mul
    ((Q.ofFp fp32 (s.anCfg c).fullScale).mul ⟨1, 2 ^ 23⟩)

/-- The sample of a channel after offset and delay, in codes, and its raw code: a delay of whole samples takes the
stored sample; between samples the filter's value is a free one (R366, R368). [DESIGN CHOICE, log entry 78] -/
def delayed (c : Nat) (s : State) : (Int × Int) × State :=
  let d := s.fcalDelay c + (s.userCal c).2.2
  let at_ (i : Nat) : Int := nth 0 ((s.met.hist[i]?).getD (0, [])).2 c
  let off := s.fcalOffset c + (s.userCal c).2.1
  if d % 1024 = 0 then ((at_ (2 + d / 1024).toNat - off, at_ 2), s)
  else
    let (v, s) := s.draw 13
    ((toSigned 26 v, at_ 2), s)

/-- A raw code arrives: clipping and the peak register (R369, R370). -/
def rawCode (c : Nat) (x : Int) (s : State) : State :=
  let was := (s.anCh c).rail
  let s := s.modAn c fun a => { a with rail := atRail x, clip := a.clip || (was && atRail x) }
  let s := if was && atRail x then s.setRegBit (R.MET_CH_STATUS c) 2 true else s
  s.regMax (R.MET_CH_PEAK c) x.natAbs

/-- The peak check of R370. -/
def peakCheck (c : Nat) (y x : Int) (s : State) : State :=
  let k := s.anCfg c
  if k.kind = 0 ∨ k.peak = 0 ∨ !(Q.ofFp fp32 k.peak).lt ((s.codeScale c).mul (Q.ofInt y)).abs then s
  else
    let due := match (s.anCh c).peakLog with | none => true | some t => decide (t + rawUs 1000000 ≤ s.raw)
    let s := s.setRegBit (R.MET_CH_STATUS c) 4 true
    if due then (s.modAn c fun a => { a with peakLog := some s.raw }).raise srcMet Ev.MET_PEAK c (ofSigned 32 x) else s

/-- A half cycle of a current channel has ended (R375). -/
def halfCycle (c : Nat) (s : State) : State :=
  let a := s.anCh c
  let k := s.codeScale c
  let rms := Q.sqrtFp fp32 ((k.mul k).mul ⟨a.hcSq, max 1 a.hcN⟩)
  let s := s.setReg (R.MET_CH_HCRMS c) (BitVec.ofNat 32 rms)
  let lim := (s.anCfg c).overLimit
  let above := lim != 0 && (fpCompare fp32 1 lim rms).1
  let s := s.modAn c fun a => { a with hcSq := 0, hcN := 0, isOver := above }
  let s := if above then s.setRegBit (R.MET_CH_STATUS c) 3 true else s
  if above && !a.isOver then s.raise srcMet Ev.MET_OVERCURRENT c rms else s

/-- The enabled set that a current channel serves, and its voltage channel. -/
def setOf (s : State) (c : Nat) : Option (Nat × SetCfg) := s.met.sets.find? fun x => x.2.enable && x.2.i == c

/-- One sample of a current channel goes into its half cycle: ended by a zero crossing of the voltage beyond ±2 % of
the nominal peak, or after 160 samples without a usable voltage (R375). -/
def halfSample (c : Nat) (y : Int) (ys : List Int) (s : State) : State :=
  let s := s.modAn c fun a => { a with hcSq := a.hcSq + y * y, hcN := a.hcN + 1 }
  let fixed (s : State) : State := if 160 ≤ (s.anCh c).hcN then s.halfCycle c else s
  match s.setOf c with
  | none => fixed s
  | some (i, k) =>
    if s.regBit (R.MET_SET_STATE i) 3 then fixed s
    else
      let v := (s.codeScale k.v).mul (Q.ofInt (nth 0 ys k.v))
      let n := Q.ofFp fp32 (s.anCfg k.v).nominal
      let beyond := ((n.mul n).mul ⟨8, 10000⟩).lt (v.mul v)
      let pos := decide (0 < v.n)
      if beyond ∧ pos ≠ (s.anCh c).pos then (s.halfCycle c).modAn c fun a => { a with pos := pos } else s

/-- The products of a sample go into the present block (R371, R372). [DEDUCED, log entry 83] -/
def blockSample (t : Instant) (ys : List Int) (s : State) : State :=
  let analog := s.met.analog.mapIdx fun c a => { a with sq := a.sq + nth 0 ys c * nth 0 ys c }
  let vi := s.met.vi.mapIdx fun i x =>
    match s.setCfg i with
    | some k => x + nth 0 ys k.v * nth 0 ys k.i * (if k.invert then -1 else 1)
    | none => x
  let from_ := if s.met.blkTo = 0 then t - nsToUnits 62500 else s.met.blkFrom
  { s with met := { s.met with analog := analog, vi := vi, blkFrom := from_, blkTo := t, blkN := s.met.blkN + 1 } }

/-! ### Blocks of electric sets (R372 to R374) -/

/-- Sum and count over the last 20 blocks. -/
def overBlocks (h : List (Int × Nat)) : Q := ⟨h.foldl (fun m x => m + x.1) 0, max 1 (h.foldl (fun m x => m + x.2) 0)⟩

/-- The present block is full, or holds a boundary of a tariff or demand window (R372, R403). -/
def blockDue (s : State) : Bool :=
  let b := s.met.blkFrom / 2 ^ 32
  let hit (e : Nat) : Bool := e != 0 && decide (e * 2 ^ 32 ≤ s.met.blkTo)
  decide (160 ≤ s.met.blkN) || (decide (0 < s.met.blkN) && (hit (s.endAfter b) || hit (s.demandAfter b)))

/-- Units of 2^-20 Wh in a power over the block's duration, as a number to be rounded. -/
def blockEnergy (s : State) (p : Q) : Q := p.mul ⟨((s.met.blkTo - s.met.blkFrom) * 2 ^ 20 : Nat), 3600 * 2 ^ 32⟩

/-- The readings of a set over the last 20 blocks (R374); the reactive power and the frequency come from filters that
the spec gives by bounds only, and are free. [DESIGN CHOICE, log entry 78] -/
def setReadings (i : Nat) (k : SetCfg) (s : State) : State :=
  let sv := s.codeScale k.v
  let si := s.codeScale k.i
  let v2 := (sv.mul sv).mul (overBlocks (s.anCh k.v).hist)
  let i2 := (si.mul si).mul (overBlocks (s.anCh k.i).hist)
  let p := (sv.mul si).mul (overBlocks (nth [] s.met.viHist i))
  let n := Q.ofFp fp32 (s.anCfg k.v).nominal
  let low := (v2.mul (Q.ofInt 100)).lt (n.mul n)
  let sign := if p.n < 0 then 2 ^ 31 else 0
  let s2 := v2.mul i2
  let pf := if s2.n = 0 then 0 else sign + Q.sqrtFp fp32 ((p.mul p).div s2)
  let (q, s) := s.draw 14
  let (f, s) := s.draw 15
  let put (a v : Nat) (s : State) : State := s.setReg a (BitVec.ofNat 32 v)
  ((put (R.MET_SET_PF i) pf ∘ put (R.MET_SET_FREQ i) (if low then 0 else f) ∘
    put (R.MET_SET_IRMS i) (Q.sqrtFp fp32 i2) ∘ put (R.MET_SET_VRMS i) (Q.sqrtFp fp32 v2) ∘
    put (R.MET_SET_S i) (Q.sqrtFp fp32 s2) ∘ put (R.MET_SET_Q i) q ∘ put (R.MET_SET_P i) (Q.toFp fp32 p)) s).setRegBit
    (R.MET_SET_STATE i) 3 low

/-- Closes the present block of one enabled set: its energies and readings (R372 to R374).
[DESIGN CHOICE, log entry 78] -/
def closeSet (i : Nat) (k : SetCfg) (s : State) : State :=
  let n := max 1 s.met.blkN
  let sv := s.codeScale k.v
  let si := s.codeScale k.i
  let p := (sv.mul si).mul ⟨nth 0 s.met.vi i, n⟩
  let v2 := (sv.mul sv).mul ⟨(s.anCh k.v).sq, n⟩
  let i2 := (si.mul si).mul ⟨(s.anCh k.i).sq, n⟩
  let ep := s.blockEnergy p.abs
  let (eP, s) := s.roundFree 16 ep.n ep.d
  let (eQ, s) := s.draw 17
  let (neg, s) := s.draw 18
  let u := s.blockEnergy (Q.ofInt 1)
  let es := ((v2.mul i2).mul (u.mul u)).floor.toNat
  let (up, s) := s.draw 19
  let eS : Int := isqrt es (bitLen es) + up % 2
  let pNeg := decide (p.n < 0)
  let qNeg := neg % 2 == 1 && eQ != 0
  let quad := match pNeg, qNeg with | false, false => 0 | true, false => 1 | true, true => 2 | false, true => 3
  let b : SetBlock :=
    { t0 := s.met.blkFrom, t1 := s.met.blkTo, active := (if pNeg then 1 else 0, eP), reactive := (2 + quad, (eQ : Int)),
      apparent := (if pNeg then 7 else 6, eS), clipped := (s.anCh k.v).clip || (s.anCh k.i).clip }
  let s := s.setRegField (R.MET_SET_STATE i) 2 1 quad
  let s := s.modMet fun m => { m with viHist := modNth (fun h => ((nth 0 m.vi i, n) :: h).take 20) m.viHist i }
  (s.feedSet i b).setReadings i k

/-- The block ends for every channel and enabled set, and a waiting configuration comes into force (R367, R372). -/
def blockEnd (s : State) : State :=
  let n := s.met.blkN
  let s := s.modMet fun m => { m with analog := m.analog.map fun (a : AnCh) => { a with hist := ((a.sq, n) :: a.hist).take 20 } }
  let s := (List.range 32).foldl (fun s c =>
    if (s.anCfg c).kind = 0 then s
    else
      let k := s.codeScale c
      s.setReg (R.MET_CH_RMS c) (BitVec.ofNat 32 (Q.sqrtFp fp32 ((k.mul k).mul (overBlocks (s.anCh c).hist))))) s
  let s := (List.range 32).foldl (fun s i => match s.setCfg i with | some k => s.closeSet i k | none => s) s
  (s.modMet fun m =>
    { m with analog := m.analog.map fun (a : AnCh) => { a with sq := 0, clip := false }, vi := List.replicate 32 0,
             blkN := 0, blkFrom := m.blkTo }).metSync

/-- The block end, when it is due. -/
def blockEndDue (s : State) : State := if s.blockDue then s.blockEnd else s

/-- One sample of all 32 channels (R366). Its stamp carries the uncertainty of crossing 15 (R74).
[DESIGN CHOICE, log entry 55; DEDUCED, log entry 83] -/
def analogSample (raw : List (BitVec 24)) (s : State) : State :=
  if !s.domOn 8 then s
  else
    let s := s.blockEndDue
    let xs := (List.range 32).map fun c => (nth 0 raw c).toInt
    let (j, s) := s.draw 20
    let s := { s with met := { s.met with hist := ((s.now - j % 192, xs) :: s.met.hist).take 5 } }
    let s := (List.range 32).foldl (fun s c => s.rawCode c (nth 0 xs c)) s
    match s.met.hist[2]? with
    | none => s
    | some (t, _) =>
      let (ys, s) := (List.range 32).foldl (fun (p : List Int × State) c =>
        let (y, st) := p.2.delayed c
        (p.1 ++ [y.1], st.peakCheck c y.1 y.2)) ([], s)
      let s := (List.range 32).foldl (fun s c => if (s.anCfg c).kind = 2 then s.halfSample c (nth 0 ys c) ys else s) s
      s.blockSample t ys

/-! ### Windows, demand and pulses -/

/-- The open window ends under the grid in force; a new grid comes into force (R404, R407). -/
def windowBoundary (s : State) : State :=
  let e := s.openEnd
  if e = 0 ∨ !s.domOn 8 ∨ s.now < e * 2 ^ 32 then s
  else
    let s := s.blockEndDue
    let trans := match s.met.grid, s.metCfg.tariff with
      | some g, some h => g.pw != h.pw || g.off != h.off
      | _, _ => false
    let next := s.endAfter e
    (s.modMet fun m =>
      { m with ends := lastN 8 (m.ends ++ [(next, trans)]), grid := s.metCfg.tariff,
               pulses := m.pulses.map fun (p : Pulse) => { p with logged := false } }).metShow

/-- CLOSE_WAIT has passed after a meter's boundary (R404). -/
def closeWait (m : Nat) (s : State) : State :=
  let c := s.metCh m
  match s.meterCfg m, s.metCfg.tariff with
  | some _, some g =>
    if !s.metRuns ∨ c.winEnd = 0 ∨ s.now < c.winEnd * 2 ^ 32 + usToUnits (1000 * g.closeWait) then s
    else s.latchClosing m c.acc true
  | _, _ => s

/-- The first waiting closing record is written, after every record write and outside the FeRAM hold (R389, R405). -/
def closingWrite (good : Bool) (s : State) : State :=
  match s.met.closeQ with
  | [] => s
  | n :: rest =>
    if s.pwr.feramHold ∨ (s.met.chs.any fun x => x.2.writing.isSome) then s
    else
      let s := if good then s else s.sectorSpare (metClose n)
      let s := s.setBytes (metClose n) ((tget s.met.snap n).getD [])
      { s with met := { s.met with closeQ := rest } }.metShow

/-- The demand record of a set (R396). -/
def writeDemand (i max start resetAt : Nat) (s : State) : State :=
  s.setBytes (metDemand i) (withCrc16 0x3E (leBytes 4 max ++ zeros 4 ++ leBytes 8 start ++ leBytes 8 resetAt ++ zeros 40))

/-- The ended demand windows of a set raise its maximum (R408). -/
def evalDemand (i : Nat) (s : State) : State :=
  let c := s.metCh (2048 + i)
  let pd := (s.met.grid.map (·.pd)).getD 60
  let s := s.setMetCh (2048 + i) { c with demDone := [] }
  c.demDone.foldl (fun s d =>
    let r := s.bytesAt (metDemand i) 64
    let w := demandOf d.2.1 pd
    if d.2.2 && (fpCompare fp32 1 (fieldAt r 0 4) w).1 then s.writeDemand i w d.1 (fieldAt r 0x10 8) else s) s

/-- A demand window has ended (R408); RESET_MAX takes effect at its end. -/
def demandEnd (s : State) : State :=
  if s.pwr.feramHold ∨ !s.domOn 8 then s
  else
    let s := s.blockEndDue
    let s := (List.range 32).foldl (fun s i => if (s.metCh (2048 + i)).demDone.isEmpty then s else s.evalDemand i) s
    match s.met.resetMax with
    | none => s
    | some e =>
      if s.now < e * 2 ^ 32 then s
      else
        let s := { s with met := { s.met with resetMax := none } }
        (List.range 32).foldl (fun s i => s.writeDemand i 0 0 e) s

/-- The timer of a pulse output runs out, or a pulse waits on an idle output (R391). -/
def pulseOutput (p : Nat) (s : State) : State :=
  match s.met.pulses[p]?, tget s.metCfg.pulses p with
  | some x, some c =>
    if !s.domOn 7 then s
    else if x.phase = 0 then s.startPulse p
    else if s.raw < x.until_ then s
    else if x.phase = 1 then
      { s with met := { s.met with pulses := modNth (fun y =>
        { y with phase := 2, until_ := s.raw + rawUs (1000 * c.pause) }) s.met.pulses p } }
    else { s with met := { s.met with pulses := modNth (fun y => { y with phase := 0 }) s.met.pulses p } }.startPulse p
  | _, _ => s

/-- A record write completes; the next waiting increment of its channel may be added (R389, R597). -/
def recordDone (n : Nat) (good : Bool) (s : State) : State :=
  match (s.metCh n).writing with
  | none => s
  | some (c, _) =>
    if s.pwr.feramHold then s else
    let s := if good then s else s.sectorSpare (metRec n c)
    (s.endRecord n).drainMet n 8

end State

/-! ### Rows -/

/-- ANALOG_SAMPLE. -/
def execAnalogSample (raw : List (BitVec 24)) (s : State) : Res := .next (s.analogSample raw)

/-- ELECTRIC_BLOCK_END. -/
def execElectricBlockEnd (s : State) : Res := .next s.blockEndDue

/-- RECORD_WRITE_DONE. -/
def execRecordWriteDone (n : Fin 2080) (good : Bool) (s : State) : Res := .next (s.recordDone n good)

/-- WINDOW_BOUNDARY. -/
def execWindowBoundary (s : State) : Res := .next s.windowBoundary

/-- CLOSE_WAIT_EXPIRY. -/
def execCloseWaitExpiry (m : Fin 2048) (s : State) : Res := .next (s.closeWait m)

/-- CLOSING_RECORD_WRITE. -/
def execClosingRecordWrite (good : Bool) (s : State) : Res := .next (s.closingWrite good)

/-- DEMAND_WINDOW_END. -/
def execDemandWindowEnd (s : State) : Res := .next s.demandEnd

/-- PULSE_OUTPUT. -/
def execPulseOutput (p : Fin 16) (s : State) : Res := .next (s.pulseOutput p)

/-! ### Commands (R411) -/

/-- The metering configuration is changed and stored. -/
def State.updMet (f : MetCfg → MetCfg) (s : State) : State := s.updNv fun n => { n with met := f n.met }

/-- Between blocks a new configuration comes into force at once. -/
def State.syncIdle (s : State) : State := if s.met.blkN = 0 then s.metSync else s

/-- A running channel's increments are finished and its pending registers flushed with a record write (R409). -/
def State.flushCh (n : Nat) (s : State) : State :=
  let s := (s.endRecord n).drainMet n 8
  ((s.endRecord n).modMetCh n MetCh.flush).startRecord n

/-- CLEAR_FLAGS (R400). -/
def State.clearFlags (n : Nat) (s : State) : State :=
  ((s.endRecord n).modMetCh n fun c => { c with flags := c.flags &&& 0xFC, bound := 0 }).startRecord n

/-- MET_CHANNEL_CONFIG of an analog channel. -/
def metChannel (i : Nat) (c : Cmd) (s : State) : State × CmdEnd :=
  if c.params.length ≠ 24 then (s, badLen 24)
  else
    let inSet := s.metCfg.sets.any fun x => x.2.enable && (x.2.v == i && c.p 4 1 != 1 || x.2.i == i && c.p 4 1 != 2)
    match firstBad [(decide (2 < c.p 4 1) || inSet, 4), (c.p 5 3 != 0, 5)] with
    | some o => (s, .st .badParam o)
    | none =>
      let k : AnCfg := ⟨c.p 4 1, c.p 8 4, c.p 0xC 4, c.p 0x10 4, c.p 0x14 4⟩
      ((s.updMet fun m => { m with chans := tput m.chans i k }).syncIdle, .st .ok)

/-- MET_CHANNEL_CONFIG of an electric set. -/
def metSet (i : Nat) (clear : Bool) (c : Cmd) (s : State) : State × CmdEnd :=
  if c.params.length ≠ 16 then (s, badLen 16)
  else
    let fl : Byte := BitVec.ofNat 8 (c.p 6 1)
    let k : SetCfg := ⟨c.p 4 1, c.p 5 1, bit fl 0, bit fl 1, c.p 8 4⟩
    let kindOf (x : Nat) : Nat := ((tget s.metCfg.chans x).map (·.kind)).getD 0
    let taken := s.metCfg.sets.any fun x => x.1 != i && x.2.enable && x.2.i == k.i
    match firstBad [(k.enable && kindOf k.v != 1 || decide (31 < k.v), 4),
        (k.enable && (kindOf k.i != 2 || taken) || decide (31 < k.i), 5), (decide (4 ≤ fl.toNat), 6), (c.p 7 1 != 0, 7),
        (decide (k.t < 2 ^ 12 ∨ 2 ^ 20 < k.t), 8), (c.p 0xC 4 != 0, 0xC)] with
    | some o => (s, .st .badParam o)
    | none =>
      let old := tget s.metCfg.sets i
      let on : Bool := match old with | some o => o.enable | none => false
      if !on && !k.enable && (old != some k || clear) then (s, .st .badParam 4)
      else
        let n := 2048 + i
        let s := if on then s.flushCh n else s
        let s := if clear then s.clearFlags n else s
        let s := s.updMet fun m => { m with sets := tput m.sets i k }
        let s := if on then s else s.windowOpen n
        (s.syncIdle, .st .ok)

/-- MET_CHANNEL_CONFIG. -/
def metChannelConfig (c : Cmd) (s : State) : State × CmdEnd :=
  roleGate s <| feramGate s <|
    let w : Word := BitVec.ofNat 32 (c.p 0 4)
    if c.p 0 4 / 2 ^ 10 ≠ 0 then (s, .st .badParam 0)
    else if 31 < field w 7 0 then (s, .st .meterUnknown)
    else if bit w 8 then metSet (field w 7 0) (bit w 9) c s
    else metChannel (field w 7 0) c s

/-- A value of FP32 lies between two numbers of FP32. -/
def fp32In (lo hi x : Nat) : Bool := (fpCompare fp32 2 lo x).1 && (fpCompare fp32 2 x hi).1

/-- The meter configuration that parameters hold. -/
def meterOf (c : Cmd) : MeterCfg :=
  { mode := c.p 4 1, flags := BitVec.ofNat 8 (c.p 5 1 % 8), medium := c.p 6 1, seg := c.p 7 1, stn := c.p 8 1,
    fwd := c.p 0xC 2, rev := c.p 0xE 2, sup := c.p 0x10 2, ret := c.p 0x12 2, countVol := c.p 0x14 4,
    maxRate := c.p 0x18 4, t := c.p 0x1C 4, pressure := c.p 0x20 4, dMin := c.p 0x24 4, offS := c.p 0x28 4,
    offR := c.p 0x2C 4, gap := c.p 0x30 4, age := c.p 0x34 4 }

/-- The binding breaks R376: a position beyond the station's run, or a signal of another type, where they are known. -/
def bindingBad (s : State) (k : MeterCfg) (pos : Nat) (types : List Nat) : Bool :=
  match s.adm (64 * k.seg + k.stn) with
  | none => false
  | some a => decide (a.inCount ≤ pos) || (s.loaded && !types.contains (s.sigType (a.inFirst + pos)))

/-- What makes the next sample a baseline (R378, R409). -/
def sameBinding (a b : MeterCfg) : Bool :=
  a.seg == b.seg && a.stn == b.stn && a.fwd == b.fwd && a.rev == b.rev && a.sup == b.sup && a.ret == b.ret &&
    a.countVol == b.countVol

/-- MET_METER_CONFIG. -/
def metMeterConfig (c : Cmd) (s : State) : State × CmdEnd :=
  roleGate s <| feramGate s <|
    let n := c.p 0 4
    let k := meterOf c
    if 2048 ≤ n then (s, .st .meterUnknown)
    else
      match firstBad [(decide (3 < k.mode), 4), (decide (16 ≤ c.p 5 1), 5), (decide (16 < k.medium), 6),
          (decide (19 < k.seg), 7), (decide (63 < k.stn), 8), (c.p 9 3 != 0, 9),
          (decide (383 < k.fwd) || bindingBad s k k.fwd [3, 5], 0xC),
          (k.rev != 0xFFFF && (decide (383 < k.rev) || bindingBad s k k.rev [3, 5]), 0xE),
          (decide (383 < k.sup) || bindingBad s k k.sup [8, 9], 0x10),
          (decide (383 < k.ret) || bindingBad s k k.ret [8, 9], 0x12),
          (decide (k.countVol < 1 ∨ 10000000 < k.countVol), 0x14), (decide (k.t < 2 ^ 12 ∨ 2 ^ 23 < k.t), 0x1C),
          (!fp32In 0x3DCCCCCD 0x40200000 k.pressure, 0x20), (!fp32In 0 0x40A00000 k.dMin, 0x24),
          (!fp32In 0xBF800000 0x3F800000 k.offS, 0x28), (!fp32In 0xBF800000 0x3F800000 k.offR, 0x2C),
          (decide (k.gap < 1 ∨ 3600 < k.gap), 0x30), (decide (k.age < 1 ∨ 3600 < k.age), 0x34), (c.p 0x38 8 != 0, 0x38)] with
      | some o => (s, .st .badParam o)
      | none =>
        let old := tget s.metCfg.meters n
        let on : Bool := match old with | some o => o.mode != 0 | none => false
        let clear := c.p 5 1 / 8 % 2 == 1
        if !on && k.mode == 0 && (old != some k || clear) then (s, .st .badParam 4)
        else
          let s := if on then s.flushCh n else s
          let s := if clear then s.clearFlags n else s
          let keep : Bool := match old with | some o => on && sameBinding o k | none => false
          let s := s.updMet fun m => { m with meters := tput m.meters n k }
          let s := s.modMetCh n fun x =>
            { x with flags := setBit x.flags 2 (bit k.flags 0), base := if keep then x.base else none }
          (if on then s else s.windowOpen n, .st .ok)

/-- The entry of the user layer of one channel. -/
def calEntry (c : Cmd) (i : Nat) : Nat × Int × Int :=
  let o := 16 + 12 * i
  (c.p o 4, toSigned 32 (c.p (o + 4) 4), toSigned 16 (c.p (o + 8) 2))

/-- An entry of the user layer is in range, with the channel's factory delay (R367, R368). -/
def calOk (s : State) (c : Cmd) (i : Nat) : Bool :=
  let (g, off, d) := calEntry c i
  fp32In 0x3F666666 0x3F8CCCCD g && decide (-(2 ^ 20) ≤ off ∧ off ≤ 2 ^ 20) && c.p (16 + 12 * i + 10) 2 == 0 &&
    decide (-2048 ≤ s.fcalDelay i + d ∧ s.fcalDelay i + d ≤ 2048)

/-- MET_USER_CAL_WRITE. -/
def metUserCalWrite (c : Cmd) (s : State) : State × CmdEnd :=
  roleGate s <| feramGate s <|
    let body := c.params.drop 16
    if c.p 0 4 ≠ 0x55435A47 ∨ c.p 4 4 ≠ 32 ∨ c.p 8 4 ≠ 0 ∨ c.p 0xC 4 ≠ (crc32 body).toNat then (s, .st .calInvalid 0xFFFF)
    else
      match (List.range 32).find? fun i => !calOk s c i with
      | some i => (s, .st .calInvalid i)
      | none =>
        let s := (s.updMet fun m => { m with cal := (List.range 32).map (calEntry c) }).syncIdle
        (s.raise srcMet Ev.MET_CAL_CHANGED 0 (crc32 body).toNat, .st .ok)

/-- MET_MEDIUM_TABLE_WRITE. -/
def metMediumTableWrite (c : Cmd) (s : State) : State × CmdEnd :=
  roleGate s <| feramGate s <|
    let t := c.p 0 4
    let n := c.p 4 4
    let pt (i : Nat) : Nat × Nat × Nat := (c.p (8 + 12 * i) 4, c.p (12 + 12 * i) 4, c.p (16 + 12 * i) 4)
    let bad (i : Nat) : Bool :=
      let (x, h, r) := pt i
      let up (f : Nat × Nat × Nat → Nat) : Bool := i == 0 || (fpCompare fp32 1 (f (pt (i - 1))) (f (pt i))).1
      !(up (·.1) && up (·.2.1) && fp32In 0x43FA0000 0x44FA0000 r && !(fpDecode fp32 x).isNan && !(fpDecode fp32 h).isNan)
    if t = 0 ∨ 16 < t then (s, .st .badParam 0)
    else if n < 2 ∨ 64 < n then
      let (v, s) := s.draw 21
      (s, .st .tableInvalid (v % 65536))
    else if c.params.length ≠ 8 + 12 * n then (s, badLen (8 + 12 * n))
    else
      match (List.range n).find? bad with
      | some i => (s, .st .tableInvalid i)
      | none => (s.updMet fun m => { m with tables := tput m.tables t ((List.range n).map pt) }, .st .ok)

/-- MET_TARIFF_CONFIG. A first grid takes effect at once. -/
def metTariffConfig (c : Cmd) (s : State) : State × CmdEnd :=
  roleGate s <| feramGate s <|
    let g : Tariff := ⟨c.p 0 4, c.p 4 4, c.p 8 4, c.p 0xC 4⟩
    match firstBad [(decide (g.pw < 60 ∨ 86400 < g.pw ∨ 86400 % g.pw ≠ 0), 0), (decide (86399 < g.off), 4),
        (decide (g.pd < 60 ∨ 3600 < g.pd ∨ g.pw % g.pd ≠ 0), 8), (decide (g.closeWait < 100 ∨ 60000 < g.closeWait), 0xC),
        (decide (1 < c.p 0x10 4), 0x10)] with
    | some o => (s, .st .badParam o)
    | none =>
      let first := s.met.grid.isNone
      let s := s.updMet fun m => { m with tariff := some g }
      let s := if first then
          let s := s.windowStart
          s.met.chs.foldl (fun s x => s.windowOpen x.1) s
        else s
      let s := if c.p 0x10 4 = 1 then { s with met := { s.met with resetMax := some (s.demandAfter s.nowSec) } } else s
      (s, .st .ok)

/-- MET_PULSE_CONFIG. -/
def metPulseConfig (c : Cmd) (s : State) : State × CmdEnd :=
  roleGate s <| feramGate s <|
    let p := c.p 0 4
    let k : PulseCfg := ⟨c.p 4 1, c.p 5 1, c.p 6 2, c.p 8 4, c.p 0xC 1, c.p 0xD 1⟩
    let net : Bool := match tget s.metCfg.meters k.ix with | some m => bit m.flags 0 | none => false
    if 15 < p ∨ (k.src = 1 ∧ 2047 < k.ix) ∨ (k.src = 2 ∧ 31 < k.ix) then (s, .st .meterUnknown)
    else
      match firstBad [(decide (2 < k.src), 4), (decide (k.src = 1 ∧ 5 < k.reg ∨ k.src = 2 ∧ 7 < k.reg), 5),
          (k.src == 1 && net, 6), (k.src != 0 && k.weight == 0, 8), (k.src != 0 && decide (k.width < 30), 0xC),
          (k.src != 0 && decide (k.pause < 30), 0xD), (c.p 0xE 2 != 0, 0xE)] with
      | some o => (s, .st .badParam o)
      | none =>
        let s := s.updMet fun m => { m with pulses := if k.src = 0 then tdel m.pulses p else tput m.pulses p k }
        ({ s with met := { s.met with pulses := modNth (fun y => { y with div := 0, waiting := 0 }) s.met.pulses p } }, .st .ok)

/-- A standby takes the metering configuration of its claiming unit, each part as its command would (R409, R517).
[DEDUCED, log entry 109] -/
def State.takeMetCfg (given : MetCfg) (s : State) : State :=
  let old := s.nvNext.met
  let m : MetCfg := { given with
    chans := given.chans.filter fun x => decide (x.1 < 32), sets := given.sets.filter fun x => decide (x.1 < 32),
    meters := given.meters.filter fun x => decide (x.1 < 2048), pulses := given.pulses.filter fun x => decide (x.1 < 16) }
  if old = m then s
  else if !s.domOn 8 then s.updMet fun _ => m
  else
    let setOn (k : Option SetCfg) : Bool := match k with | some k => k.enable | none => false
    let meterOn (k : Option MeterCfg) : Bool := match k with | some k => k.mode != 0 | none => false
    let sets := m.sets.filter fun x => tget old.sets x.1 != some x.2
    let meters := m.meters.filter fun x => tget old.meters x.1 != some x.2
    let running := (sets.filter fun x => setOn (tget old.sets x.1)).map (2048 + ·.1) ++
      (meters.filter fun x => meterOn (tget old.meters x.1)).map (·.1)
    let fresh := (sets.filter fun x => !setOn (tget old.sets x.1)).map (2048 + ·.1) ++
      (meters.filter fun x => !meterOn (tget old.meters x.1)).map (·.1)
    let s : State := (running.foldl (fun s n => s.flushCh n) s).updMet fun _ => m
    let s : State := meters.foldl (fun s x => s.modMetCh x.1 fun y => { y with flags := setBit y.flags 2 (bit x.2.flags 0) }) s
    let s : State := fresh.foldl (fun s n => s.windowOpen n) s
    let s := if s.met.grid.isNone ∧ m.tariff.isSome then
        let s := s.windowStart
        s.met.chs.foldl (fun s x => s.windowOpen x.1) s
      else s
    s.syncIdle

/-- The channels that MET_READ_TOTALS and MET_READ_INTERVAL name, or their refusal. -/
def metRange (c : Cmd) : List Nat ⊕ CmdEnd :=
  let sets := c.p 0 4 == 1
  let last := if sets then 32 else 2048
  if 1 < c.p 0 4 then .inr (.st .badParam 0)
  else if c.p 8 4 < 1 ∨ 256 < c.p 8 4 then .inr (.st .badParam 8)
  else if last < c.p 4 4 + c.p 8 4 then .inr (.st .meterUnknown)
  else .inl ((List.range (c.p 8 4)).map fun i => c.p 4 4 + i + if sets then 2048 else 0)

/-- One entry of MET_READ_TOTALS: live values with remainders while PD_MET is ON, else the stored record.
[DEDUCED, log entry 81] -/
def totalsEntry (s : State) (n : Nat) : List Byte :=
  let head (src flags : Nat) (t : Instant) (bound : Nat) (regs : List Int) : List Byte :=
    leBytes 2 (if n < 2048 then n else n - 2048) ++ leBytes 1 (if n < 2048 then 0 else 1) ++ leBytes 1 src ++
      leBytes 4 flags ++ instantBytes t ++ leBytes 4 bound ++ regBytes regs ++ zeros 8
  if s.domOn 8 && s.met.epoch.isSome then
    let c := s.metCh n
    head 0 c.flags.toNat s.now c.bound c.acc
  else
    let r := s.recCopy n (s.recNewest n)
    if crc16Ok 2 r then head 1 (fieldAt r 0 1) (fieldAt r 0x48 8 * 2 ^ 32) (fieldAt r 4 4) (State.recRegs r)
    else head 1 0 0 0 (List.replicate 8 0)

/-- MET_READ_TOTALS. [DEDUCED, log entry 81] -/
def metReadTotals (c : Cmd) (s : State) : State × CmdEnd :=
  match metRange c with
  | .inr e => (s, e)
  | .inl ns => (s, replyOr c (ns.map (totalsEntry s)).flatten)

/-- MET_READ_INTERVAL: the snapshot, and the store only while PD_MET is off (R405). [DEDUCED, log entry 81] -/
def metReadInterval (c : Cmd) (s : State) : State × CmdEnd :=
  match metRange c with
  | .inr e => (s, e)
  | .inl ns =>
    let one (n : Nat) : List Byte :=
      if s.domOn 8 then (tget s.met.snap n).getD (zeros (closeLen n)) else s.bytesAt (metClose n) (closeLen n)
    (s, replyOr c (ns.map one).flatten)

def execMetChannelConfig (id : Nat) (s : State) : Res := hostRow Op.MET_CHANNEL_CONFIG id metChannelConfig s
def execMetMeterConfig (id : Nat) (s : State) : Res := hostRow Op.MET_METER_CONFIG id metMeterConfig s
def execMetUserCalWrite (id : Nat) (s : State) : Res := hostRow Op.MET_USER_CAL_WRITE id metUserCalWrite s
def execMetMediumTableWrite (id : Nat) (s : State) : Res := hostRow Op.MET_MEDIUM_TABLE_WRITE id metMediumTableWrite s
def execMetTariffConfig (id : Nat) (s : State) : Res := hostRow Op.MET_TARIFF_CONFIG id metTariffConfig s
def execMetPulseConfig (id : Nat) (s : State) : Res := hostRow Op.MET_PULSE_CONFIG id metPulseConfig s
def execMetReadTotals (id : Nat) (s : State) : Res := hostRow Op.MET_READ_TOTALS id metReadTotals s
def execMetReadInterval (id : Nat) (s : State) : Res := hostRow Op.MET_READ_INTERVAL id metReadInterval s

end Sys2Proof.Machine
end

