-- ==== Sys2Proof/Machine/Solver.lean ====
section
/-! DEFINITION. The solver's commands and what happens inside it: job starts, iterations, ends, run-ahead work, engines
and lanes (spec 08 R318 to R325; spec 09 R327 to R364). -/

namespace Sys2Proof.Machine

namespace State

/-! ### Iterations (R330 to R340) -/

/-- The lanes that a list of residue mismatches confirms faulty: two within one job or run-ahead work (R356). -/
def confirmed (before now : List Nat) : List Nat :=
  now.filter fun x => 2 ≤ (before ++ now).count x

/-- The mismatches of an iteration on the engines of a mask, up to a check. -/
def mismTo (mask n : Nat) (mism : List (Nat × Nat)) : List Nat :=
  (mism.filter fun x => decide (x.1 ≤ n ∧ x.2 / 128 < 4 ∧ x.2 % 128 < 72) && mask / 2 ^ (x.2 / 128) % 2 == 1).map (·.2)

/-- The first check up to `n` that finds a lane confirmed faulty. -/
def confirmAt (mask : Nat) (before : List Nat) (mism : List (Nat × Nat)) (n : Nat) : Option Nat :=
  (List.range (n + 1)).find? fun c => !(confirmed before (mismTo mask c mism)).isEmpty

/-- Counts residue mismatches on their engines (R357). -/
def countMism (mism : List Nat) (s : State) : State :=
  mism.foldl (fun s x => s.bump (R.SOLV_ENG_RESIDUE_ERR (x / 128 % 4)) 1) s

/-- The residue mismatches of a job up to a check are counted, and a lane that they confirm is faulty (R356, R357). -/
def seeMism (ctx : Nat) (j : Job) (now : List Nat) (s : State) : State :=
  let s := (s.countMism now).modJob ctx fun x => { x with mism := x.mism ++ now }
  (confirmed j.mism now).eraseDups.foldl (fun s x =>
    (s.laneFaulty (x / 128) (x % 128)).raise (20 + x / 128) Ev.SOLV_LANE_FAULT (x / 128) (x % 128)) s

/-- One iteration of a running job, with the checks of R346 in their order. -/
def iterateJob (ctx : Nat) (j : Job) (v : DescVer) (r : IterResult) (s : State) : State :=
  let d := v.bytes
  let streams := decide (v.place % 2 = 1)
  if streams && s.bankGen d j.bank != j.gen then
    (s.endJob ctx 5 0 []).raise (srcSolv j.engines) Ev.SOLV_BANK_WRITTEN j.slot j.id
  else if j.deadline ≠ 0 ∧ j.deadline ≤ s.now then s.endJob ctx 1 0 r.kat
  else
    match if streams && j.iters == 0 then bankFaultAt j.data d j.inputs else none with
    | some k => s.endJob ctx 6 k []
    | none =>
      let p := jobProb v j
      let out := iteration p (fourEngines v.place) j.pt
      let conv := converges d (p.metrics j.pt)
      let limit := decide (dIterLimit d ≤ j.iters)
      let cs := if conv || limit then out.checks.take (dN d) else out.checks
      match confirmAt j.engines j.mism r.mism cs.length with
      | some c =>
        let (stage, s) := (s.seeMism ctx j (mismTo j.engines c r.mism)).cutAt ctx c cs
        if limit && !conv && c == cs.length then s.endJob ctx 2 0 r.kat else s.endJob ctx 3 stage r.kat
      | none =>
        let s := s.seeMism ctx j (mismTo j.engines cs.length r.mism)
        if conv then s.endJob ctx 0 0 r.kat
        else if limit then s.endJob ctx 2 0 r.kat
        else
          let s := s.addTally ctx out.tally
          match out.res with
          | .error k => s.endJob ctx 4 k r.kat
          | .ok pt => s.modJob ctx fun x => { x with pt := pt, iters := x.iters + 1 }

/-- Run-ahead work is parked (R347). -/
def park (ctx : Nat) (w : Ahead) (s : State) : State :=
  (s.addTime R.SOLV_ENG_SPEC_US w.engines w.startRaw).modSolv fun x => { x with
    ahead := tput x.ahead ctx { w with parked := true } }

/-- Run-ahead work that passes the convergence test is parked; any other goes on. -/
def parkIf (ctx : Nat) (w : Ahead) (v : DescVer) (s : State) : State :=
  if !w.parked && converges v.bytes ((aheadProb v w).metrics w.pt) then s.park ctx w else s

/-- One iteration of run-ahead work: a stage failure is not retried, and a faulty lane squashes it (R350, R357). -/
def iterateAhead (ctx : Nat) (w : Ahead) (v : DescVer) (r : IterResult) (s : State) : State :=
  let p := aheadProb v w
  if w.parked then s
  else if converges v.bytes (p.metrics w.pt) then s.park ctx w
  else if dIterLimit v.bytes ≤ w.iters then s
  else
    let out := iteration p (fourEngines v.place) w.pt
    let mine := mismTo w.engines out.checks.length r.mism
    let bad := confirmed w.mism mine
    let s := s.countMism mine
    if !bad.isEmpty then
      (bad.eraseDups.foldl (fun s x => s.laneFaulty (x / 128) (x % 128)) s).squash ctx
    else
      match if out.tally.retries = 0 then out.res else .error 0 with
      | .error _ => s.squash ctx
      | .ok pt => s.modSolv fun x => { x with
          ahead := tput x.ahead ctx { w with pt := pt, iters := w.iters + 1, mism := w.mism ++ mine } }

/-- SOLVE_ITERATION on the work of a context; streaming placement reads the bank anew. -/
def solveIteration (ctx : Nat) (r : IterResult) (s : State) : State :=
  match tget s.solv.jobs ctx with
  | some j =>
    match s.descVer j.slot j.ver with
    | some v =>
      if j.state ≠ 1 then s
      else
        let s := s.sweepBank ctx j v
        s.iterateJob ctx ((tget s.solv.jobs ctx).getD j) v r
    | none => s
  | none =>
    match tget s.solv.ahead ctx with
    | some w =>
      match s.descVer w.slot w.ver with
      | some v =>
        if v.place % 2 = 0 then s.iterateAhead ctx w v r
        else
          let (data, s) := s.readBank v.bytes w.bank
          s.iterateAhead ctx { w with data := data } v r
      | none => s
    | none => s

/-- The deadline of a running job is observed at a check of the iteration at hand (R341, R342); a lane confirmed faulty at
an earlier check ends the job there (R346). -/
def jobDeadline (ctx : Nat) (f : SolveEnd) (s : State) : State :=
  match tget s.solv.jobs ctx with
  | some j =>
    match s.descVer j.slot j.ver with
    | some v =>
      if ¬(j.state = 1 ∧ j.deadline ≠ 0 ∧ j.deadline ≤ s.now) then s
      else
        let s := s.sweepBank ctx j v
        let j := (tget s.solv.jobs ctx).getD j
        let cs := jobChecks j v
        let n := min f.check cs.length
        let fault := (confirmAt j.engines j.mism f.mism n).filter fun c => decide (c < n)
        let c := fault.getD n
        let (stage, s) := (s.seeMism ctx j (mismTo j.engines c f.mism)).cutAt ctx c cs
        s.endJob ctx (if fault.isSome then 3 else 1) stage f.kat
    | none => s
  | none => s

/-- The deadline of a queued job expires (R343). -/
def queuedDeadline (ctx : Nat) (s : State) : State :=
  match tget s.solv.jobs ctx with
  | some j =>
    if j.state = 0 ∧ j.deadline ≠ 0 ∧ j.deadline ≤ s.now then s.endJob ctx 7 0 [] else s
  | none => s

/-- An ended job without a result address is freed 60 s after its end (R318). -/
def contextExpiry (ctx : Nat) (s : State) : State :=
  match tget s.solv.jobs ctx with
  | some j =>
    if j.state = 2 ∧ j.endRaw + rawUs 60000000 ≤ s.raw then s.modSolv fun x => { x with jobs := tdel x.jobs ctx } else s
  | none => s

/-! ### Engines and lanes -/

/-- Every pending bring-in of an engine, in order. -/
def bringInAll (e : Nat) : Nat → State → State
  | 0, s => s
  | n + 1, s => bringInAll e n (if s.lanePending e then s.laneBringIn e else s)

/-- The start of an engine ends: the lane check and the spare map, then ON; a waiting disable follows (R355, R356). -/
def engineStartDone (e : Nat) (kat : List Nat) (s : State) : State :=
  if s.engState e ≠ 1 then s
  else
    let s := (s.katFail (2 ^ e) kat).bringInAll e 72
    let pend := bit s.solv.startPending e
    let s := s.setRegField (R.SOLV_ENG_STATE e) 1 0 2
    let s := s.setRegBit (R.SOLV_ENG_STATE e) 3 (decide ((s.laneMap e).inUse.length < 64))
    let s := s.raise (20 + e) Ev.SOLV_ENGINE_ON e (if pend then 1 else 0)
    let s := s.completeWaiting (.engineOn e) .ok 0
    let wait := bit s.solv.disableWaiting e || decide ((s.laneMap e).inUse.length < 32)
    let s := s.modSolv fun x => { x with disableWaiting := setBit x.disableWaiting e false,
                                         startPending := setBit x.startPending e false }
    if wait then (s.setRegField (R.SOLV_ENG_STATE e) 1 0 3).engineClear e else s

/-- The stop of an engine ends. -/
def engineStopDone (e : Nat) (s : State) : State := if s.engState e = 3 then s.engineOff e else s

/-- A pending bring-in is made while the engine is up and holds no work (R358). -/
def laneBringInRow (e : Nat) (s : State) : State :=
  if s.lanePending e && (s.engJob e).isNone && (s.engAhead e).isNone && s.engState e != 0 then s.laneBringIn e else s

/-- The background write of a descriptor has been read back (R308). [DEDUCED, log entry 74] -/
def descStored (slot : Nat) (s : State) : State :=
  match (s.descSlot slot).cur with
  | some v =>
    if v.stored then s
    else
      let s := { s with descArea := tput s.descArea (16 * s.nv.activeSlot + slot) (v.home, v.bytes) }
      let s := s.modDescSlot slot fun x => { x with cur := some { v with stored := true } }
      s.raise srcMgt Ev.SOLV_DESC_STORED slot 0
  | none => s

/-! ### Submissions from registers (R320) -/

/-- The task that runs on the physical core of an initiator. -/
def taskOfInitiator (s : State) (who : Nat) : Option Nat :=
  if 18 ≤ who then none
  else
    match s.logicalOf who with
    | some l => if (s.core l).mode == .running || (s.core l).mode == .handler then some (s.core l).task else none
    | none => none

/-- A write to SOLV.PSUBMIT_HI by an initiator submits the record at the held address. [DEDUCED, log entry 30] -/
def psubmit (who : Nat) (v : Word) (s : State) : State :=
  let addr := (s.heldLo who R.SOLV_PSUBMIT_LO).toNat / 64 * 64 + 2 ^ 32 * field v 7 0
  let answer (st : Status) (r0 : Nat) (s : State) : State :=
    s.modSolv fun x => { x with psub := tput x.psub who (BitVec.ofNat 32 (st.code + 0x10000 * r0)) }
  let ((st, r0), s) :=
    if Sys2Proof.Machine.inside (addr, 48) (sramBase, sramSize) then
      s.submit false (s.taskOfInitiator who) (s.bytesAt addr 48)
    else
      let (k, s) := s.draw 23
      ((Status.badParam, k % 65536), s.bump R.SOLV_SUBMIT_REFUSED 1)
  ((answer st r0 s).setReg R.SOLV_PSUBMIT_HI (v &&& 0xFF)).dropHeld who R.SOLV_PSUBMIT_LO

end State

/-! ### Commands (R325, R363) -/

/-- The partial load is discarded. -/
def dropDescLoad (s : State) : State := s.modSolv fun x => { x with load := none }

/-- The last chunk: R306, R307 and R308, then the version is current. -/
def descComplete (slot home : Nat) (d : List Byte) (s : State) : State × CmdEnd :=
  match s.descFault slot d with
  | some (st, r0) => (s, .st st r0)
  | none =>
    if !s.ddrReady && s.areaInDdr (home, d.length) then (s, .st .noDdr)
    else if s.homeBad slot home d then (s, .st .badParam 0x10)
    else if 7 * 2 ^ 20 < s.otherDescBytes slot + d.length then (s, .st .badParam 0xFFFE)
    else
      let s := (s.installDesc slot home d).raise srcMgt Ev.SOLV_DESC_LOADED slot (dProblem d)
      (s.logUnbound slot, .st .ok)

/-- SOLV_DESCRIPTOR_LOAD: one load in chunks at a time; offset 0 begins it, and a later chunk that does not continue it
discards it (R310, R325). -/
def solvDescriptorLoad (c : Cmd) (s : State) : State × CmdEnd :=
  roleGate s <|
    let slot := c.p 0 4
    let off := c.p 4 4
    let total := c.p 8 4
    let home := c.p 0x10 8
    let chunk := c.params.drop 0x18
    let load := if off = 0 then some (slot, total, home, []) else s.solv.load
    let fits := match load with
      | some (d, t, h, bytes) =>
        d == slot && t == total && h == home && bytes.length == off && decide (off + chunk.length ≤ total)
      | none => false
    let s := if off = 0 || !fits then dropDescLoad s else s
    if 16 ≤ slot then (s, .st .badParam 0)
    else if c.p 0xC 4 ≠ 0 then (s, .st .badParam 0xC)
    else if off ≠ 0 ∧ !fits then (s, .st .badParam 4)
    else if !(s.descSlot slot).old.isEmpty then (s, .st .busy 4)
    else if total = 0 then
      ((s.modDescSlot slot fun x => { x with emptying := true }).settleSlot slot, .st .ok)
    else if total < 256 ∨ 0x400000 < total then (s, .st .badParam 8)
    else if !fits then (s, .st .badParam 4)
    else
      let all := (load.map (·.2.2.2)).getD [] ++ chunk
      if all.length < total then
        (s.modSolv fun x => { x with load := some (slot, total, home, all) }, .st .ok)
      else descComplete slot home all (dropDescLoad s)

/-- SOLV_SUBMIT. -/
def solvSubmit (c : Cmd) (s : State) : State × CmdEnd :=
  roleGate s <|
    let ((st, r0), s) := s.submit true none c.params
    (s.solvShow, .st st r0)

/-- The job that a job ID names. -/
def jobById (s : State) (id : Nat) : Option (Nat × Job) := s.solv.jobs.find? fun x => x.2.id == id

/-- SOLV_CANCEL (R354). -/
def solvCancel (c : Cmd) (s : State) : State × CmdEnd :=
  roleGate s <|
    let id := c.p 0 2
    let slot := c.p 2 1
    if c.p 3 1 ≠ 0 then (s, .st .badParam)
    else if id = 0xFFFF then
      if 16 ≤ slot then (s, .st .badParam)
      else
        let js := s.solv.jobs.filter fun x => x.2.slot == slot && decide (x.2.state < 2)
        let s := js.foldl (fun s x => s.cancelJob x.1) s
        ((s.squashIf fun w => w.slot == slot).solvShow, .st .ok js.length)
    else
      match jobById s id with
      | some (ctx, j) => if slot ≠ 0 then (s, .st .badParam) else if j.state = 2 then (s, .st .badParam 1)
        else ((s.cancelJob ctx).solvShow, .st .ok 1)
      | none => (s, .st .badParam)

/-- SOLV_STATUS. -/
def solvStatus (c : Cmd) (s : State) : State × CmdEnd :=
  let w := c.p 0 4
  if w = 0xFFFFFFFF then
    let b (n : Nat) : List Byte := leBytes 4 n
    let bytes := b s.solvQueue ++ ((List.range 4).map fun e => b (s.reg (R.SOLV_ENG_STATE e)).toNat).flatten ++
      ((List.range 4).map fun e => b (s.reg (R.SOLV_ENG_LANES e)).toNat).flatten ++
      ((List.range 16).map fun d => b (s.descState d)).flatten ++ ((List.range 16).map fun d => b (s.bankUse d)).flatten
    (s, replyOr c bytes)
  else if 65536 ≤ w then (s, .st .badParam)
  else
    match jobById s w with
    | none => (s, .st .badParam)
    | some (_, j) =>
      let st := if j.state = 2 then j.status else .pending
      (s, replyOr c (leBytes 2 j.id ++ leBytes 2 st.code ++ leBytes 1 j.state ++ leBytes 1 j.slot ++ leBytes 1 j.prio ++
        leBytes 1 j.engines ++ leBytes 2 j.iters ++ zeros 2 ++ leBytes 4 j.tag))

/-- The header of a record before its job has ended: status word ST_PENDING. -/
def pendingRecord (s : State) (j : Job) : List Byte :=
  match s.descVer j.slot j.ver with
  | some v => State.recordHeader v.bytes j .pending 0 0 0 false false State.noIterate 0
  | none => []

/-- Every word of a record has been read. -/
def recordRead (len : Nat) (reads : List (Nat × Nat)) : Bool :=
  (List.range (len / 4)).all fun i => reads.any fun r => decide (r.1 ≤ 4 * i ∧ 4 * i + 4 ≤ r.1 + r.2)

/-- SOLV_RESULT_READ. -/
def solvResultRead (c : Cmd) (s : State) : State × CmdEnd :=
  let id := c.p 0 4
  let off := c.p 4 4
  match if id < 65536 then jobById s id else none with
  | none => (s, .st .badParam)
  | some (ctx, j) =>
    let rec' := if j.state = 2 then j.record else pendingRecord s j
    if off % 4 ≠ 0 ∨ rec'.length ≤ off then (s, .st .badParam 4)
    else
      let bytes := (rec'.drop off).take c.replyLen
      let reads := (off, bytes.length) :: j.reads
      let s :=
        if j.state ≠ 2 then s
        else if recordRead rec'.length reads then s.modSolv fun x => { x with jobs := tdel x.jobs ctx }
        else s.modJob ctx fun x => { x with reads := reads }
      (s, .done .ok (bytes.length % 65536) (bytes.length / 65536) bytes)

/-- SOLV_ENGINE_ENABLE (R355, R358). -/
def solvEngineEnable (c : Cmd) (s : State) : State × CmdEnd :=
  roleGate s <|
    let e := c.p 0 4
    if 4 ≤ e then (s, .st .badParam)
    else if !s.domOn (2 + e) then (s, .st .domainOff (2 + e))
    else if (s.laneMap e).inUse.length < 32 then (s, .st .noSpare)
    else
      let hold (s : State) : State × CmdEnd := (s.setRegBit (R.SOLV_ENG_STATE e) 2 true, .st .pending)
      match s.engState e with
      | 0 => ((s.engineStart e false).solvShow, .later (.engineOn e))
      | 1 => if bit s.solv.disableWaiting e then hold s else (s, .later (.engineOn e))
      | 2 => (s, .st .ok)
      | _ => hold s

/-- SOLV_ENGINE_DISABLE (R355). -/
def solvEngineDisable (c : Cmd) (s : State) : State × CmdEnd :=
  roleGate s <|
    let e := c.p 0 4
    if 4 ≤ e then (s, .st .badParam)
    else if s.engState e = 0 then (s, .st .ok)
    else ((s.engineDisable e).solvShow, .later (.engineOff e))

/-! ### Rows -/

/-- SOLV_DESCRIPTOR_LOAD (R306 to R310, R325). -/
def execSolvDescriptorLoad (id : Nat) (s : State) : Res := hostRow Op.SOLV_DESCRIPTOR_LOAD id solvDescriptorLoad s
/-- SOLV_SUBMIT (R321, R325). -/
def execSolvSubmit (id : Nat) (s : State) : Res := hostRow Op.SOLV_SUBMIT id solvSubmit s
/-- SOLV_CANCEL (R354, R363). -/
def execSolvCancel (id : Nat) (s : State) : Res := hostRow Op.SOLV_CANCEL id solvCancel s
/-- SOLV_STATUS (R363). -/
def execSolvStatus (id : Nat) (s : State) : Res := hostRow Op.SOLV_STATUS id solvStatus s
/-- SOLV_RESULT_READ (R363). -/
def execSolvResultRead (id : Nat) (s : State) : Res := hostRow Op.SOLV_RESULT_READ id solvResultRead s
/-- SOLV_ENGINE_ENABLE (R355, R363). -/
def execSolvEngineEnable (id : Nat) (s : State) : Res := hostRow Op.SOLV_ENGINE_ENABLE id solvEngineEnable s
/-- SOLV_ENGINE_DISABLE (R355, R363). -/
def execSolvEngineDisable (id : Nat) (s : State) : Res := hostRow Op.SOLV_ENGINE_DISABLE id solvEngineDisable s

/-- PSUBMIT_HI_WRITE: initiator or channel `who` writes SOLV.PSUBMIT_HI (R320). -/
def execPsubmitHiWrite (who : Fin 34) (v : Word) (s : State) : Res := .next (s.psubmit who v).solvShow

/-- SOLVE_JOB_START: `kat` are the lanes that fail the known-answer test (R322, R356). -/
def execSolveJobStart (kat : List Nat) (s : State) : Res := .next (s.startNext kat).solvShow
/-- SOLVE_ITERATION: one iteration of the job or run-ahead work of a context (R330). -/
def execSolveIteration (ctx : Fin 64) (r : IterResult) (s : State) : Res := .next (s.solveIteration ctx r).solvShow
/-- JOB_DEADLINE_EXPIRY (R341). -/
def execJobDeadlineExpiry (ctx : Fin 64) (f : SolveEnd) (s : State) : Res := .next (s.jobDeadline ctx f).solvShow
/-- QUEUED_DEADLINE_EXPIRY (R343). -/
def execQueuedDeadlineExpiry (ctx : Fin 64) (s : State) : Res := .next (s.queuedDeadline ctx).solvShow
/-- RUN_AHEAD_PARKED: the run-ahead work of a context is found to converge, and is parked (R331, R347). -/
def execRunAheadParked (ctx : Fin 64) (s : State) : Res :=
  .next <| State.solvShow <|
    match tget s.solv.ahead ctx with
    | some w =>
      match s.descVer w.slot w.ver with
      | some v => s.parkIf ctx w v
      | none => s
    | none => s
/-- CONTEXT_EXPIRY (R318). -/
def execContextExpiry (ctx : Fin 64) (s : State) : Res := .next (s.contextExpiry ctx)
/-- ENGINE_START_DONE: `kat` are the lanes that fail the lane check (R355, R356). -/
def execEngineStartDone (e : Fin 4) (kat : List Nat) (s : State) : Res := .next (s.engineStartDone e kat).solvShow
/-- ENGINE_STOP_DONE (R355). -/
def execEngineStopDone (e : Fin 4) (s : State) : Res := .next (s.engineStopDone e).solvShow
/-- LANE_BRING_IN (R358). -/
def execLaneBringIn (e : Fin 4) (s : State) : Res := .next (s.laneBringInRow e).solvShow
/-- DESC_STORE_DONE (R308). -/
def execDescStoreDone (d : Fin 16) (s : State) : Res := .next (s.descStored d)

end Sys2Proof.Machine
end

