-- ==== Sys2Proof/Machine/Stations.lean ====
section
/-! DEFINITION. The bus cycle of a segment, joins and station management (spec 07, R245 to R294). -/

namespace Sys2Proof.Machine

namespace State

/-! ### The bus cycle (R249) -/

/-- The sample instant S begins the input phase. -/
def inputPhaseStart (k : Nat) (s : State) : State :=
  match s.nextBoundary k with
  | none => s
  | some (b, p) =>
    let ph := (s.seg k).phase
    if s.segState k ≠ 2 ∨ (ph ≠ .idle ∧ ph ≠ .service) then s
    else
      let s := s.modSeg k fun g =>
        { g with phase := .input, boundary := b, period := p, staged := none, classes := s.classRegs,
                 newKey := g.newKey.map fun w => { w with cycles := w.cycles + 1 } }
      (s.segPositions k).foldl (fun s pos => s.modCtx pos fun c =>
        { c with frags := [], acked := false, away := if c.state = 4 then c.away else c.away + 1,
                 sigs := c.sigs.map fun x => { x with written := false } }) s

/-- The end of the input phase: unwritten inputs age (R274). -/
def inputPhaseEnd (k : Nat) (s : State) : State :=
  if (s.seg k).phase ≠ .input then s
  else
    let s := if s.loaded then s.ageSegment k else s
    s.modSeg k fun g => { g with phase := .inputDone }

/-- The 12 bytes of an instant plus a delay in µs. -/
def applyTime (b : Instant) (us : Nat) : List Byte := instantBytes (b + usToUnits us)

/-- The STAGE record of a station: number, FULL, length and output data (R259, R285). -/
def stageRecord (s : State) (k n : Nat) : List Byte :=
  match s.adm (64 * k + n), s.ctx (64 * k + n) with
  | some a, some c =>
    let data := s.outputData a
    leBytes 1 n ++ leBytes 1 (if c.state = 4 then 0 else 1) ++ leBytes 2 data.length ++ data
  | _, _ => []

/-- The STAGE frames for some stations, each its records (R259). -/
def stageFrames (s : State) (k : Nat) (nums : List Nat) : List (List (Nat × List Byte)) :=
  packRecords (nums.map fun n => (n, s.stageRecord k n)) 0 []

/-- Sends STAGE frames (R259). -/
def sendStages (k cycle : Nat) (apply : List Byte) (frames : List (List (Nat × List Byte))) (s : State) : State :=
  frames.foldl (fun s rs =>
    s.sendGroup k 0x11 rs.length 0
      (leBytes 8 cycle ++ leBytes 4 (s.reg R.RED_CLAIM).toNat ++ apply ++ (rs.map (·.2)).flatten)) s

/-- The stations that a stage is for: those in SYNCING, ACTIVE or ABSENT (R267, R285). -/
def stageNums (s : State) (k : Nat) : List Nat :=
  ((s.segPositions k).filter fun p =>
    match s.ctx p with | some c => decide (3 ≤ c.state ∧ c.state ≤ 5) | none => false).map (· % 64)

/-- B − STAGE_WIN: outputs are read and staged for every station in SYNCING, ACTIVE or ABSENT (R277, R285). -/
def stagePhaseStart (k : Nat) (s : State) : State :=
  match s.boundTask k with
  | some t =>
    if s.segState k ≠ 2 ∨ (s.seg k).phase ≠ .inputDone then s
    else
      let b := (s.seg k).boundary
      let s := (s.modSeg k fun g => { g with phase := .stage, staged := none }).setReg (R.STN_SEG_DMEAS k) 0
      let s := s.checkOverrun t
      if !s.claiming then s
      else if (s.seg k).settle ≠ 0 then s.modSeg k fun g => { g with settle := g.settle - 1 }
      else
        match s.stageSource t b with
        | none => s
        | some cycle =>
          if s.finalMarked t then s
          else
            let frames := s.stageFrames k (s.stageNums k)
            let apply := applyTime b (s.reg (R.STN_APPLY_DELAY t)).toNat
            let s := s.modSeg k fun g =>
              { g with staged := some ⟨cycle, (s.reg R.RED_CLAIM).toNat, s.stageNums k, s.now % 2 ^ 32,
                                       sendOffsets k 0 frames, 0⟩ }
            s.sendStages k cycle apply frames
  | none => s

/-- A STAGE_ACK, at any time of the stage phase; one after the commit decision still reports its delay and a missed COMMIT
(R249, R260, R279, R288). -/
def stageAck (k : Nat) (p : List Byte) (s : State) : State :=
  if !s.segListens k then s
  else if ((s.seg k).phase ≠ .stage ∧ (s.seg k).phase ≠ .decided) ∨ !frameOk k 0x12 true p ∨ fieldAt p 2 2 ≠ 16 then s.badFrame
  else
    let (s, r) := s.acceptStation k p
    match r, (s.seg k).staged with
    | some pos, some g =>
      let b := bodyOf p
      let fl : Byte := BitVec.ofNat 8 (fieldAt p 7 1)
      let s := if bit fl 1 then s.bump (R.STN_SEG_COMMIT_MISSED k) 1 else s
      let sent := g.sendFrac + (tget g.sentAt (pos % 64)).getD 0
      let us := (fieldAt b 12 4 + 2 ^ 32 - sent % 2 ^ 32) % 2 ^ 32 * 1000000 / 2 ^ 32
      let s := if g.nums.contains (pos % 64) then
          (s.regMax (R.STN_SEG_DMEAS k) (satTo 12 us)).modCtx pos fun c => { c with delayUs := us }
        else s
      s.modCtx pos fun c =>
        { c with boxActive := bit fl 2,
                 acked := c.acked || (bit fl 0 && fieldAt b 0 8 == g.cycle && fieldAt b 8 4 == g.claim) }
    | _, _ => s

/-- The commit decision for one staged station that is still in session (R279, R286). -/
def decideStation (k cycle n : Nat) (s : State) : State :=
  let pos := 64 * k + n
  match s.ctx pos with
  | none => s
  | some c =>
    if c.acked ∧ 3 ≤ c.state ∧ c.state ≤ 5 then
      s.modSeg k fun g => { g with staged := g.staged.map fun x => { x with bitmap := x.bitmap ||| 2 ^ n } }
    else if c.state < 3 ∨ 4 < c.state then s
    else
      let s := s.modCtx pos fun c =>
        { c with state := 5, absentAt := s.raw, absentCount := c.absentCount + 1, away := 0 }
      let s := (s.bump (R.STN_SEG_ABSENT k) 1).raise srcStn Ev.STN_ABSENT (stnParam pos) cycle
      (s.notify 25).segCounts k

/-- B − 40 µs: the commit decision. [DEDUCED, log entry 72] -/
def commitDecision (k : Nat) (s : State) : State :=
  if (s.seg k).phase ≠ .stage then s
  else
    let s := match s.boundTask k with | some t => s.checkOverrun t | none => s
    let s := s.modSeg k fun g => { g with phase := .decided }
    match (s.seg k).staged with
    | none => s
    | some g => g.nums.foldl (fun s n => s.decideStation k g.cycle n) s

/-- A station whose commit bit is set becomes ACTIVE (R267 step 6, R286). -/
def commitStation (k : Nat) (g : Staged) (n : Nat) (s : State) : State :=
  let pos := 64 * k + n
  match s.ctx pos with
  | none => s
  | some c =>
    if g.bitmap / 2 ^ n % 2 = 0 ∨ c.state < 3 ∨ 5 < c.state then s
    else
      let s := s.modCtx pos fun c => { c with claim := g.claim }
      if c.state = 4 then s
      else
        let s := if c.fresh ∧ c.state = 3 then s.raise srcStn Ev.STN_ADMITTED (stnParam pos) c.ix
          else s.raise srcStn Ev.STN_REJOINED (stnParam pos) c.away
        ((s.modCtx pos fun c => { c with state := 4, fresh := false, away := 0 }).segCounts k).notify 25

/-- B: COMMIT is sent, unless the bound task's cycle faulted, nothing was staged, or the unit is leaving the primary
role (R262, R279). [DEDUCED, log entry 72] -/
def commitSend (k : Nat) (s : State) : State :=
  if (s.seg k).phase ≠ .decided then s
  else
    let s := s.modSeg k fun g => { g with phase := .commit }
    match (s.seg k).staged, s.boundTask k with
    | some g, some t =>
      if !s.claiming ∨ s.finalMarked t ∨ (s.task t).faultBoundary = some (s.seg k).boundary ∨
          (s.reg R.RED_CLAIM).toNat ≠ g.claim then s
      else
        let s := s.sendGroup k 0x13 0 0 (leBytes 8 g.cycle ++ leBytes 4 g.claim ++ leBytes 8 g.bitmap)
        let s := s.gapEnd ((s.seg k).boundary + usToUnits (s.reg (R.STN_APPLY_DELAY t)).toNat)
        g.nums.foldl (fun s n => s.commitStation k g n) s
    | _, _ => s

/-- The body of an ANNOUNCE (R263). -/
def announceBody (s : State) (k : Nat) (c : SegCfg) : List Byte :=
  let b : Option Instant := (s.nextBoundary k).map fun x => x.1
  let (us, delay) : Nat × Nat := match s.boundTask k with
    | some t => (250 * s.period t, (s.reg (R.STN_APPLY_DELAY t)).toNat)
    | none => (250 * c.unbound, 0)
  leBytes 8 (baseMac) ++ leBytes 4 (s.reg R.RED_CLAIM).toNat ++ leBytes 4 us ++
    instantBytes (b.getD 0) ++ leBytes 4 (stageWinNs k c / 1000) ++ leBytes 4 (tInNs k c / 1000) ++ leBytes 4 delay ++
    leBytes 2 (s.seg k).w ++ leBytes 1 (8 - (s.seg k).joinReqs) ++ [0]

/-- W after a service window (R268). -/
def adjustW (c : SegCfg) (reqs w : Nat) : Nat :=
  if !c.joinAuto then w
  else if 8 < reqs then min 64 (2 * w)
  else if reqs < 4 ∧ c.w < w then max c.w (w / 2)
  else w

/-- The service window opens: ANNOUNCE, then what waited for it (R256, R263, R268). -/
def serviceStart (k : Nat) (s : State) : State :=
  match s.segCfg k with
  | none => s
  | some c =>
    let ph := (s.seg k).phase
    if s.segState k ≠ 2 ∨ ph = .input ∨ ph = .stage ∨ ph = .decided then s
    else
      let w := adjustW c (s.seg k).joinReqs (s.seg k).w
      let q := (s.seg k).svcq
      let s := s.modSeg k fun g => { g with phase := .service, w := w, joinReqs := 0, svcq := [] }
      let s := s.setReg (R.STN_SEG_JOIN_WINDOW k) (BitVec.ofNat 32 w)
      let s := s.sendGroup k 0x01 0 0 (s.announceBody k c)
      let s := q.foldl (fun s x =>
        let ready := match s.ctx (64 * k + x.1) with | some c => inSession c || x.2.1 == 8 | none => false
        if x.2.1 = 0 then s.sendCelkin k (beNat (x.2.2.take 6)) (x.2.2.drop 6)
        else if ready then s.sendStation (64 * k + x.1) x.2.1 x.2.2
        else s.modSeg k fun g => { g with svcq := g.svcq ++ [x] }) s
      if 2 ^ 31 - 2 ^ 20 ≤ (s.seg k).txSeq ∧ (s.seg k).newKey = none then s.renewKey k else s

/-! ### Joins (R264 to R269) -/

/-- A join failure (R269, R294): counted for its serial number, and logged at most once per second per segment. -/
def joinFail (k : Nat) (serial : List Byte) (cause : Nat) (s : State) : State :=
  let key := leNat serial
  let recent := (((tget s.stn.fails key).getD []).filter fun t => decide (s.raw < t + rawUs 60000000)) ++ [s.raw]
  let s :=
    if cause = 4 then s
    else if recent.length < 3 then { s with stn := { s.stn with fails := tput s.stn.fails key recent } }
    else { s with stn := { s.stn with
      fails := tdel s.stn.fails key, locks := tput s.stn.locks key (s.raw + rawUs 60000000) } }
  let due := match (s.seg k).failLogged with | none => true | some t => decide (t + rawUs 1000000 ≤ s.raw)
  if due then (s.modSeg k fun g => { g with failLogged := some s.raw }).raise srcStn Ev.STN_JOIN_FAIL k cause else s

/-- The serial number is ignored (R269). -/
def serialLocked (s : State) (serial : List Byte) : Bool :=
  match tget s.stn.locks (leNat serial) with | some t => decide (s.raw < t) | none => false

/-- The station number that a JOIN_REQ is for, or the cause of its failure (R266, R269). [DEDUCED, log entry 71] -/
def joinPosition (s : State) (k : Nat) (b : List Byte) : Nat ⊕ Nat :=
  let serial := b.take 16
  if fieldAt b 16 1 = 0 then
    match s.nvNext.adms.find? fun x => x.1 / 64 == k && x.2.serial == serial with
    | some (p, _) => .inl (p % 64)
    | none => .inr 1
  else
    match tget s.nvNext.tokens (fieldAt b 20 4) with
    | none => .inr 3
    | some t =>
      let old : Bool := match t.expires with | some e => decide (e < s.now) | none => false
      if t.pos / 64 ≠ k ∨ (t.serial.isSome ∧ t.serial ≠ some serial) ∨ old then .inr 3
      else .inl (t.pos % 64)

/-- A JOIN_REQ (R268): the ninth and later of a window are ignored; an accepted one is answered with a challenge.
[DEDUCED, log entries 70, 71] -/
def joinReq (k mac : Nat) (p : List Byte) (s : State) : State :=
  let b := bodyOf p
  if !s.segListens k then s
  else if (s.seg k).phase ≠ .service ∨ !frameOk k 0x02 false p ∨ 1 < fieldAt b 16 1 ∨
      b.length ≠ (if fieldAt b 16 1 = 0 then 156 else 60) then s.badFrame
  else
    let n0 := (s.seg k).joinReqs
    let s := s.modSeg k fun g => { g with joinReqs := n0 + 1 }
    if 8 ≤ n0 then s.bump (R.STN_SEG_JOINS_DEFERRED k) 1
    else if s.serialLocked (b.take 16) then s.joinFail k (b.take 16) 4
    else
      match s.joinPosition k b with
      | .inr cause => s.joinFail k (b.take 16) cause
      | .inl n =>
        if !s.drbgOk then s
        else
          let (nonce, s) := s.drawBytes 32
          let (eph, s) := if fieldAt b 16 1 = 0 then s.drawBytes 48 else ([], s)
          let ch := if fieldAt b 16 1 = 0 then nonce ++ Config.p384Pub eph else nonce
          let (r, s) := s.draw 6
          let sig := if fieldAt b 16 1 = 0 then Config.ecdsaSign (s.identity.getD []) (b ++ ch) r else []
          let j : Join :=
            { mode := fieldAt b 16 1, serial := b.take 16, mac := mac, boxCrc := fieldAt b 24 4,
              token := if fieldAt b 16 1 = 0 then none else some (fieldAt b 20 4), request := b, challenge := ch,
              ctlNonce := nonce, ephPriv := eph, proof := none }
          let s := s.modSeg k fun g => { g with joins := tput g.joins n j }
          let s := s.modCtx (64 * k + n) fun c => { c with state := if c.state = 0 then 1 else c.state }
          s.sendCelkin k mac (celkinHeader 0x03 (ch ++ sig).length k n 0 0 0 0 ++ ch ++ sig)

/-- A JOIN_PROOF: its verification starts (R267 step 3). -/
def joinProof (k : Nat) (p : List Byte) (s : State) : State :=
  if !s.segListens k then s
  else if (s.seg k).phase ≠ .service ∨ !frameOk k 0x04 false p then s.badFrame
  else
    match tget (s.seg k).joins (fieldAt p 5 1) with
    | none => s
    | some j =>
      if fieldAt p 2 2 ≠ (if j.mode = 0 then 192 else 16) then s.badFrame
      else s.modSeg k fun g => { g with joins := tput g.joins (fieldAt p 5 1) { j with proof := some (bodyOf p) } }

/-- A token number that no token has. [DEDUCED, log entry 70] -/
def freshToken : Nat → Nat → List (Nat × Token) → Nat
  | 0, v, _ => v
  | fuel + 1, v, t => if (tget t v).isSome then freshToken fuel ((v + 1) % 2 ^ 32) t else v

/-- Issues a token: its number, its secret, and the state that holds it (R266). [DEDUCED, log entry 70] -/
def issueToken (pos : Nat) (serial : Option (List Byte)) (exp : Option Instant) (host : Bool) (s : State) :
    (Nat × List Byte) × State :=
  let (v, s) := s.draw 7
  let (secret, s) := s.drawBytes 32
  let id := freshToken (s.nvNext.tokens.length + 1) (v % 2 ^ 32) s.nvNext.tokens
  ((id, secret), s.updNv fun n => { n with tokens := tput n.tokens id ⟨pos, serial, secret, exp, host⟩ })

/-- Whether a proof verifies: `none`, or the cause of the failure with the secret input of R536 otherwise.
[DEDUCED, log entry 71] -/
def checkProof (s : State) (pos : Nat) (j : Join) (proof : List Byte) : List Byte ⊕ Nat :=
  let transcript := j.request ++ j.challenge
  if j.mode = 0 then
    let pub := proof.take 96
    match s.adm pos with
    | none => .inr 1
    | some a =>
      if a.serial ≠ j.serial ∨ a.keyHash ≠ Config.sha384 pub then .inr 1
      else if Config.ecdsaVerify pub (Config.sha384 transcript) (proof.drop 96) then
        .inl (Config.ecdh j.ephPriv (slice j.request 60 96))
      else .inr 2
  else
    match j.token.bind (tget s.nvNext.tokens) with
    | none => .inr 3
    | some t =>
      let old : Bool := match t.expires with | some e => decide (e < s.now) | none => false
      if old then .inr 3 else if Config.aesCmac t.secret transcript = proof then .inl t.secret else .inr 2

/-- The segment key is drawn at the first admission of the segment (R257). -/
def drawSegKey (k : Nat) (s : State) : State :=
  if (s.seg k).key ≠ [] then s
  else
    let (key, s) := s.drawBytes 32
    s.modSeg k fun g => { g with key := key, epoch := (g.epoch + 1) % 65536, txSeq := 0 }

/-- ADMIT: the old session is replaced, keys and a new token go out, and the station is SYNCING or CONFIGURING
(R264, R266, R267 step 4, R284). The key hash that a host-issued token fills in is a free value, since a join in mode 1
carries no key. [DEDUCED, log entries 134, 153] -/
def admitStation (k n : Nat) (j : Join) (secret : List Byte) (c : SegCfg) (s : State) : State :=
  let pos := 64 * k + n
  let s := match s.ctx pos with | some x => if inSession x then s.sendInService pos 0x08 (leBytes 4 3) else s | none => s
  let tok := j.token.bind (tget s.nvNext.tokens)
  let host := match tok with | some t => t.host | none => false
  let s := match j.token with | some id => s.updNv fun n => { n with tokens := tdel n.tokens id } | none => s
  let (h, s) := s.draw 8
  let (hash, s) := if host then freeBytes 84 48 s else ([], s)
  let s := match s.adm pos with
    | some a =>
      if host then s.updNv fun nv => { nv with adms := tput nv.adms pos { a with serial := j.serial, keyHash := hash } }
      else s
    | none =>
      let a : Adm :=
        { serial := j.serial, keyHash := hash, inFirst := 0, inCount := 0, outFirst := 0, outCount := 0,
          holdMs := 10 + h % (c.sessionMs - 10), groups := [], boxCrc := none }
      s.updNv fun nv => { nv with adms := tput nv.adms pos a }
  match s.adm pos with
  | none => s
  | some a =>
    let x := (s.ctx pos).getD (s.newCtx a)
    let s := s.drawSegKey k
    let (key, s) := s.drawBytes 32
    let (nonce, s) := s.drawBytes 12
    let ((tid, tsec), s) := s.issueToken pos none none false
    let (slot, s) := s.roundFree 9 ((n * wireByte k * inputWire c.bIn : Nat) : Int) 1000
    let epoch := (x.epoch + 1) % 65536
    let plain := leBytes 1 n ++ zeros 3 ++ leBytes 4 slot.toNat ++ leBytes 4 a.holdMs ++
      leBytes 4 (s.reg R.RED_CLAIM).toNat ++ key ++ (s.seg k).key ++ leBytes 2 epoch ++ leBytes 2 (s.seg k).epoch ++
      leBytes 4 tid ++ tsec
    let ctxB := j.ctlNonce ++ slice j.request 28 32 ++ j.serial ++ leBytes 1 k ++ leBytes 1 n
    let body := nonce ++ Config.gcmSeal (kdf secret "CELKIN ADMIT" ctxB 256) nonce [] plain
    let ready := a.boxCrc.isSome && a.boxCrc == some j.boxCrc
    let s := s.setCtx pos { x with
      state := if ready then 3 else 2, mac := j.mac, key := key, epoch := epoch, txSeq := 0, rxSeq := 0,
      claim := (s.reg R.RED_CLAIM).toNat, joinCount := x.joinCount + 1, fresh := j.mode == 0 || host, acked := false,
      sigs := x.sigs.map fun y => { y with first := true } }
    let s := s.modSeg k fun g => { g with cfgWait := g.cfgWait.filter fun w => w.2.1 != n }
    let s := (s.countContexts).segCounts k
    let s := s.sendCelkin k j.mac (celkinHeader 0x05 body.length k n 0 0 0 0 ++ body)
    let s := s.renewedKey k n
    if ready then s else s.raise srcStn Ev.STN_BOXWOOD_NEEDED (stnParam pos) 0

/-- The station has a record, or a context is free for a new one (R247). -/
def hasContext (s : State) (pos : Nat) : Bool := (s.adm pos).isSome || decide (s.stn.ctxs.length < 1024)

/-- The verification of a join ends, in a service window; without random data it does not end (R267 step 4, R269, R537).
[DEDUCED, log entry 153] -/
def joinVerified (k n : Nat) (s : State) : State :=
  match tget (s.seg k).joins n, s.segCfg k with
  | some j, some c =>
    match j.proof with
    | none => s
    | some proof =>
      if !s.segListens k ∨ (s.seg k).phase ≠ .service ∨ !s.pwr.mgtRuns ∨ !s.drbgOk then s
      else
        let r := s.checkProof (64 * k + n) j proof
        let s := s.modSeg k fun g => { g with joins := tdel g.joins n }
        match r with
        | .inl secret =>
          if s.hasContext (64 * k + n) then s.admitStation k n j secret c else s.joinFail k j.serial 1
        | .inr cause =>
          (s.modCtx (64 * k + n) fun c => { c with state := if c.state = 1 then 0 else c.state }).joinFail k j.serial cause
  | _, _ => s

/-- A CONFIG_ACK (R264, R271, R284). -/
def configAck (k : Nat) (p : List Byte) (s : State) : State :=
  if !s.segListens k then s
  else if (s.seg k).phase ≠ .service ∨ !frameOk k 0x07 true p ∨ fieldAt p 2 2 ≠ 8 then s.badFrame
  else
    let (s, r) := s.acceptStation k p
    match r with
    | none => s
    | some pos =>
      let n := pos % 64
      let seq := fieldAt (bodyOf p) 0 4
      match (s.seg k).cfgWait.find? fun x => x.1 == seq && x.2.1 == n with
      | none => s
      | some w =>
        let s := s.modSeg k fun g => { g with cfgWait := g.cfgWait.filter fun x => !(x.1 == seq && x.2.1 == n) }
        if fieldAt (bodyOf p) 4 4 ≠ 0 then s
        else if w.2.2 = 3 then
          s.modSeg k fun g => { g with newKey := g.newKey.map fun x => { x with left := x.left.filter (· != n) } }
        else
          let crc := ((s.adm pos).bind (·.boxCrc)).getD 0
          let s := s.raise srcStn Ev.STN_BOXWOOD_LOADED (stnParam pos) crc
          s.modCtx pos fun c => { c with state := if c.state = 2 then 3 else c.state }

/-! ### Segments (R293) -/

/-- The configuration of a segment is stored and shown (R292). -/
def setSegCfg (k : Nat) (g : SegCfg) (s : State) : State :=
  let s := s.updNv fun n => { n with segs := tput n.segs k g }
  let s := s.setReg (R.STN_SEG_MIN_CYCLE k) (BitVec.ofNat 32 (minCycleUs k g))
  let s := s.setReg (R.STN_SEG_STAGE_WIN k) (BitVec.ofNat 32 (stageWinNs k g / 1000))
  s.setReg (R.STN_SEG_DMAX k) (BitVec.ofNat 32 g.dmax)

/-- A DISABLED segment starts. -/
def segStart (k : Nat) (pend : Bool) (s : State) : State :=
  ((s.setRegField (R.STN_SEG_STATE k) 1 0 1).setRegBit (R.STN_SEG_STATE k) 2 false).modSeg k fun g =>
    { g with pended := pend }

/-- A segment stops: its exchange ends, and a station in session must be committed a full stage again. Sessions, a renewal
of the segment key, and what waits for a service window are kept. [DEDUCED, log entry 135] -/
def segStop (k : Nat) (s : State) : State :=
  let s := (s.setRegField (R.STN_SEG_STATE k) 1 0 3).segOffline k
  let s := s.modSeg k fun g =>
    { g with phase := .idle, staged := none, joins := [], wantOff := false }
  ((s.segPositions k).foldl (fun s p => s.modCtx p fun c =>
    { c with state := if c.state = 1 then 0 else if 3 ≤ c.state ∧ c.state ≤ 5 then 3 else c.state }) s).segCounts k

/-- A starting segment becomes ACTIVE (R294), or stops at once when a disable waits. [DEDUCED, log entry 135] -/
def segStartDone (k : Nat) (s : State) : State :=
  if s.segState k ≠ 1 then s
  else
    let pend := (s.seg k).pended
    let w := ((s.segCfg k).map (·.w)).getD 1
    let s := s.modSeg k fun g => { g with phase := .idle, w := w, joinReqs := 0, pended := false }
    let s := (s.setRegField (R.STN_SEG_STATE k) 1 0 2).setReg (R.STN_SEG_JOIN_WINDOW k) (BitVec.ofNat 32 w)
    let s := s.raise srcStn Ev.STN_SEGMENT_UP k (if pend then 1 else 0)
    if (s.seg k).wantOff then s.segStop k else s

/-- A stopping segment becomes DISABLED, and a pending enable starts (R149, R293). -/
def segStopDone (k : Nat) (s : State) : State :=
  if s.segState k ≠ 3 then s
  else
    let pend := s.regBit (R.STN_SEG_STATE k) 2
    let s := (s.setRegField (R.STN_SEG_STATE k) 1 0 0).raise srcStn Ev.STN_SEGMENT_DOWN k 0
    let s := s.completeWaiting (.segmentOff k) .ok 0
    if pend then s.segStart k true else s

/-- A standby takes the segment configurations of its claiming unit, and starts and stops segments as that unit did
(R517). [DEDUCED, log entry 109] -/
def takeSegs (segs : List (Nat × SegCfg)) (on : BitVec 20) (s : State) : State :=
  let s := (segs.filter fun x => x.1 < 20 ∧ s.segCfg x.1 ≠ some x.2).foldl (fun s x => s.setSegCfg x.1 x.2) s
  let s := if s.nvNext.segOn = on then s else s.updNv fun n => { n with segOn := on }
  (List.range 20).foldl (fun s k =>
    if !bit on k then (if s.segState k = 2 then s.segStop k else s)
    else if s.segState k = 0 ∧ (s.segCfg k).isSome ∧ s.domOn 6 then s.segStart k false else s) s

end State

/-! ### Event rows -/

/-- INPUT_PHASE_START (R249). -/
def execInputPhaseStart (k : Fin 20) (s : State) : Res := .next (s.inputPhaseStart k)
/-- INPUT_PHASE_END (R274). -/
def execInputPhaseEnd (k : Fin 20) (s : State) : Res := .next (s.inputPhaseEnd k)
/-- STAGE_PHASE_START (R277). -/
def execStagePhaseStart (k : Fin 20) (s : State) : Res := .next (s.stagePhaseStart k)
/-- STAGE_ACK_FRAME (R260). -/
def execStageAckFrame (k : Fin 20) (payload : List Byte) (s : State) : Res := .next (s.stageAck k payload)
/-- COMMIT_DECISION (R279). -/
def execCommitDecision (k : Fin 20) (s : State) : Res := .next (s.commitDecision k)
/-- COMMIT_SEND (R262). -/
def execCommitSend (k : Fin 20) (s : State) : Res := .next (s.commitSend k)
/-- JOIN_REQ_FRAME (R268). -/
def execJoinReqFrame (k : Fin 20) (mac : Nat) (payload : List Byte) (s : State) : Res := .next (s.joinReq k mac payload)
/-- JOIN_PROOF_FRAME (R267). -/
def execJoinProofFrame (k : Fin 20) (payload : List Byte) (s : State) : Res := .next (s.joinProof k payload)
/-- JOIN_VERIFY_DONE (R267). -/
def execJoinVerifyDone (k : Fin 20) (n : Fin 64) (s : State) : Res := .next (s.joinVerified k n)
/-- CONFIG_ACK_FRAME (R284). -/
def execConfigAckFrame (k : Fin 20) (payload : List Byte) (s : State) : Res := .next (s.configAck k payload)

/-- STATION_SESSION_TIMEOUT: nothing happens before the session timeout has passed (R287). -/
def execStationSessionTimeout (k : Fin 20) (n : Fin 64) (s : State) : Res :=
  .next <|
    match s.ctx (64 * k + n), s.segCfg k with
    | some c, some g =>
      if c.state = 5 ∧ c.absentAt + State.rawUs (1000 * g.sessionMs) ≤ s.raw then s.loseStation (64 * k + n) else s
    | _, _ => s

/-- SEGMENT_KEY_SWITCH: every station has acknowledged the new key, or the 64th bus cycle has come (R271). -/
def execSegmentKeySwitch (k : Fin 20) (s : State) : Res :=
  .next <|
    match (s.seg k).newKey with
    | some w =>
      if w.left.isEmpty ∨ 64 ≤ w.cycles then
        let s := s.modSeg k fun g => { g with key := w.key, epoch := w.epoch, txSeq := 0, peerSeq := 0, newKey := none }
        w.left.foldl (fun s n =>
          match s.ctx (64 * k + n) with
          | some c => if State.inSession c then s.loseStation (64 * k + n) else s
          | none => s) s
      else s
    | none => s

/-- JOIN_LOCKOUT_EXPIRY: nothing happens before the 60 s have passed (R269). -/
def execJoinLockoutExpiry (serial : List Byte) (s : State) : Res :=
  .next <|
    match tget s.stn.locks (leNat serial) with
    | some t => if t ≤ s.raw then { s with stn := { s.stn with locks := tdel s.stn.locks (leNat serial) } } else s
    | none => s

/-- SEGMENT_START_DONE (R294). -/
def execSegmentStartDone (k : Fin 20) (s : State) : Res := .next (s.segStartDone k).admitWaiting
/-- SEGMENT_STOP_DONE (R293). -/
def execSegmentStopDone (k : Fin 20) (s : State) : Res := .next (s.segStopDone k).admitWaiting

/-! ### Commands (R292) -/

/-- The segment of a command, below 20. -/
def withSeg (c : Cmd) (s : State) (f : Nat → State × CmdEnd) : State × CmdEnd :=
  if 19 < c.p 0 4 then (s, .st .badParam 0) else f (c.p 0 4)

/-- Execution of STN_SEGMENT_CONFIG. -/
def segmentConfig (c : Cmd) (s : State) : State × CmdEnd :=
  roleGate s <| withSeg c s fun k =>
    let g : SegCfg :=
      { n := c.p 4 1, joinAuto := c.p 5 1 == 1, w := c.p 6 2, bIn := c.p 8 2, bOut := c.p 0xA 2, dmax := c.p 0xC 4,
        unbound := c.p 0x10 4, sessionMs := c.p 0x14 4 }
    let recs := (s.segPositions k).filterMap s.adm
    let inBytes (a : Adm) : Nat :=
      roundUp ((layout (s.runTypes a.inFirst a.inCount) 0).2 + (a.inCount + 3) / 4) 8
    let outBytes (a : Adm) : Nat := (layout (s.runTypes a.outFirst a.outCount) 0).2
    if s.segState k ≠ 0 then (s, .st .mode)
    else
      match firstBad
        [(decide (g.n = 0 ∨ 64 < g.n), 4), (decide (1 < c.p 5 1), 5), (decide (g.w = 0 ∨ 64 < g.w), 6),
         (decide (g.bIn < 8 ∨ 4096 < g.bIn ∨ g.bIn % 8 ≠ 0) || recs.any (fun a => decide (g.bIn < inBytes a)), 8),
         (decide (g.bOut < 4 ∨ 1448 < g.bOut ∨ g.bOut % 4 ≠ 0) || recs.any (fun a => decide (g.bOut < outBytes a)), 0xA),
         (decide (g.dmax = 0 ∨ 2000 < g.dmax), 0xC), (decide (240000 < g.unbound), 0x10),
         (decide (g.sessionMs < 100 ∨ 3700000 < g.sessionMs) || recs.any (fun a => decide (g.sessionMs ≤ a.holdMs)), 0x14)]
      with
      | some off => (s, .st .badParam off)
      | none =>
        if g.n < recs.length then (s, .st .segmentFull)
        else feramGate s ((s.setSegCfg k g).rebind, .st .ok)

/-- Execution of STN_SEGMENT_ENABLE (R149, R293). -/
def segmentEnable (c : Cmd) (s : State) : State × CmdEnd :=
  roleGate s <| withSeg c s fun k =>
    if (s.segCfg k).isNone then (s, .st .badParam 0)
    else
      let s := s.updNv fun n => { n with segOn := setBit n.segOn k true }
      match s.segState k with
      | 2 => (s, .st .ok)
      | 0 => (s.segStart k false, .st .pending)
      | 1 => (if (s.seg k).wantOff then s.setRegBit (R.STN_SEG_STATE k) 2 true else s, .st .pending)
      | _ => (s.setRegBit (R.STN_SEG_STATE k) 2 true, .st .pending)

/-- Execution of STN_SEGMENT_DISABLE (R149, R293). -/
def segmentDisable (c : Cmd) (s : State) : State × CmdEnd :=
  roleGate s <| withSeg c s fun k =>
    if (s.boundTask k).isSome ∧ !s.stopped then (s, .st .mode)
    else
      let s := s.updNv fun n => { n with segOn := setBit n.segOn k false }
      let pend := s.regBit (R.STN_SEG_STATE k) 2 && ((s.seg k).wantOff || s.segState k == 3)
      let s := if pend then
          (s.setRegBit (R.STN_SEG_STATE k) 2 false).raise srcStn Ev.STN_SEGMENT_ENABLE_CANCELLED k 0
        else s
      match s.segState k with
      | 0 => (s, .st .ok)
      | 2 => (s.segStop k, .later (.segmentOff k))
      | 1 => (s.modSeg k fun g => { g with wantOff := true }, .later (.segmentOff k))
      | _ => (s, .later (.segmentOff k))

/-- Two index ranges share an index. -/
def rangesMeet (a b : Nat × Nat) : Bool := decide (0 < a.2 ∧ 0 < b.2 ∧ a.1 < b.1 + b.2 ∧ b.1 < a.1 + a.2)

/-- Execution of STN_ADMIT (R265). -/
def stationAdmit (c : Cmd) (s : State) : State × CmdEnd :=
  roleGate s <| withSeg c s fun k =>
    let n := c.p 4 4
    let g := c.p 0x5C 4
    let a : Adm :=
      { serial := slice c.params 8 16, keyHash := slice c.params 0x18 48, inFirst := c.p 0x48 4, inCount := c.p 0x4C 4,
        outFirst := c.p 0x50 4, outCount := c.p 0x54 4, holdMs := c.p 0x58 4,
        groups := (List.range g).map fun i => c.p (0x60 + 4 * i) 4, boxCrc := none }
    let others := (s.nvNext.adms.map fun x => [(x.2.inFirst, x.2.inCount), (x.2.outFirst, x.2.outCount)]).flatten
    let signals := (s.reg R.CYC_SIGNALS).toNat
    let badRun (r : Nat × Nat) : Bool := decide (0 < r.2 ∧ signals < r.1 + r.2) || others.any (rangesMeet r)
    let inBytes := roundUp ((layout (s.runTypes a.inFirst a.inCount) 0).2 + (a.inCount + 3) / 4) 8
    let outBytes := (layout (s.runTypes a.outFirst a.outCount) 0).2
    match s.segCfg k with
    | none => (s, .st .segmentFull)
    | some cfg =>
      if cfg.n ≤ (s.segPositions k).length then (s, .st .segmentFull)
      else if 16 < g then (s, .st .badParam 0x5C)
      else if c.params.length ≠ 0x60 + 4 * g then (s, badLen (0x60 + 4 * g))
      else
        match firstBad
          ([(decide (63 < n) || (s.adm (64 * k + n)).isSome, 4), (decide (384 < a.inCount), 0x4C),
            (decide (a.holdMs < 10 ∨ 3600000 < a.holdMs ∨ cfg.sessionMs ≤ a.holdMs), 0x58),
            (badRun (a.inFirst, a.inCount), 0x48),
            (badRun (a.outFirst, a.outCount) || rangesMeet (a.inFirst, a.inCount) (a.outFirst, a.outCount), 0x50),
            (decide (cfg.bIn < inBytes), 0x4C), (decide (cfg.bOut < outBytes), 0x54)] ++
           a.groups.mapIdx fun i w =>
             let x : Word := BitVec.ofNat 32 w
             (decide (field x 31 24 ≠ 0 ∨ a.inCount < field x 8 0 + field x 17 9 + 1), 0x60 + 4 * i))
        with
        | some off => (s, .st .badParam off)
        | none =>
          if 1024 ≤ s.stn.ctxs.length then (s, .st .busy 2)
          else feramGate s <|
            let x := s.newCtx a
            let s := s.updNv fun nv => { nv with adms := tput nv.adms (64 * k + n) a }
            ((((s.setCtx (64 * k + n) x).countContexts).segCounts k).offlineSegs, .st .ok x.ix)

/-- Execution of STN_REMOVE (R271). [DEDUCED, log entry 135] -/
def stationRemove (c : Cmd) (s : State) : State × CmdEnd :=
  roleGate s <| withSeg c s fun k =>
    let pos := 64 * k + c.p 4 4
    match s.adm pos with
    | none => (s, .st .stationUnknown)
    | some a =>
      if 63 < c.p 4 4 then (s, .st .stationUnknown)
      else if (s.seg k).key ≠ [] ∧ !s.drbgOk then (s, .st .internal)
      else feramGate s <|
        let s := s.modSeg k fun g => { g with svcq := g.svcq.filter fun x => x.1 != pos % 64 }
        let s := match s.ctx pos with
          | some x => if State.inSession x then s.leaveUnder k (pos % 64) x 1 else s
          | none => s
        let s := s.setQualities a.inFirst a.inCount 0x06
        let s := s.updNv fun nv => { nv with
          adms := tdel nv.adms pos, tokens := nv.tokens.filter fun t => t.2.pos != pos }
        let s := { s with stn := { s.stn with ctxs := tdel s.stn.ctxs pos } }
        let s := s.modSeg k fun g => { g with joins := tdel g.joins (pos % 64) }
        let s := ((s.countContexts).segCounts k).raise srcStn Ev.STN_REMOVED (State.stnParam pos) 0
        (s.renewKey k, .st .ok)

/-- Execution of STN_TOKEN_ISSUE; a token older than its validity is none (R266). [DEDUCED, log entry 154] -/
def tokenIssue (c : Cmd) (s : State) : State × CmdEnd :=
  roleGate s <| withSeg c s fun k =>
    let pos := 64 * k + c.p 4 4
    let ser := slice c.params 8 16
    let live := s.nvNext.tokens.any fun t => t.2.pos == pos &&
      (match t.2.expires with | some e => decide (s.now ≤ e) | none => true)
    match firstBad [(decide (63 < c.p 4 4), 4), (decide (c.p 0x18 4 = 0 ∨ 2592000 < c.p 0x18 4), 0x18)] with
    | some off => (s, .st .badParam off)
    | none =>
      if live then (s, .st .tokenInvalid)
      else if !s.drbgOk then (s, .st .internal)
      else feramGate s <|
        let ((id, secret), s) := s.issueToken pos (if allZero ser then none else some ser)
          (some (s.now + c.p 0x18 4 * 2 ^ 32)) true
        (s, replyOr c (leBytes 4 id ++ secret))

/-- Execution of STN_BOXWOOD_SET (R284). -/
def boxwoodSet (c : Cmd) (s : State) : State × CmdEnd :=
  roleGate s <| withSeg c s fun k =>
    let pos := 64 * k + c.p 4 4
    match s.adm pos, s.segCfg k with
    | some a, some g =>
      if 63 < c.p 4 4 then (s, .st .stationUnknown)
      else if c.params.length ≠ 8 + g.bOut then (s, badLen (8 + g.bOut))
      else feramGate s <|
        let data := c.params.drop 8
        let s := s.updNv fun nv => { nv with adms := tput nv.adms pos { a with boxCrc := some (crc32 data).toNat } }
        let body := leBytes 2 1 ++ leBytes 2 data.length ++ data
        let s := match s.ctx pos with
          | some x =>
            if State.inSession x then s.sendInService pos 0x06 body
            else s.modSeg k fun g => { g with svcq := g.svcq ++ [(pos % 64, 0x06, body)] }
          | none => s
        (s, .st .ok)
    | _, _ => (s, .st .stationUnknown)

/-- Execution of STN_STATUS. -/
def stationStatus (c : Cmd) (s : State) : State × CmdEnd :=
  withSeg c s fun k =>
    let pos := 64 * k + c.p 4 4
    match s.adm pos, s.ctx pos with
    | some a, some x =>
      if 63 < c.p 4 4 then (s, .st .stationUnknown)
      else (s, replyOr c (padTo 48 (leBytes 4 x.state ++ leBytes 4 x.ix ++ a.serial ++ leBytes 4 x.claim ++
        leBytes 4 x.delayUs ++ leBytes 4 x.absentCount ++ leBytes 4 x.joinCount ++ leBytes 4 (a.boxCrc.getD 0))))
    | _, _ => (s, .st .stationUnknown)

/-- Execution of STN_LIST. -/
def stationList (c : Cmd) (s : State) : State × CmdEnd :=
  withSeg c s fun k =>
    let word (n : Nat) : Nat :=
      match s.ctx (64 * k + n) with
      | some x => x.state + (if x.boxActive then 8 else 0) + 16 * (x.delayUs % 2 ^ 28)
      | none => 7
    (s, replyOr c (((List.range 64).map fun n => leBytes 4 (word n)).flatten))

/-- STN_SEGMENT_CONFIG. -/
def execStnSegmentConfig (id : Nat) (s : State) : Res := hostRow Op.STN_SEGMENT_CONFIG id segmentConfig s
/-- STN_SEGMENT_ENABLE. -/
def execStnSegmentEnable (id : Nat) (s : State) : Res := hostRow Op.STN_SEGMENT_ENABLE id segmentEnable s
/-- STN_SEGMENT_DISABLE. -/
def execStnSegmentDisable (id : Nat) (s : State) : Res := hostRow Op.STN_SEGMENT_DISABLE id segmentDisable s
/-- STN_ADMIT. -/
def execStnAdmit (id : Nat) (s : State) : Res := hostRow Op.STN_ADMIT id stationAdmit s
/-- STN_REMOVE. -/
def execStnRemove (id : Nat) (s : State) : Res := hostRow Op.STN_REMOVE id stationRemove s
/-- STN_TOKEN_ISSUE. -/
def execStnTokenIssue (id : Nat) (s : State) : Res := hostRow Op.STN_TOKEN_ISSUE id tokenIssue s
/-- STN_BOXWOOD_SET. -/
def execStnBoxwoodSet (id : Nat) (s : State) : Res := hostRow Op.STN_BOXWOOD_SET id boxwoodSet s
/-- STN_STATUS. -/
def execStnStatus (id : Nat) (s : State) : Res := hostRow Op.STN_STATUS id stationStatus s
/-- STN_LIST. -/
def execStnList (id : Nat) (s : State) : Res := hostRow Op.STN_LIST id stationList s

end Sys2Proof.Machine
end

