-- ==== Sys2Proof/Machine/Redundancy.lean ====
section
/-! DEFINITION. Redundant pairs, the Birlith link and switch-over (spec 14). -/

namespace Sys2Proof.Machine

namespace State

def modRed (f : RedSt → RedSt) (s : State) : State := { s with red := f s.red }

/-! ### Units, link and claims (R499 to R506, R511, R512) -/

/-- PAIRED. -/
def paired (s : State) : Bool := s.regBit R.RED_CFG 0
/-- SYNCED. -/
def synced (s : State) : Bool := s.regBit R.RED_ROLE 4
/-- The peer's role from its last heartbeat. -/
def peerRole (s : State) : Nat := s.regField R.RED_ROLE 8 6
def peerPresent (s : State) : Bool := s.regBit R.RED_ROLE 5
/-- A role is claiming. -/
def claimingRole (r : Nat) : Bool := r == 0 || r == 1 || r == 4
def claimUnknown (s : State) : Bool := s.regBit R.RED_ROLE 10

/-- Retired physical lanes. -/
def lanesRetired (s : State) : List Nat := (s.hlt.maps.units.filter fun u => u.1 == 7).map (·.2)

/-- Shows the lanes in RED.LINK (R529). -/
def showLanes (s : State) : State :=
  let bits (l : List Nat) : Nat := (List.range 3).foldl (fun n i => if l.contains i then n + 2 ^ i else n) 0
  let s := (s.setRegField R.RED_LINK 4 2 (bits s.red.active)).setRegField R.RED_LINK 7 5 (bits s.lanesRetired)
  s.setRegBit R.RED_LINK 8 (s.spareLeft 7 0)

/-- The new claim of R503, unless it would be the claim that is never taken. -/
def nextClaim (s : State) : Option Nat :=
  let n := (s.reg R.RED_CLAIM_SEEN).toNat + 1
  let c := if n % 2 = (if Config.strapB then 1 else 0) then n else n + 1
  if c < 2 ^ 32 - 1 then some c else none

/-- The highest claim seen (R503). [DEDUCED, log entry 93] -/
def seeClaim (c : Nat) (s : State) : State := s.regMax R.RED_CLAIM_SEEN c

/-- The claim record is written in both copies; such a write is never held (R504). -/
def writeClaim (c : Nat) (s : State) : State :=
  let s := ((s.setReg R.RED_CLAIM (BitVec.ofNat 32 c)).seeClaim c).modRed fun r => { r with claimDue := none }
  let put (n : Nv) : Nv := { n with regs := tput n.regs R.RED_CLAIM (BitVec.ofNat 32 c) }
  { s with nv := put s.nv, nvNext := put s.nvNext }

/-- Takes a new claim; while a power-fail save goes on the write waits for it. `none` where no claim can be taken. -/
def takeClaim (s : State) : Option State :=
  if s.claimUnknown then none
  else
    match s.nextClaim with
    | none => none
    | some c =>
      if s.pwr.saving then some (s.modRed fun r => { r with claimDue := some c }) else some (s.writeClaim c)

/-- A unit without a known claim takes no claiming role (R505). -/
def refuseClaim (s : State) : State := s.raise srcRed Ev.RED_CLAIM_UNKNOWN 0 0

/-- Entry into a role: a claiming role from one that is not takes a new claim (R502, R503). -/
def enterRole (r : Nat) (s : State) : State :=
  if claimingRole r ∧ !s.claiming then
    match s.takeClaim with
    | some s => (s.setRole r).modRed fun x => { x with silentInd := false }
    | none => s.refuseClaim
  else s.setRole r

/-- Tasks of a unit that becomes STANDBY stop: every cycle ends without copy-out. -/
def stopTasks (s : State) : State :=
  let s := if s.changeState = 2 then s.abandonChange .aborted else s
  (List.range 32).foldl (fun s t =>
    if s.inside t then ((s.dropXfer t).clearCore t .idle).modTask t fun x => { x with phase := .idle, stageFor := none }
    else s) s

/-- The unit becomes STANDBY without a complete state; a full synchronisation starts. -/
def becomeStandby (s : State) : State :=
  let s := (s.setRegBit R.RED_ROLE 4 false).stopTasks
  let s := s.modRed fun r => { r with
    standbyDue := false, syncFrom := s.raw, copied := [], copiedMode := s.mode, takeover := none, missed := 0,
    handover := none, finalDone := [], peerSynced := false, silentInd := false }
  s.setRole 2

/-- A claiming unit has been displaced (R506). -/
def displaced (c : Nat) (s : State) : State :=
  let s := (s.seeClaim c).raise srcRed Ev.RED_DISPLACED 0 c
  if s.linkUpNow then s.becomeStandby else s.setRole 3

/-- A verified STAGE, COMMIT or ANNOUNCE at a segment port carries a claim (R503, R506, R519).
[DEDUCED, log entry 93] -/
def observeClaim (k c : Nat) (commit : Bool) (s : State) : State :=
  let own := (s.reg R.RED_CLAIM).toNat
  if s.claiming then (if own < c then s.displaced c else s.seeClaim c)
  else
    let s := s.seeClaim c
    if commit ∧ s.role = 2 then
      match s.boundTask k with
      | some t =>
        let i := tickOf s.now
        let p := max 1 (s.period t)
        let b := tickAt (i - (i + p - s.taskPhase t % p) % p)
        s.modRed fun r => { r with
          peerCommit := some s.now, gapFrom := some (b + usToUnits (s.reg (R.STN_APPLY_DELAY t)).toNat) }
      | none => s.modRed fun r => { r with peerCommit := some s.now }
    else s

/-! ### Synchronisation (R514 to R518) -/

/-- The standby becomes UNSYNCED (R515, R531). -/
def unsync (reason : Nat) (s : State) : State :=
  if s.role = 2 ∧ s.synced then
    ((s.setRegBit R.RED_ROLE 4 false).bump R.RED_UNSYNC_COUNT 1).raise srcRed Ev.RED_UNSYNCED reason 0
      |>.modRed fun r => { r with syncFrom := s.raw }
  else s

/-- The addresses of the task table. [DEDUCED, log entry 109] -/
def tableAddrs : List Nat := ((List.range 32).map fun t => (List.range 16).map fun i => R.CYC_TASK_CFG t + 4 * i).flatten

/-- The global image, and the data area of the program. -/
def imageArea (s : State) : Nat × Nat :=
  (s.entryAddr 0, 16 * ((s.cyc.prog.map fun p => hSignals p.image).getD 0))
def dataArea (s : State) : Nat × Nat :=
  ((s.cyc.prog.map fun p => hDataBase p.image).getD 0, (s.cyc.prog.map fun p => hDataLen p.image).getD 0)

/-- A granule lies in an area, in whole or in part. -/
def granuleIn (a : Nat × Nat) (g : Nat) : Bool := decide (a.1 < 256 * g + 256 ∧ 256 * g < a.1 + a.2)

/-- The state copy of a task with the given granules (R514). [DESIGN CHOICE, log entry 108; DEDUCED, log entry 109] -/
def copyOf (s : State) (t : Nat) (granules : List Nat) : StateCopy :=
  let x := s.task t
  { task := t, cycle := x.lastDone, release := x.releaseTick, overruns := x.overruns, faults := x.faults,
    mode := if s.mode = 1 then 1 else 0, final := s.red.handover.isSome, oversize := false,
    granules := granules.map fun g => (256 * g, s.bytesAt (256 * g) 256),
    table := tableAddrs.map fun a => (a, s.reg a), prog := s.cyc.prog, forces := s.cyc.forces, adms := s.nvNext.adms,
    tokens := s.nvNext.tokens, ctxs := s.stn.ctxs, keys := s.stn.segs.map fun g => (g.key, g.epoch, g.txSeq),
    slots := s.solv.slots,
    bases := s.met.chs.filterMap fun c => if c.1 < 2048 then c.2.base.map fun b => (c.1, b) else none,
    segs := s.nvNext.segs, segOn := s.nvNext.segOn, met := s.nvNext.met,
    pkg := match s.cyc.change with | some ch => if ch.values then none else some ch.image | none => none }

/-- STATE_COPY_SEND: the cycle of a task has ended on the primary, and its copy has not been sent (R514, R515). -/
def copySend (t : Nat) (s : State) : State :=
  let x := s.task t
  if s.role ≠ 1 ∨ !s.linkUpNow ∨ x.lastDone = 0 ∨ tget s.red.sent t = some x.lastDone then s
  else
    let own := (tget s.red.taskDirty t).getD [] ++ (tget s.red.taskDirty 32).getD []
    let gs := (s.red.dirty.filter fun g => granuleIn s.imageArea g) ++ own.filter fun g => granuleIn s.dataArea g
    let s := s.modRed fun r => { r with
      sent := tput r.sent t x.lastDone, taskDirty := tdel (tdel r.taskDirty t) 32,
      dirty := r.dirty.filter fun g => !granuleIn s.imageArea g }
    if 40960 < gs.length then
      (s.modRed fun r => { r with peerSynced := false, syncFrom := s.raw }).emit
        (.stateCopy { s.copyOf t [] with oversize := true })
    else
      let s := s.setReg R.RED_COPY_LAST (BitVec.ofNat 32 gs.length)
      let s := (s.regMax R.RED_COPY_PEAK gs.length).emit (.stateCopy (s.copyOf t gs))
      match s.red.handover with
      | none => s
      | some _ =>
        let s := s.modRed fun r => { r with finalDone := r.finalDone ++ [t] }
        if (List.range 32).all fun u => !s.taskEnabled u || s.red.finalDone.contains u then s.emit .handover else s

/-- The redundancy block may write a granule: shared data SRAM, or installed DDR (R38). [DEDUCED, log entry 109] -/
def granuleMay (s : State) (a : Nat) : Bool :=
  a % 256 == 0 && (decide (0x1000000 ≤ a ∧ a < 0x2000000) || decide (0x1000000000 ≤ a ∧ a < 0x1000000000 + s.ddrSize))

/-- The standby takes the program of a copy, in the half that it runs from: as the switch of a change where it has
another build of that program, placed anew otherwise (R226, R232, R524). [DEDUCED, log entry 151] -/
def takeProgram (p : Prog) (s : State) : State :=
  let half := if p.codeBase = halfBase 1 + hCodeOff p.image then 1 else 0
  match s.cyc.prog with
  | some q =>
    if q = p then s
    else if hProgramId q.image = hProgramId p.image ∧ q.image ≠ p.image then
      ((s.placeCode p.image (halfBase half)).placeTables p.image).installChange half p.image
    else (s.placeIn half p.image).offlineSegs
  | none => (s.placeIn half p.image).offlineSegs

/-- The standby applies a copy (R514, R517, R518). [DEDUCED, log entry 109] -/
def applyCopy (c : StateCopy) (s : State) : State :=
  let s := match c.prog with | some p => s.takeProgram p | none => s
  let s := match c.pkg with
    | some img => (s.placeCode img (halfBase s.otherHalf)).placeTables img
    | none => s
  let s := (c.granules.filter fun g => s.granuleMay g.1).foldl (fun s g => s.setBytes g.1 (padTo 256 g.2)) s
  let s := (c.table.filter fun x => tableAddrs.contains x.1).foldl (fun s x => s.setReg x.1 x.2) s
  let s := ((s.takeSegs c.segs c.segOn).takeMetCfg c.met).updNv fun n => { n with adms := c.adms, tokens := c.tokens }
  let keyed (x : SegSt × Nat) : SegSt := match c.keys[x.2]? with
    | some k =>
      { x.1 with key := k.1, epoch := k.2.1, txSeq := k.2.2, peerSeq := if x.1.key = k.1 then x.1.peerSeq else 0 }
    | none => x.1
  let segs := s.stn.segs.zipIdx.map keyed
  let s := { s with cyc := { s.cyc with forces := c.forces }, stn := { s.stn with ctxs := c.ctxs, segs := segs },
                    solv := { s.solv with slots := c.slots } }
  let s := (c.bases.filter fun x => x.1 < 2048).foldl (fun s x => s.modMetCh x.1 fun y => { y with base := some x.2 }) s
  let s := s.modTask c.task fun x => { x with overruns := c.overruns, faults := c.faults, lastDone := c.cycle }
  let s := s.setReg64 (R.CYC_CYCLE_LO c.task) (R.CYC_CYCLE_HI c.task) c.cycle
  let s := s.setRegField R.CYC_MODE 1 0 c.mode
  let s := s.modRed fun r => { r with
    copied := tput r.copied c.task (c.cycle, c.release, c.final), copiedMode := c.mode }
  s.rebind.countContexts.solvShow

/-- STATE_COPY_RECEIVED: applied only on a standby that holds no takeover (R514, R520). -/
def copyReceived (c : StateCopy) (s : State) : State :=
  if s.role ≠ 2 ∨ s.red.takeover.isSome ∨ !s.linkUpNow then s
  else if c.oversize then s.unsync 1
  else s.applyCopy c

/-- STATE_COPY_LATE. -/
def copyLate (s : State) : State := s.unsync 2

/-- FULL_SYNC_PASS_END: on the standby the whole state is applied and it becomes SYNCED; the claiming unit notes it and
its granules written before count as copied (R501, R515). -/
def syncEnd (c : StateCopy) (s : State) : State :=
  if !s.linkUpNow then s
  else if s.role = 1 then
    let gs := granulesOf s.imageArea ++ granulesOf s.dataArea
    (s.modRed fun r => { r with peerSynced := true, dirty := [], taskDirty := [] }).emit (.stateCopy (s.copyOf c.task gs))
  else if (s.role = 2 ∧ !s.synced) ∨ s.red.standbyDue then
    let from_ := s.red.syncFrom
    let s := if s.red.standbyDue then s.becomeStandby else s
    let s := (s.applyCopy c).setRegBit R.RED_ROLE 4 true
    s.raise srcRed Ev.RED_SYNCED 0 (satTo 32 ((s.raw - from_) / 250000))
  else s

/-! ### Heartbeats and the role decision (R501, R513) -/

/-- HEARTBEAT_SEND: at a 250 µs tick, a heartbeat or a SILENT indication leaves. -/
def heartbeatSend (s : State) : State :=
  if !s.linkUpNow then s
  else if s.red.silentInd then s.emit .silent
  else
    let h : Heartbeat :=
      { role := s.role, synced := s.synced, claim := (s.reg R.RED_CLAIM).toNat, mode := s.mode,
        cycles := s.cyc.tasks.map (·.lastDone), leaving := s.red.leaving, theta := none }
    (s.modRed fun r => { r with leaving := false }).emit (.heartbeat h)

/-- The role decision once the peer has been heard (R501). -/
def decideByPeer (s : State) : State :=
  let s := s.modRed fun r => { r with deciding := false }
  if claimingRole s.peerRole then s.modRed fun r => { r with standbyDue := true, syncFrom := s.raw }
  else if Config.strapB then s.becomeStandby
  else s.enterRole 1

/-- HEARTBEAT_RECEIVED. -/
def heartbeatReceived (h : Heartbeat) (s : State) : State :=
  if !s.linkUpNow then s
  else
    let s := ((s.setRegField R.RED_ROLE 8 6 h.role).setRegBit R.RED_ROLE 5 true).seeClaim h.claim
    let s := s.modRed fun r => { r with
      heard := true, missed := 0, blockLogged := false,
      peerSynced := if h.role = 2 then h.synced && r.peerSynced else false }
    let s : State := match h.theta with
      | some d => if s.timeSource = 3 then (s.qualifySample d 0 []).1 else s
      | none => s
    if s.red.deciding then s.decideByPeer
    else if s.role = 2 then
      if h.role = 4 then (s.unsync 4).setRegBit R.RED_ROLE 9 true
      else
        let s := s.setRegBit R.RED_ROLE 9 false
        if h.leaving then s.setRole 3 else s
    else if s.role = 1 then
      if h.leaving then s.setRole 0
      else if s.red.handover.isSome ∧ h.role = 1 ∧ (s.reg R.RED_CLAIM).toNat < h.claim then s.becomeStandby
      else s
    else s

/-- The time source LINK is lost with the link (R522). -/
def linkSourceLost (s : State) : State := if s.timeSource = 3 ∧ s.servo ≠ 0 then s.setServo 3 0 false else s

/-- LINK_WAIT_EXPIRY: the link has not come up in time (R501). -/
def linkWait (s : State) : State :=
  let w := s.regField R.RED_CFG 23 16 * (if Config.strapB then 2 else 1)
  if s.red.deciding ∧ !s.linkUpNow ∧ s.domOn 11 ∧ s.red.linkOnAt + rawUs (100000 * w) ≤ s.raw then
    (s.modRed fun r => { r with deciding := false }).enterRole 1
  else s

/-- The role decision at step 6 of R129. -/
def roleDecision (s : State) : State :=
  if s.paired then s.modRed fun r => { r with deciding := true, linkOnAt := s.raw } else s.enterRole 0

/-! ### Takeover (R519 to R522) -/

/-- What the cause of a takeover needs (R516, R528). -/
def takeoverAllowed (s : State) (indication : Bool) : Bool :=
  let unsyncedOk := s.regBit R.RED_CFG 2
  !s.claimUnknown && (if s.regBit R.RED_ROLE 9 then indication && unsyncedOk else s.synced || unsyncedOk)

/-- A takeover starts, or is blocked (R516, R520). -/
def takeoverBegin (cause : Nat) (s : State) : State :=
  if s.red.takeover.isSome then s
  else if !s.takeoverAllowed (cause == 1) then
    if s.red.blockLogged then s
    else (s.modRed fun r => { r with blockLogged := true }).raise srcRed Ev.RED_TAKEOVER_BLOCKED 0 0
  else
    let s := s.raise srcRed Ev.RED_TAKEOVER cause (s.reg R.RED_CLAIM_SEEN).toNat
    match s.takeClaim with
    | some s => s.modRed fun r => { r with
        takeover := some cause, firstMiss := if cause = 1 then s.now else r.firstMiss }
    | none => s.refuseClaim

/-- SILENT_INDICATION (R519). -/
def silentReceived (s : State) : State :=
  if !s.linkUpNow then s
  else
    let s := s.setRegField R.RED_ROLE 8 6 3
    if s.role = 2 then s.takeoverBegin 1 else s

/-- HEARTBEAT_MISSED: no heartbeat within 50 µs of its tick (R513). -/
def heartbeatMissed (s : State) : State :=
  if s.red.heard then s.modRed fun r => { r with heard := false }
  else
    let n := s.red.missed + 1
    let s := s.modRed fun r => { r with
      missed := n, firstMiss := if n = 1 then tickAt (tickOf s.now) else r.firstMiss }
    if s.regField R.RED_CFG 7 4 ≤ n then s.setRegBit R.RED_ROLE 5 false else s

/-- The fastest bound task with its segment. -/
def fastestBound (s : State) : Option (Nat × Nat) :=
  ((List.range 20).filterMap fun k => (s.boundTask k).map fun t => (t, k)).foldl
    (fun b x => match b with
      | none => some x
      | some y => if s.period x.1 < s.period y.1 then some x else some y) none

/-- The instant that the standby waits for (R519). -/
def waitLimit (s : State) : Instant :=
  match s.fastestBound with
  | none => s.red.firstMiss
  | some (t, k) =>
    let i := tickOf s.red.firstMiss
    let i0 := nextGrid (s.period t) (s.taskPhase t) (i - 1)
    let b := if i = 0 then tickAt (nextGrid (s.period t) (s.taskPhase t) 0) else tickAt i0
    b + usToUnits (s.regField (R.STN_SEG_DMAX k) 11 0 + 100)

/-- TAKEOVER_START (R519): with COMMITs from the peer since the first miss, only the link has failed. -/
def takeoverStart (s : State) : State :=
  if s.role ≠ 2 ∨ s.red.missed < s.regField R.RED_CFG 7 4 ∨ s.now < s.waitLimit ∨ s.regBit R.RED_ROLE 9 then s
  else
    let alive := match s.red.peerCommit with | some t => decide (s.red.firstMiss ≤ t) | none => false
    if alive then
      if s.red.blockLogged then s
      else ((s.modRed fun r => { r with blockLogged := true }).raise srcRed Ev.RED_LINK_DOWN 1 0).unsync 3
    else s.takeoverBegin 2

/-- The first release of a task of a new primary: cycle numbers keep following the grid, and releases that no unit made
are counted (R520 step 5, R522). -/
def resumeTaskGrid (t : Nat) (s : State) : State :=
  if !s.taskEnabled t ∨ s.period t = 0 then s
  else
    let p := s.period t
    let i := nextGrid p (s.taskPhase t) (tickOf s.now - if s.now = tickAt (tickOf s.now) then 1 else 0)
    let s := s.modTask t fun x => { x with seenTick := i - 1, lastTick := none, phase := .idle, stageFor := none }
    match tget s.red.copied t with
    | none => s
    | some (c, r, _) =>
      let n := (i - r) / p
      let lost := (List.range n).countP fun j =>
        let j' := r + p * (j + 1)
        decide (j' < i) && decide (s.red.firstMiss ≤ tickAt j')
      (s.setReg64 (R.CYC_CYCLE_LO t) (R.CYC_CYCLE_HI t) (c + n - 1)).bump (R.CYC_SKIPPED t) lost

/-- The unit continues as primary with the copied state: steps 3 to 5 of R520. A Run so entered keeps the copied data area
(R217, R522). -/
def takeOver (s : State) : State :=
  let s := s.modRed fun r => { r with
    takeover := none, silentInd := false, gapOpen := r.gapFrom.isSome, dirty := [], taskDirty := [], sent := [],
    peerSynced := false }
  let s := (s.setRegBit R.RED_ROLE 4 false).setRegBit R.RED_ROLE 9 false
  let sync (c : Nat × Ctx) : Nat × Ctx := (c.1, if 3 ≤ c.2.state ∧ c.2.state ≤ 5 then { c.2 with state := 3 } else c.2)
  let ahead (g : SegSt) : SegSt := { g with txSeq := g.txSeq + 2 ^ 16, phase := .idle, staged := none }
  let s := { s with stn := { s.stn with ctxs := s.stn.ctxs.map sync, segs := s.stn.segs.map ahead } }
  let s := (List.range 20).foldl (fun s k => s.segCounts k) s
  let s := (s.setRegField R.CYC_MODE 1 0 s.red.copiedMode)
  let s := { s with cyc := { s.cyc with runFrom := s.now - 1, fresh := s.cyc.fresh && s.red.copiedMode != 1 } }
  let s := (List.range 32).foldl (fun s t => s.resumeTaskGrid t) s
  ((s.setRole (if s.paired then 1 else 0)).bump R.RED_SWITCHOVERS 1).showPtp

/-- TAKEOVER_READY: the ready instant, once the claim is written (R504, R520). -/
def takeoverReady (s : State) : State :=
  if s.role = 2 ∧ s.red.takeover.isSome ∧ s.red.claimDue = none then s.takeOver else s

/-- HANDOVER_RECEIVED: the standby holds every final copy and takes its claim (R524). -/
def handoverReceived (s : State) : State :=
  let finals := (List.range 32).all fun t =>
    !s.taskEnabled t || (match tget s.red.copied t with | some x => x.2.2 | none => false)
  if s.role ≠ 2 ∨ !s.synced ∨ !finals ∨ s.red.takeover.isSome then s
  else
    match s.takeClaim with
    | none => s.refuseClaim
    | some s =>
      let s := s.modRed fun r => { r with takeover := some 3, firstMiss := s.now }
      if s.red.claimDue = none then s.takeOver else s

/-- HANDOVER_ABANDON: not completed within 1 s (R524). -/
def handoverAbandon (s : State) : State :=
  match s.red.handover with
  | some t =>
    if s.role = 1 ∧ t + rawUs 1000000 ≤ s.raw then
      (s.modRed fun r => { r with handover := none, finalDone := [] }).raise srcRed Ev.RED_SWITCH_ABANDONED 0 0
    else s
  | none => s

/-- CLAIM_WRITE_AFTER_SAVE (R504). -/
def claimAfterSave (s : State) : State :=
  let s := { s with pwr := { s.pwr with saving := false } }
  match s.red.claimDue with
  | some c => s.writeClaim c
  | none => s

/-- DEADMAN_EXPIRY: hardware silences the unit; the supervisor is reset and runs again (R525). -/
def deadman (s : State) : State :=
  let s := s.setRole 3
  let s := s.modRed fun r => { r with silentInd := true, takeover := none, handover := none, finalDone := [] }
  (s.setRegBit R.SYS_RESET_CAUSE 6 true).raise srcSup Ev.RED_DEADMAN 0 0

/-! ### The link (R511, R512, R515) -/

/-- PD_LINK has reached ON: training starts. -/
def linkDomainUp (s : State) : State :=
  ((s.modRed fun r => { r with linkOnAt := s.raw, active := [], training := none }).setReg R.RED_LINK 1).showLanes

/-- BIRLITH_TRAINED: traffic takes two lanes that are not retired. -/
def linkTrained (ident : Nat) (s : State) : State :=
  if !s.domOn 11 ∨ s.linkUpNow then s
  else
    let active := ((List.range 3).filter fun i => !s.lanesRetired.contains i).take 2
    if active.isEmpty then s
    else
      let s := s.modRed fun r => { r with
        active := active, peerId := ident, missed := 0, heard := true, blockLogged := false, syncFrom := s.raw }
      (s.setRegField R.RED_LINK 1 0 (if active.length = 2 then 2 else 3)).showLanes

/-- The link is lost (R515, R522, R531). -/
def linkGone (state : Nat) (s : State) : State :=
  let alive := match s.red.peerCommit with
    | some t => s.role == 2 && decide (s.now < t + usToUnits (250 * 4))
    | none => false
  let s := s.modRed fun r => { r with active := [], training := none, peerSynced := false }
  let s := ((s.setRegField R.RED_LINK 1 0 state).setRegBit R.RED_ROLE 5 false).showLanes
  ((s.unsync 3).raise srcRed Ev.RED_LINK_DOWN (if alive then 1 else 0) 0).linkSourceLost

/-- BIRLITH_LINK_DOWN. -/
def linkDownRow (s : State) : State := if s.linkUpNow then s.linkGone 1 else s

/-- BIRLITH_LANE_FAILING (R512). -/
def laneFailing (lane : Nat) (s : State) : State :=
  if !s.linkUpNow ∨ !s.red.active.contains lane ∨ s.red.training.isSome then s
  else
    let spare := (List.range 3).find? fun i => !s.red.active.contains i && !s.lanesRetired.contains i
    match spare with
    | some x =>
      if s.spareLeft 7 0 then s.modRed fun r => { r with training := some (lane, x) } else s
    | none =>
      if s.red.active.length < 2 then s
      else
        let s := s.modRed fun r => { r with active := r.active.filter (· != lane) }
        let s := (s.setRegField R.RED_LINK 1 0 3).showLanes
        (s.raise srcRed Ev.RED_LANE_SPARED lane 0xFF).noSpare 7 0 lane

/-- SPARE_LANE_TRAINED: traffic moves to the spare and the failing lane is retired (R512). -/
def laneSpared (s : State) : State :=
  match s.red.training with
  | some (lane, x) =>
    if !s.linkUpNow then s
    else
      let s := s.modRed fun r => { r with training := none, active := (r.active.filter (· != lane)) ++ [x] }
      ((s.spared 7 0 lane).showLanes).raise srcRed Ev.RED_LANE_SPARED lane x
  | none => s

/-- HLT_SPARE_BRING_IN of a Birlith lane (R512, R599): a lane without traffic is retired at once. -/
def birlithLaneDue (lane : Nat) (s : State) : State :=
  if s.linkUpNow ∧ s.red.active.contains lane then s.laneFailing lane else (s.spared 7 0 lane).showLanes

/-! ### Commands (R530) -/

/-- RED_CONFIG. -/
def redConfig (c : Cmd) (s : State) : State × CmdEnd :=
  let w : Word := BitVec.ofNat 32 (c.p 0 4)
  let floor := c.p 4 4
  if bit w 3 ∨ field w 15 8 ≠ 0 ∨ field w 31 24 ≠ 0 ∨ field w 7 4 = 0 ∨ field w 23 16 = 0 then (s, .st .badParam 0)
  else if floor ≠ 0 ∧ floor ≤ (s.reg R.RED_CLAIM_SEEN).toNat then (s, .st .badParam 4)
  else if bit w 0 ≠ s.paired ∧ (s.role = 1 ∨ s.role = 2) then (s, .st .role)
  else feramGate s <|
    let s := (s.setReg R.RED_CFG w).nvReg R.RED_CFG
    let s := if floor ≠ 0 then (s.seeClaim floor).setRegBit R.RED_ROLE 10 false else s
    (s, .st .ok)

/-- RED_JOIN. -/
def redJoin (_ : Cmd) (s : State) : State × CmdEnd :=
  let standby := s.paired && claimingRole s.peerRole
  if s.role ≠ 0 ∧ s.role ≠ 3 then (s, .st .role)
  else if !standby ∧ s.claimUnknown then (s, .st .role)
  else if s.paired ∧ !s.linkUpNow then (s, .st .linkDown)
  else if s.paired ∧ !s.peerPresent then (s, .st .peerAbsent)
  else
    let s := s.modRed fun r => { r with deciding := false, standbyDue := false }
    let s := if standby then s.becomeStandby else s.enterRole (if s.paired then 1 else 0)
    (s, .st .pending)

/-- RED_LEAVE: the notice goes to the peer with the next heartbeat. -/
def redLeave (_ : Cmd) (s : State) : State × CmdEnd :=
  if s.role = 1 then
    ((s.modRed fun r => { r with leaving := true, peerSynced := false, handover := none, finalDone := [] }).setRole 0,
      .st .pending)
  else if s.role = 2 then ((s.modRed fun r => { r with leaving := true, takeover := none }).setRole 3, .st .pending)
  else (s, .st .role)

/-- RED_MAINTENANCE (R528). -/
def redMaintenance (c : Cmd) (s : State) : State × CmdEnd :=
  if 1 < c.p 0 4 then (s, .st .badParam 0)
  else if c.p 0 4 = 1 then
    if s.role = 0 ∨ s.role = 1 then
      ((s.modRed fun r => { r with peerSynced := false, handover := none, finalDone := [] }).setRole 4, .st .ok)
    else (s, .st .role)
  else if s.role ≠ 4 then (s, .st .role)
  else if s.mode = 2 then (s, .st .mode)
  else (s.setRole (if s.peerPresent ∧ s.peerRole = 2 then 1 else 0), .st .ok)

/-- RED_SWITCHOVER (R524). -/
def redSwitchover (_ : Cmd) (s : State) : State × CmdEnd :=
  if s.role ≠ 1 then (s, .st .role)
  else if !s.linkUpNow then (s, .st .linkDown)
  else if !s.red.peerSynced ∨ s.peerRole ≠ 2 then (s, .st .role)
  else
    let s := s.modRed fun r => { r with handover := some (r.handover.getD s.raw), finalDone := [] }
    (s, .st .pending)

/-- RED.ROLE as a read returns it: UNIT is the strap. [DESIGN CHOICE, log entry 9] -/
def roleWord (s : State) : Word := setBit (s.reg R.RED_ROLE) 3 Config.strapB

/-- RED_STATUS: what PD_LINK holds reads 0 while it is off (R47). -/
def redStatus (c : Cmd) (s : State) : State × CmdEnd :=
  let w (a : Nat) (link : Bool) : List Byte := leBytes 4 (if link && !s.domOn 11 then 0 else (s.reg a).toNat)
  (s, replyOr c (leBytes 4 s.roleWord.toNat ++ w R.RED_CLAIM false ++ w R.RED_CLAIM_SEEN false ++ w R.RED_CFG false ++
    w R.RED_LINK true ++ w R.RED_COPY_LAST true ++ w R.RED_GAP_LAST false ++ zeros 4 ++ leBytes 8 baseMac ++
    leBytes 8 s.red.peerId))

end State

def execRedConfig (id : Nat) (s : State) : Res := hostRow Op.RED_CONFIG id State.redConfig s
def execRedJoin (id : Nat) (s : State) : Res := hostRow Op.RED_JOIN id State.redJoin s
def execRedLeave (id : Nat) (s : State) : Res := hostRow Op.RED_LEAVE id State.redLeave s
def execRedMaintenance (id : Nat) (s : State) : Res := hostRow Op.RED_MAINTENANCE id State.redMaintenance s
def execRedSwitchover (id : Nat) (s : State) : Res := hostRow Op.RED_SWITCHOVER id State.redSwitchover s
def execRedStatus (id : Nat) (s : State) : Res := hostRow Op.RED_STATUS id State.redStatus s
def execClaimWriteAfterSave (s : State) : Res := .next s.claimAfterSave
def execLinkWaitExpiry (s : State) : Res := .next s.linkWait
def execBirlithTrained (ident : Nat) (s : State) : Res := .next (s.linkTrained ident)
def execBirlithLaneFailing (lane : Fin 3) (s : State) : Res := .next (s.laneFailing lane)
def execHeartbeatSend (s : State) : Res := .next s.heartbeatSend
def execHeartbeatMissed (s : State) : Res := .next s.heartbeatMissed
def execSilentIndication (s : State) : Res := .next s.silentReceived
def execTakeoverStart (s : State) : Res := .next s.takeoverStart
def execTakeoverReady (s : State) : Res := .next s.takeoverReady
def execStateCopySend (t : Fin 32) (s : State) : Res := .next (s.copySend t)
def execStateCopyReceived (c : StateCopy) (s : State) : Res := .next (s.copyReceived c)
def execFullSyncPassEnd (c : StateCopy) (s : State) : Res := .next (s.syncEnd c)
def execStateCopyLate (_ : Fin 32) (s : State) : Res := .next s.copyLate
def execHandoverReceived (s : State) : Res := .next s.handoverReceived
def execHandoverAbandon (s : State) : Res := .next s.handoverAbandon
def execDeadmanExpiry (s : State) : Res := .next s.deadman
def execHeartbeatReceived (h : Heartbeat) (s : State) : Res := .next (s.heartbeatReceived h)
def execBirlithLinkDown (s : State) : Res := .next s.linkDownRow
def execSpareLaneTrained (s : State) : Res := .next s.laneSpared

end Sys2Proof.Machine
end

