-- ==== Sys2Proof/Machine/HealthCmd.lean ====
section
/-! DEFINITION. The HLT commands (spec 17, R599, R602 to R608). -/

namespace Sys2Proof.Machine

namespace State

/-! ### Commands (R608) -/

/-- The four bytes of a register. -/
def regBytes4 (s : State) (a : Nat) : List Byte := leBytes 4 (s.reg a).toNat

/-- HLT_LEDGER. -/
def hltLedger (c : Cmd) (s : State) : State × CmdEnd :=
  let bytes := regBytes4 s R.HLT_RESERVE ++ regBytes4 s R.HLT_LIFE_USED ++ regBytes4 s R.HLT_EQUIV_S_LO ++
    regBytes4 s R.HLT_EQUIV_S_HI ++ regBytes4 s R.HLT_POWER_HOURS ++ regBytes4 s R.HLT_POWER_CYCLES ++
    ((List.range 8).map fun k => regBytes4 s (R.HLT_SPARES k)).flatten ++ leBytes 8 s.hlt.ledger.written
  (s, replyOr c bytes)

/-- HLT_SENSORS. -/
def hltSensors (c : Cmd) (s : State) : State × CmdEnd :=
  (s, replyOr c ((List.range 32).map fun n => regBytes4 s (R.HLT_SENSOR_LO n) ++ regBytes4 s (R.HLT_SENSOR_HI n)).flatten)

/-- HLT_SPARE_BRING_IN of a logic core (R599). -/
def bringInCore (phys : Nat) (s : State) : State × CmdEnd :=
  match s.logicalOf phys with
  | none => (s, .st .badParam 4)
  | some _ =>
    if 18 ≤ phys then (s, .st .badParam 4)
    else if !s.spareLeft 0 (coreCluster phys) then (s, .st .noSpare)
    else
      let again (d : CoreDue) : CoreDue :=
        if d.phys = phys then { d with commanded := true, since := s.raw, retryAt := none } else d
      let due := if s.hlt.due.any fun d => d.phys == phys then s.hlt.due.map again
        else s.hlt.due ++ [⟨phys, true, s.raw, none, false⟩]
      ({ s with hlt := { s.hlt with due := due } }, .st .pending)

/-- HLT_SPARE_BRING_IN of a memory row or FeRAM sector. -/
def bringInRow (kind addr : Nat) (s : State) : State × CmdEnd :=
  if kind = 6 then
    let a := addr / 256 * 256
    if addr < 0x3100000 ∨ 0x3300000 ≤ addr then (s, .st .badParam 8)
    else if s.hlt.maps.units.contains (6, a) then (s, .st .badParam 4)
    else if !s.spareLeft 6 0 then (s, .st .noSpare)
    else (s.spared 6 0 a, .st .pending)
  else
    match rowGroup addr with
    | none => (s, .st .badParam 8)
    | some (k, g) =>
      if k ≠ kind then (s, .st .badParam 8)
      else if s.hlt.maps.units.contains (k, addr / 1024 * 1024) then (s, .st .badParam 4)
      else if !s.spareLeft k g then (s, .st .noSpare)
      else (s.rowDue addr, .st .pending)

/-- Solver lanes in use: the fault map of an engine, bits 0 to 71 (R358). -/
def laneFaults (s : State) (e : Nat) : Nat :=
  (s.reg (R.SOLV_ENG_FAULT_MAP0 e)).toNat + 2 ^ 32 * (s.reg (R.SOLV_ENG_FAULT_MAP1 e)).toNat +
    2 ^ 64 * (s.reg (R.SOLV_ENG_FAULT_MAP2 e)).toNat

/-- HLT_SPARE_BRING_IN. -/
def hltSpareBringIn (c : Cmd) (s : State) : State × CmdEnd :=
  feramGate s <|
    let unit := c.p 4 4
    match c.p 0 4 with
    | 0 => bringInCore unit s
    | 1 => laneCommand unit s
    | 7 => birlithCommand unit s
    | k => if k < 7 then bringInRow k (c.p 8 8) s else (s, .st .badParam 0)
where
  /-- A solver lane: marked faulty, and brought in between jobs under R358. -/
  laneCommand (unit : Nat) (s : State) : State × CmdEnd :=
    let e := unit / 256
    let lane := unit % 256
    if 4 ≤ e ∨ 72 ≤ lane ∨ laneFaults s e / 2 ^ lane % 2 = 1 ∨ !s.laneInService e lane then (s, .st .badParam 4)
    else if !s.spareLeft 1 e then (s, .st .noSpare)
    else (s.laneDue e lane, .st .pending)
  /-- A Birlith lane: its traffic moves to the spare under R512. -/
  birlithCommand (unit : Nat) (s : State) : State × CmdEnd :=
    if 3 ≤ unit ∨ s.hlt.maps.units.contains (7, unit) then (s, .st .badParam 4)
    else if !s.spareLeft 7 0 then (s, .st .noSpare)
    else (s.birlithLaneDue unit, .st .pending)



/-- The units of a performance event: how many it may be counted for; 0 for an event that the table does not hold
(R602). -/
def perfUnits (ev : Nat) : Nat :=
  if ev = 0 ∨ ev = 1 ∨ ev = 0x40 ∨ ev = 0x41 ∨ ev = 0x60 then 1
  else if 0x10 ≤ ev ∧ ev ≤ 0x16 then 16
  else if ev = 0x20 ∨ ev = 0x21 then 32
  else if ev = 0x30 then 4
  else if ev = 0x50 then 20
  else 0

/-- A selection that the table allows. -/
def selectionOk (w : Word) : Bool := decide (field w 12 8 < perfUnits (field w 7 0)) && field w 31 14 == 0

/-- Selects what counter `i` counts; a change clears it (R602). -/
def selectCounter (i : Nat) (w : Word) (s : State) : State :=
  if s.reg (R.HLT_PERF_SEL i) = w then s
  else
    let s := s.setReg (R.HLT_PERF_SEL i) w
    { s with hlt := { s.hlt with perf := modNth (fun _ => 0) s.hlt.perf i } }

/-- HLT_PERF_CONFIG. -/
def hltPerfConfig (c : Cmd) (s : State) : State × CmdEnd :=
  let first := c.p 0 4
  let n := c.p 4 4
  let w (j : Nat) : Word := BitVec.ofNat 32 (c.p (8 + 4 * j) 4)
  if n = 0 ∨ 64 < n then (s, .st .badParam 4)
  else if c.len ≠ 8 + 4 * n then (s, badLen (8 + 4 * n))
  else
    match (List.range n).find? fun j => decide (63 < first + j) || !selectionOk (w j) with
    | some j => (s, .st .counterInvalid ((first + j) % 65536))
    | none => ((List.range n).foldl (fun s j => s.selectCounter (first + j) (w j)) s.perfSync, .st .ok)

/-- Captures counters in rising order, each with its overflow bit (R604). -/
def captureMany (first : Nat) : Nat → State → List Byte × State
  | 0, s => ([], s)
  | n + 1, s =>
    let (front, s) := captureMany first n s
    let i := first + n
    let (v, s) := s.perfCapture i
    let ovf := if i < 32 then s.regBit R.HLT_PERF_OVF_LO i else s.regBit R.HLT_PERF_OVF_HI (i - 32)
    (front ++ leBytes 8 (v + if ovf then 2 ^ 63 else 0), s)

/-- HLT_PERF_READ. -/
def hltPerfRead (c : Cmd) (s : State) : State × CmdEnd :=
  let first := c.p 0 4
  let n := c.p 4 4
  if n = 0 ∨ 64 < n then (s, .st .badParam 4)
  else if 64 < first + n then (s, .st .counterInvalid (min 65535 (max first 64)))
  else if c.replyLen < 12 + 8 * n then (s, .st .badLength (12 + 8 * n))
  else
    let (b, s) := s.captureMany first n
    (s, replyOr c (instantBytes s.now ++ b))

/-- HLT_BANDWIDTH: the last complete window (R606). -/
def hltBandwidth (c : Cmd) (s : State) : State × CmdEnd :=
  let (ix, len) := s.hlt.bwHeld
  let port (p : Nat) : List Byte :=
    leBytes 8 (s.reg64 (R.HLT_BW_RX_LO p) (R.HLT_BW_RX_HI p)) ++ leBytes 8 (s.reg64 (R.HLT_BW_TX_LO p) (R.HLT_BW_TX_HI p))
  (s, replyOr c (instantBytes (usToUnits (1000 * ix * len)) ++ leBytes 4 len ++ ((List.range 21).map port).flatten))

end State

def execHltLedger (id : Nat) (s : State) : Res := hostRow Op.HLT_LEDGER id State.hltLedger s
def execHltSensors (id : Nat) (s : State) : Res := hostRow Op.HLT_SENSORS id State.hltSensors s
def execHltSpareBringIn (id : Nat) (s : State) : Res := hostRow Op.HLT_SPARE_BRING_IN id State.hltSpareBringIn s
def execHltPerfConfig (id : Nat) (s : State) : Res := hostRow Op.HLT_PERF_CONFIG id State.hltPerfConfig s
def execHltPerfRead (id : Nat) (s : State) : Res := hostRow Op.HLT_PERF_READ id State.hltPerfRead s
def execHltBandwidth (id : Nat) (s : State) : Res := hostRow Op.HLT_BANDWIDTH id State.hltBandwidth s

end Sys2Proof.Machine
end

