-- ==== Sys2Proof/Machine/Crossings.lean ====
section
/-! DEFINITION. Resynchronisation of crossings, and the event inputs in both modes (spec 02, R75 to R84). -/

namespace Sys2Proof.Machine

namespace State

def modXing (f : XingSt → XingSt) (s : State) : State := { s with xing := f s.xing }

/-! ### Reset on one side (R79 to R82) -/

/-- A transaction of an initiator completes with an error: a logic core takes a BUS_ERROR trap, a host read returns all
ones, a write is lost (R80). [DEDUCED, log entry 52] -/
def busErrorTo (ini : Nat) (addr : BitVec 40) (read : Bool) (s : State) : State :=
  match (List.range 16).find? fun l => (s.core l).phys == ini && s.coreRuns l with
  | some l => s.trapAt l .busError (s.core l).pc (addr.zeroExtend 64) true
  | none => if ini = 25 ∧ read then s.emit (.readData 25 addr.toNat 0xFFFFFFFF) else s

/-- Beats that one queue of crossing `n` holds; each crossing has one in either direction (R70). -/
def crossDepth (n : Nat) : Nat := nth 0 [64, 64, 32, 32, 32, 32, 16, 16, 64, 64, 32, 16, 64] n

/-- The outstanding transactions that a reset shows raise the spine's peaks (R55). -/
def spineShow (trans : List (Nat × BitVec 40 × Bool)) (s : State) : State :=
  trans.foldl (fun s t => s.regMax (R.SPINE_INIT_PEAK t.1) (trans.countP fun u => u.1 == t.1))
    (if trans.isEmpty then s else s.regMax R.SPINE_INFLIGHT_PEAK trans.length)

/-- Entries and transactions discarded at crossing `n`. -/
def discard (n k : Nat) (s : State) : State :=
  (s.bump (R.XING_DISCARDS n) k).modXing fun x => { x with lost := modNth (· + k) x.lost n }

/-- BLOCK_RESET: one side of crossing `n` is reset while the queues hold unread entries and transactions are
outstanding: each an initiator, an address and whether it reads. [DEDUCED, log entry 52] -/
def blockReset (n entries : Nat) (trans : List (Nat × BitVec 40 × Bool)) (s : State) : State :=
  let s : State := if s.regBit R.XING_RESYNC_STATUS n then s
    else (s.setRegBit R.XING_RESYNC_STATUS n true).modXing fun x => { x with blockedAt := modNth (fun _ => s.raw) x.blockedAt n }
  let s := (s.spineShow trans).discard n (min entries (2 * crossDepth n) + trans.length)
  trans.foldl (fun s t => s.busErrorTo t.1 t.2.1 t.2.2) s

/-- CROSSING_RESYNC: the handshake has completed, and what waited for crossing 0 towards the host goes out. -/
def crossingResync (n : Nat) (s : State) : State :=
  if !s.regBit R.XING_RESYNC_STATUS n then s
  else
    let k := nth 0 s.xing.lost n
    let s := ((s.setRegBit R.XING_RESYNC_STATUS n false).bump16 (R.XING_RESYNCS n) 1).raise srcXing Ev.XING_RESYNC n k
    (s.modXing fun x => { x with lost := modNth (fun _ => 0) x.lost n }).releaseHeld

/-- CROSSING_BLOCK_TIMEOUT: a transaction has waited at the blocked crossing for longer than BLOCK_TIMEOUT (R82). -/
def blockTimeout (n ini : Nat) (addr : BitVec 40) (read : Bool) (s : State) : State :=
  let limit := rawUs (s.regField R.XING_BLOCK_TIMEOUT 15 0)
  if !s.regBit R.XING_RESYNC_STATUS n ∨ s.raw ≤ nth 0 s.xing.blockedAt n + limit then s
  else
    let s := (s.discard n 1).setRegBit R.XING_BLOCKED n true
    (s.raise srcXing Ev.XING_BLOCK_TIMEOUT n ini).busErrorTo ini addr read

/-! ### Event inputs (R75 to R77) -/

/-- Input `m` is watched: PD_FLD is ON and the input enabled. -/
def evtOn (s : State) (m : Nat) : Bool := s.domOn 7 && s.regBit R.XING_COMPAT (8 + m)
/-- Compatibility mode. -/
def evtCompat (s : State) : Bool := s.regBit R.XING_COMPAT 0

/-- The level of pin EVT_IN[m]; IN_LEVEL shows it while PD_FLD is ON. -/
def setPin (m : Nat) (high : Bool) (s : State) : State :=
  s.modXing fun x => { x with pins := setBit x.pins m high }

/-- EVT_EDGE: a sample of crossing 22 in native mode, with the rising edges since the last one.
[DEDUCED, log entry 54] -/
def evtEdge (m edges : Nat) (high : Bool) (s : State) : State :=
  if s.evtCompat then s
  else
    let s := s.setPin m high
    if !s.evtOn m ∨ edges = 0 then s
    else
      (s.modReg (R.XING_EVT_EDGES m) (· + BitVec.ofNat 32 edges)).raise (0x28 + m) Ev.EVR_INPUT m edges

/-- An event that is never merged with another takes its queue entry (R76). -/
def raiseAlone (stamp : Instant) (src code a b : Nat) (s : State) : State :=
  let sev := severity code
  if sev < s.regField R.EVR_CONFIG 18 16 then s
  else
    let unlocked := s.regField R.TIME_STATE 1 0 != 2
    State.raiseAt.enqueueEvent
      { stamp := stamp, code := BitVec.ofNat 16 code, source := BitVec.ofNat 8 src,
        sevFlags := setBit (setBit (setBit (BitVec.ofNat 8 sev) 3 unlocked) 4 (!s.evr.restored)) 6 s.frozen, rep := 0,
        a := BitVec.ofNat 32 a, b := BitVec.ofNat 32 b, alone := true } s

/-- The ingress queue has room for an event of an input. [DEDUCED, log entry 126] -/
def evtRoom (s : State) : Bool :=
  decide (s.evr.queue.length < 240) || decide (severity Ev.EVR_INPUT < s.regField R.EVR_CONFIG 18 16)

/-- The request of input `m` is accepted: queued, then acknowledged. -/
def evtAccept (m : Nat) (stamp : Instant) (s : State) : State :=
  let s := s.raiseAlone stamp (0x28 + m) Ev.EVR_INPUT m 1
  (s.setRegBit R.XING_EVT_STATUS (16 + m) false).setRegBit R.XING_EVT_STATUS (8 + m) true

/-- EVT_REQUEST: the partner raises EVT_IN[m] in compatibility mode; an input that is not watched only shows its level.
[DEDUCED, log entry 53] -/
def evtRequest (m : Nat) (s : State) : State :=
  if !s.evtCompat ∨ bit s.xing.pins m then s
  else if !s.evtOn m then s.setPin m true
  else
    let s := (s.setPin m true).modReg (R.XING_EVT_EDGES m) (· + 1)
    if s.evtRoom then s.evtAccept m s.now
    else
      (s.setRegBit R.XING_EVT_STATUS (16 + m) true).modXing fun x => { x with
        evtStamp := modNth (fun _ => s.now) x.evtStamp m, evtRaw := modNth (fun _ => s.raw) x.evtRaw m,
        evtLogged := setBit x.evtLogged m false }

/-- EVT_ACK_AFTER_ROOM. -/
def evtAckAfterRoom (m : Nat) (s : State) : State :=
  if s.domOn 7 ∧ s.regBit R.XING_EVT_STATUS (16 + m) ∧ s.evtRoom then s.evtAccept m (nth 0 s.xing.evtStamp m) else s

/-- EVT_REQUEST_RELEASE: the partner lowers EVT_IN[m]; a request that is still withheld ends without acknowledgement.
[DEDUCED, log entry 53] -/
def evtRelease (m : Nat) (s : State) : State :=
  if !s.evtCompat then s
  else ((s.setPin m false).setRegBit R.XING_EVT_STATUS (8 + m) false).setRegBit R.XING_EVT_STATUS (16 + m) false

/-- ACK_WITHHELD_TIMEOUT: logged once in each withholding, with the time in µs (R84). [DESIGN CHOICE, log entry 14] -/
def evtWithheld (m : Nat) (s : State) : State :=
  let since := nth 0 s.xing.evtRaw m
  if s.domOn 7 ∧ s.regBit R.XING_EVT_STATUS (16 + m) ∧ !bit s.xing.evtLogged m ∧ since + rawUs 1000 < s.raw then
    let (us, s) := s.roundFree 76 ((s.raw - since : Nat) : Int) 250
    (s.modXing fun x => { x with evtLogged := setBit x.evtLogged m true }).raise srcXing Ev.XING_ACK_WITHHELD m
      (satTo 32 us.toNat)
  else s

/-- A write of `XING.COMPAT` that keeps EVT_MODE while any input is enabled (R77); EVT_MODE is locked under R14. A
disabled input and native mode drive EVT_ACK low. -/
def compatWrite (v : Word) (s : State) : State :=
  let old := s.reg R.XING_COMPAT
  let free := field old 15 8 == 0 && !s.regBit R.SYS_LOCK 0
  let w : Word := (v &&& 0xFF00) ||| (if free then v &&& 1 else old &&& 1)
  let s := s.setReg R.XING_COMPAT w
  (List.range 8).foldl (fun s m =>
    if bit w (8 + m) ∧ bit w 0 then s
    else (s.setRegBit R.XING_EVT_STATUS (8 + m) false).setRegBit R.XING_EVT_STATUS (16 + m) false) s

end State

/-- BLOCK_RESET. -/
def execBlockReset (n : Fin 13) (entries : Nat) (trans : List (Fin 32 × BitVec 40 × Bool)) (s : State) : Res :=
  .next (s.blockReset n entries (trans.map fun t => (t.1.val, t.2)))
def execCrossingResync (n : Fin 13) (s : State) : Res := .next (s.crossingResync n)
def execCrossingBlockTimeout (n : Fin 13) (ini : Fin 32) (access : BitVec 40 × Bool) (s : State) : Res :=
  .next (s.blockTimeout n ini access.1 access.2)
def execEvtEdge (m : Fin 8) (edges : Nat) (high : Bool) (s : State) : Res := .next (s.evtEdge m edges high)
def execEvtRequest (m : Fin 8) (s : State) : Res := .next (s.evtRequest m)
def execEvtAckAfterRoom (m : Fin 8) (s : State) : Res := .next (s.evtAckAfterRoom m)
def execEvtRequestRelease (m : Fin 8) (s : State) : Res := .next (s.evtRelease m)
def execAckWithheldTimeout (m : Fin 8) (s : State) : Res := .next (s.evtWithheld m)

end Sys2Proof.Machine
end

