-- ==== Sys2Proof/Machine/Keys.lean ====
section
/-! DEFINITION. The key store: slots, banks, KEY commands, the purge, and random numbers (spec 15, R532 to R562). -/

namespace Sys2Proof.Machine

/-! ### Attributes (R538, R539, R546) -/

def attrType (w : Word) : Nat := field w 7 0
def attrClass (w : Word) : Nat := field w 15 8
def attrExportable (w : Word) : Bool := bit w 17
def attrPersistent (w : Word) : Bool := bit w 18
def attrBound (w : Word) : Bool := bit w 19
def attrOperator (w : Word) : Bool := bit w 20
def attrMask (w : Word) : Nat := field w 27 24

/-- A pair of type and class that the table allows. [DEDUCED, log entry 116] -/
def pairOk (ty cls : Nat) : Bool :=
  if ty = 1 then decide (cls ≤ 3) else if ty = 2 ∨ ty = 3 then cls == 0 || cls == 1 || cls == 3
  else if ty = 4 then cls == 0 || cls == 3 else false

/-- An attribute word, with GENERATED_INSIDE as the controller sets it, that breaks no rule. -/
def attrOk (w : Word) : Bool :=
  pairOk (attrType w) (attrClass w) && field w 31 28 == 0 && field w 23 21 == 0 &&
    !(attrExportable w && (bit w 16 || attrOperator w)) && (attrBound w == (attrMask w != 0)) &&
    (!attrOperator w || (attrType w == 1 && attrClass w == 1 && attrPersistent w))

/-- Bytes of a key of a type. -/
def keyLength (ty : Nat) : Nat := if ty ≤ 2 then 32 else 48

/-- Bits that the KDF gives for a type, and the key formed from them (R548). -/
def deriveBits (ty : Nat) : Nat := if ty ≤ 2 then 256 else if ty = 3 then 384 else 512
def formKey (ty : Nat) (bs : List Byte) : List Byte := if ty = 4 then padTo 48 (Config.identityKey bs) else padTo (keyLength ty) bs

/-- The key ID (R560). -/
def keyId (k : Slot) : List Byte :=
  padTo 8 (if attrType k.attr = 4 then Config.sha384 (Config.p384Pub k.key) else Config.hmac384 k.key (labelBytes "GZN KEY ID"))

/-- A slot that is stored as its recipe (R548). -/
def Slot.recipe (k : Slot) : Bool := attrPersistent k.attr && attrBound k.attr && k.derived && k.parent == 0xFFFF

namespace State

def modKey (f : KeySt → KeySt) (s : State) : State := { s with key := f s.key }

/-- The slot context of slot `n` (R535). -/
def slotContext (s : State) (n : Nat) (attr : Word) (ctx : List Byte) : List Byte :=
  leBytes 1 (attrClass attr) ++ leBytes 1 (field attr 23 16) ++ leBytes 2 n ++ leBytes 1 (attrMask attr) ++ zeros 3 ++
    ((List.range 4).filter fun j => attrMask attr / 2 ^ j % 2 == 1).flatMap (fun j => nth [] s.pwr.meas j) ++ ctx

/-! ### Banks (R549 to R552) -/

/-- A bank verifies under the present root. [DESIGN CHOICE, log entry 111] -/
def bankValid (s : State) (b : Option Bank) : Option Bank :=
  match b with
  | some x => if x.good ∧ s.key.root = some x.root then some x else none
  | none => none

/-- The bank in force, with its number: the valid one with the higher sequence. -/
def bankInForce (s : State) : Option (Nat × Bank) :=
  match s.bankValid s.key.bank0, s.bankValid s.key.bank1 with
  | some a, some b => if a.seq < b.seq then some (1, b) else some (0, a)
  | some a, none => some (0, a)
  | none, some b => some (1, b)
  | none, none => none

/-- The newer intent record whose MAC verifies, with its number. -/
def newerIntent (s : State) : Option (Nat × Intent) :=
  let ok (i : Option Intent) : Option Intent :=
    match i with | some x => if s.key.root = some x.root then some x else none | none => none
  match ok s.key.intent0, ok s.key.intent1 with
  | some a, some b =>
    if a.target < b.target ∨ (a.target = b.target ∧ s.key.lastIntent = 1) then some (1, b) else some (0, a)
  | some a, none => some (0, a)
  | none, some b => some (1, b)
  | none, none => none

/-- Changes an intent record. [DESIGN CHOICE, log entry 111] -/
def setIntent (i : Nat) (x : Intent) (s : State) : State :=
  s.modKey fun k => if i = 0 then { k with intent0 := some x, lastIntent := 0 } else { k with intent1 := some x, lastIntent := 1 }

/-- Order 2 of R138: the bank in force and the newer intent record (R552). The keys themselves are unwrapped when PD_SEC
reaches ON. [DEDUCED, log entry 117] -/
def keyRestore (s : State) : State :=
  match s.bankInForce with
  | none =>
    let s := (s.modKey fun k => { k with slots := [] }).setReg R.KEY_BANK_SEQ 0
    if s.key.root.isSome ∧ !s.regBit R.SYS_BOOT_STATUS 6 then s.raise srcSec Ev.KEY_BANK_DAMAGED 0 0 else s
  | some (_, b) =>
    let s := s.modKey fun k => { k with slots := b.recs.map fun r => (r.1, { r.2.slot with isSealed := false }) }
    let s := s.setReg R.KEY_BANK_SEQ (BitVec.ofNat 32 b.seq)
    match s.newerIntent with
    | none => s
    | some (i, x) =>
      let valid (y : Option Bank) : Bool := match s.bankValid y with | some z => z.seq == x.target | none => false
      if valid s.key.bank0 || valid s.key.bank1 then
        if x.complete then s else s.setIntent i { x with complete := true }
      else s.raise srcSec Ev.KEY_UPDATE_TORN (x.slot + 256 * x.op) x.target

/-- One slot record unwrapped or derived with the present measurements (R548, R550). [DEDUCED, log entry 110] -/
def unwrapRecord (root : List Byte) (x : Nat × BankRec) (s : State) : State :=
  let k := x.2.slot
  let ctx := s.slotContext x.1 k.attr k.ctx
  let put (k : Slot) (s : State) : State := s.modKey fun y => { y with slots := tput y.slots x.1 k }
  if k.recipe then
    put { k with isSealed := false, key := formKey (attrType k.attr) (kdf root "GZN SLOT" ctx (deriveBits (attrType k.attr))) } s
  else if x.2.bound = ctx then put { k with isSealed := false } s
  else (put { k with isSealed := true } s).raise srcSec Ev.KEY_SEALED_MISMATCH x.1 0

/-- PD_SEC has reached ON: the working copies come from the bank in force (R150, R550). [DEDUCED, log entry 110] -/
def keyDomainUp (s : State) : State :=
  match s.key.root, s.bankInForce with
  | some root, some (_, b) => b.recs.foldl (fun s x => s.unwrapRecord root x) (s.modKey fun k => { k with slots := [] })
  | _, _ => s.modKey fun k => { k with slots := [] }

/-- PD_SEC shuts down: working keys are zeroed, and slots without PERSISTENT are lost (R150, R539).
[DEDUCED, log entry 122] -/
def keyDomainDown (s : State) : State :=
  s.modKey fun k => { k with
    slots := (k.slots.filter fun x => attrPersistent x.2.attr).map fun x => (x.1, { x.2 with key := [] }) }

/-- A bank update (R551): the intent record not last used, the other bank, and COMPLETE. [DEDUCED, log entry 112] -/
def bankUpdate (slot op : Nat) (s : State) : State :=
  let root := s.key.root.getD []
  let (seq, other, old) : Nat × Nat × List (Nat × BankRec) :=
    match s.bankInForce with
    | some (i, b) => (b.seq + 1, 1 - i, b.recs)
    | none => (1, 0, [])
  let rec_ (x : Nat × Slot) : Nat × BankRec :=
    let fresh : BankRec := ⟨x.2, s.slotContext x.1 x.2.attr x.2.ctx⟩
    (x.1, if x.1 = slot then fresh else (tget old x.1).getD fresh)
  let bank : Bank :=
    { seq := seq, secs := s.nowSec, recs := (s.key.slots.filter fun x => attrPersistent x.2.attr).map rec_, root := root,
      good := true }
  let s := s.setIntent (1 - s.key.lastIntent) { target := seq, slot := slot, op := op, complete := true, root := root }
  let s := s.modKey fun k => if other = 0 then { k with bank0 := some bank } else { k with bank1 := some bank }
  s.setReg R.KEY_BANK_SEQ (BitVec.ofNat 32 seq)

/-- A bank update that VDD_CORE cuts off: the intent is written and the other bank is damaged (R552). -/
def bankTorn (slot op : Nat) (s : State) : State :=
  match s.key.root with
  | none => s
  | some root =>
    let (seq, other) : Nat × Nat := match s.bankInForce with | some (i, b) => (b.seq + 1, 1 - i) | none => (1, 0)
    let bank : Bank := { seq := seq, secs := s.nowSec, recs := [], root := root, good := false }
    let s := s.setIntent (1 - s.key.lastIntent) { target := seq, slot := slot, op := op, complete := false, root := root }
    s.modKey fun k => if other = 0 then { k with bank0 := some bank } else { k with bank1 := some bank }

/-! ### The root secret (R130, R532, R555 to R558) -/

/-- A new root secret is drawn: every bank, counter and token under the old one is unreadable. -/
def newRoot (s : State) : State :=
  let (root, s) := s.drawBytes 32
  let s := s.modKey fun k => { k with root := some root, slots := [], counters := [], countersRoot := root }
  let s := s.updNv fun n => { n with tokens := [] }
  (s.setRegBit R.SYS_BOOT_STATUS 6 true).raise srcSec Ev.SYS_ROOT_NEW 0 0

/-- The purge line (R555, R557): the root secret, the security-core SRAM, MACsec keys, and the station engine's keys.
[DEDUCED, log entry 118] -/
def purge (s : State) : State :=
  let sas := s.net.sas
  let s := s.modKey fun k => { k with root := none, slots := [], purged := s.pwr.main }
  let s := s.setRegBit R.KEY_STATUS 4 false
  let s := sas.foldl (fun s x => (s.removeSa x.1).raise srcNet Ev.NET_SA_REMOVED x.1 x.2.slot) s
  let blank (g : SegSt) : SegSt := { g with key := [], newKey := none }
  let wipe (x : Nat × Ctx) : Nat × Ctx := (x.1, { x.2 with key := [] })
  let s := { s with stn := { s.stn with segs := s.stn.segs.map blank, ctxs := s.stn.ctxs.map wipe } }
  { s with nv := { s.nv with tokens := [] }, nvNext := { s.nvNext with tokens := [] } }

/-- Writes a tamper-log entry (R556, R559). [DEDUCED, log entry 119] -/
def tamperLog (sources : Nat) (purged : Bool) (s : State) : State :=
  let i := s.regField R.KEY_TAMPER_COUNT 18 16
  let n := satTo 16 (s.regField R.KEY_TAMPER_COUNT 15 0 + 1)
  let sec := s.rtc.count / 2 ^ 32
  let hi := sec / 2 ^ 32 % 65536 + 2 ^ 16 * sources + (if purged then 2 ^ 24 else 0) + (if s.pwr.main then 0 else 2 ^ 25)
  let s := (s.setReg (R.KEY_TAMPER_LOG_LO i) (BitVec.ofNat 32 sec)).setReg (R.KEY_TAMPER_LOG_HI i) (BitVec.ofNat 32 hi)
  let s := s.setReg (R.KEY_TAMPER_LOG_FRAC i) (BitVec.ofNat 32 s.rtc.count)
  let s := s.setReg R.KEY_TAMPER_COUNT (BitVec.ofNat 32 (n + 2 ^ 16 * ((i + 1) % 8)))
  let s := s.setRegBit R.KEY_TAMPER_STATUS 16 true
  if s.pwr.main then s else s.modKey fun k => { k with unlogged := (k.unlogged.filter (· != i)) ++ [i] }

/-- A set of sources as bits. -/
def sourceBits (l : List Nat) : Nat := (l.map fun n => 2 ^ n).sum

/-- TAMPER_TRIP (R555 to R557). [DEDUCED, log entry 119] -/
def tamperTrip (clock : Bool) (s : State) : State :=
  let all := s.tamperDue clock
  if all.isEmpty then s
  else
    let purging := all.filter fun n => s.tamperAction n == 2
    let logging := all.filter fun n => s.tamperAction n != 2
    let s := all.foldl (fun s n => s.setTamper n 3) s
    let s := if purging.isEmpty then s else s.purge
    let s := s.tamperLog (sourceBits all) (!purging.isEmpty)
    if !s.pwr.main then s
    else
      let s := s.alertUpdate
      let s := if logging.isEmpty then s else s.raise srcTamper Ev.KEY_TAMPER_ALERT (sourceBits logging) 0
      let s := if purging.isEmpty then s else s.raise srcTamper Ev.KEY_PURGE (sourceBits purging) 0
      s.notify 20

/-- Trips on battery are logged as events at the next start-up, from the tamper log (R556). -/
def tamperUnlogged (s : State) : State :=
  let s' := s.key.unlogged.foldl (fun s i =>
    let hi := s.reg (R.KEY_TAMPER_LOG_HI i)
    let purged := bit hi 24
    let stamp := (field hi 15 0 * 2 ^ 32 + (s.reg (R.KEY_TAMPER_LOG_LO i)).toNat) * 2 ^ 32 + (s.reg (R.KEY_TAMPER_LOG_FRAC i)).toNat
    s.raiseAt stamp srcTamper (if purged then Ev.KEY_PURGE else Ev.KEY_TAMPER_ALERT) (field hi 22 16) (if purged then 1 else 0)) s
  s'.modKey fun k => { k with unlogged := [] }

/-- ROOT_SECRET_GENERATE: a deferred root secret is generated once no PURGE source is PENDING or TRIPPED (R558). -/
def rootGenerate (s : State) : State :=
  if s.key.root.isSome ∨ s.key.purged ∨ s.rootDeferred ∨ !s.pwr.main ∨ s.phase < 2 ∨ !s.drbgOk then s else s.newRoot

/-! ### Random numbers (R537) -/

/-- A TRNG health test fails. -/
def trngFail (s : State) : State :=
  if s.phase = 0 then s
  else
    let s := (s.bump R.KEY_TRNG_FAILS 1).modKey fun k => { k with trngRun := k.trngRun + 1 }
    if s.key.trngRun = 3 then (s.setRegBit R.KEY_STATUS 4 false).raise srcSec Ev.KEY_TRNG_FAIL 0 0 else s

/-- A reseed passes: the DRBG runs. -/
def drbgReseed (s : State) : State :=
  if s.phase = 0 then s else (s.modKey fun k => { k with trngRun := 0 }).setRegBit R.KEY_STATUS 4 true

/-! ### KEY commands (R538 to R548, R560, R561) -/

/-- KEY commands are refused while no root secret exists, and after a purge until the next start-up (R557, R558). -/
def keyGate (s : State) (k : State × CmdEnd) : State × CmdEnd :=
  if s.key.root.isNone ∨ s.key.purged then (s, .st .tampered) else k

/-- A slot field: 2 bytes of number and 2 of 0. -/
def slotField (c : Cmd) : List (Bool × Nat) := [(decide (255 < c.p 0 2), 0), (decide (c.p 2 2 ≠ 0), 2)]

/-- A command that would write to FeRAM for a PERSISTENT slot under the hold of R127 (R551). -/
def bankGate (attr : Word) (s : State) (k : State × CmdEnd) : State × CmdEnd :=
  if attrPersistent attr then feramGate s k else k

/-- A slot takes its new contents: the bank update of a persistent one, then the event. -/
def putSlot (n op : Nat) (k : Slot) (s : State) : State :=
  let was := s.unprovisioned
  let s := s.modKey fun y => { y with slots := tput y.slots n k,
                                      counters := if attrOperator k.attr then tdel y.counters n else y.counters }
  let s := if attrPersistent k.attr then s.bankUpdate n op else s
  let s := s.raise srcSec Ev.KEY_SLOT_CHANGED (n + 256 * op) (fieldAt (keyId k) 0 4)
  if was ∧ attrOperator k.attr then s.raise srcSec Ev.KEY_PROVISIONED n 0 else s

/-- A slot made now. -/
def newSlot (s : State) (attr : Word) (key : List Byte) : Slot :=
  { isSealed := false, attr := attr, key := key, created := s.nowSec, parent := 0xFFFF, derived := false, ctx := [] }

/-- The public key of a type 4 slot. -/
def pubOf (k : Slot) : List Byte := padTo 96 (Config.p384Pub k.key)

/-- The success of a command that makes a slot: a type 4 slot returns its public key. -/
def slotReply (c : Cmd) (k : Slot) : CmdEnd := if attrType k.attr = 4 then replyOr c (pubOf k) else .st .ok

/-- A type 4 slot needs room for its public key in the reply. -/
def pubRoom (c : Cmd) (attr : Word) : Bool := attrType attr != 4 || decide (96 ≤ c.replyLen)

/-- KEY_LOAD (R547). -/
def keyLoad (c : Cmd) (s : State) : State × CmdEnd :=
  keyGate s <|
    let n := c.p 0 2
    let attr : Word := setBit (BitVec.ofNat 32 (c.p 4 4)) 16 false
    let wrap := c.p 8 2
    let import_ := wrap == 0xFFFF
    let pub := slice c.params 0xC 96
    let blob := c.params.drop 0x6C
    match firstBad (slotField c ++ [(!attrOk attr, 4), (decide (255 < wrap) && !import_, 8),
        (if import_ then !Config.p384OnCurve pub else !allZero pub, 0xC)]) with
    | some off => (s, .st .badParam off)
    | none =>
      if c.len ≠ 0x6C + c.p 0xA 2 then (s, badLen (0x6C + c.p 0xA 2))
      else if (tget s.key.slots n).isSome then (s, .st .slotOccupied)
      else
        let unwrap (kek : List Byte) : State × CmdEnd :=
          match Config.unwrap5649 kek blob with
          | none => (s, .st .unwrapFail)
          | some d =>
            if fieldAt d 0 4 ≠ c.p 4 4 ∨ d.length ≠ 4 + keyLength (attrType attr) then (s, .st .unwrapFail)
            else bankGate attr s (s.putSlot n 1 (s.newSlot attr (d.drop 4)), .st .ok)
        if import_ then
          unwrap (kdf (Config.ecdh ((s.identity).getD []) pub) "GZN KEY IMPORT" (pub ++ leBytes 2 n) 256)
        else
          match s.slotInUse wrap with
          | none => (s, .st .slotEmpty)
          | some w => if attrClass w.attr ≠ 2 then (s, .st .slotUsage) else unwrap w.key

/-- KEY_GENERATE. -/
def keyGenerate (c : Cmd) (s : State) : State × CmdEnd :=
  keyGate s <|
    let n := c.p 0 2
    let attr : Word := setBit (BitVec.ofNat 32 (c.p 4 4)) 16 true
    let ty := attrType attr
    match firstBad (slotField c ++ [(!attrOk attr, 4)]) with
    | some off => (s, .st .badParam off)
    | none =>
      if !pubRoom c attr then (s, .st .badLength 96)
      else if (tget s.key.slots n).isSome then (s, .st .slotOccupied)
      else if !s.drbgOk then (s, .st .internal)
      else bankGate attr s <|
        let (bs, s) := s.drawBytes (deriveBits ty / 8)
        let k := s.newSlot attr (formKey ty bs)
        (s.putSlot n 2 k, slotReply c k)

/-- What KEY_DERIVE derives from: the KDF's input key and label, whether a peer key is used, and whether the parent keeps
the key inside (R539, R548). -/
structure Parent where
  kin : List Byte
  label : String
  peer : Bool
  inside : Bool
  deriving DecidableEq, Repr

/-- The parent that KEY_DERIVE names. -/
def parentOf (c : Cmd) (s : State) : Parent ⊕ Status :=
  if c.p 8 2 = 0xFFFF then .inl ⟨s.key.root.getD [], "GZN SLOT", false, true⟩
  else match s.slotInUse (c.p 8 2) with
    | none => .inr .slotEmpty
    | some p =>
      if attrClass p.attr ≠ 3 then .inr .slotUsage
      else if attrType p.attr = 4 then .inl ⟨Config.ecdh p.key (slice c.params 0xC 96), "GZN ECDH", true, false⟩
      else .inl ⟨p.key, "GZN DERIVE", false, bit p.attr 16⟩

/-- KEY_DERIVE (R548). -/
def keyDerive (c : Cmd) (s : State) : State × CmdEnd :=
  keyGate s <|
    let n := c.p 0 2
    let parent := c.p 8 2
    let ctx := c.params.drop 0x6C
    match firstBad (slotField c ++ [(!attrOk (setBit (BitVec.ofNat 32 (c.p 4 4)) 16 false), 4),
        (decide (255 < parent ∧ parent ≠ 0xFFFF), 8), (decide (64 < c.p 0xA 2), 0xA)]) with
    | some off => (s, .st .badParam off)
    | none =>
      if c.len ≠ 0x6C + c.p 0xA 2 then (s, badLen (0x6C + c.p 0xA 2))
      else match s.parentOf c with
        | .inr st => (s, .st st)
        | .inl p =>
          let attr : Word := setBit (BitVec.ofNat 32 (c.p 4 4)) 16 p.inside
          let ty := attrType attr
          let pub := slice c.params 0xC 96
          match firstBad [(!attrOk attr, 4), (if p.peer then !Config.p384OnCurve pub else !allZero pub, 0xC)] with
          | some off => (s, .st .badParam off)
          | none =>
            if !pubRoom c attr then (s, .st .badLength 96)
            else if (tget s.key.slots n).isSome then (s, .st .slotOccupied)
            else bankGate attr s <|
              let k := formKey ty (kdf p.kin p.label (s.slotContext n attr ctx) (deriveBits ty))
              let slot : Slot := { s.newSlot attr k with parent := parent, derived := true, ctx := ctx }
              (s.putSlot n 3 slot, slotReply c slot)

/-- KEY_DELETE (R540 to R542). [DEDUCED, log entry 113] -/
def keyDelete (c : Cmd) (s : State) : State × CmdEnd :=
  keyGate s <|
    let n := c.p 0 2
    match firstBad (slotField c) with
    | some off => (s, .st .badParam off)
    | none =>
      match tget s.key.slots n with
      | none => (s, .st .slotEmpty)
      | some k =>
        let operators := s.key.slots.filter fun x => !x.2.isSealed && attrOperator x.2.attr
        if !k.isSealed ∧ attrOperator k.attr ∧ operators.length = 1 then (s, .st .slotUsage)
        else bankGate k.attr s <|
          let (f, s) := if k.isSealed then s.draw 55 else (fieldAt (keyId k) 0 4, s)
          let s := s.modKey fun y => { y with slots := tdel y.slots n }
          let s := s.removeSlotSas n
          let s := if attrPersistent k.attr then s.bankUpdate n 4 else s
          (s.raise srcSec Ev.KEY_SLOT_CHANGED (n + 256 * 4) f, .st .ok)

/-- KEY_EXPORT_WRAPPED (R545). [DEDUCED, log entry 115] -/
def keyExport (c : Cmd) (s : State) : State × CmdEnd :=
  keyGate s <|
    match firstBad (slotField c ++ [(decide (255 < c.p 4 2), 4), (decide (c.p 6 2 ≠ 0), 6)]) with
    | some off => (s, .st .badParam off)
    | none =>
      match s.slotInUse (c.p 0 2), s.slotInUse (c.p 4 2) with
      | some k, some w =>
        if !attrExportable k.attr ∨ attrClass w.attr ≠ 2 then (s, .st .slotUsage)
        else
          let attr := leBytes 4 k.attr.toNat
          let blob := if attrType k.attr ≤ 2 then padTo 40 (Config.wrap3394 w.key attr k.key)
            else padTo 64 (Config.wrap5649 w.key (attr ++ k.key))
          (s, replyOr c (attr ++ blob))
      | _, _ => (s, .st .slotEmpty)

/-- The operations of R543: the class and whether the type fits. [DEDUCED, log entry 116] -/
def cryptFits (op : Nat) (k : Slot) : Bool :=
  let ty := attrType k.attr
  let cls := attrClass k.attr
  !attrOperator k.attr && (match op with
    | 1 | 3 => ty == 1 && cls == 0
    | 2 | 4 => ty == 1 && cls == 1
    | 5 => (ty == 2 || ty == 3) && cls == 0
    | 6 => (ty == 2 || ty == 3) && cls == 1
    | _ => ty == 4 && cls == 0)

/-- The HMAC of a slot's type. -/
def slotHmac (k : Slot) (msg : List Byte) : List Byte :=
  if attrType k.attr = 2 then padTo 32 (Config.hmac256 k.key msg) else padTo 48 (Config.hmac384 k.key msg)

/-- A check that returns RESULT0 = 1 or 0 (R544). -/
def checkEnd (ok : Bool) : CmdEnd := .st .ok (if ok then 1 else 0)

/-- KEY_CRYPT (R543, R544). [DEDUCED, log entry 116] -/
def keyCrypt (c : Cmd) (s : State) : State × CmdEnd :=
  keyGate s <|
    let op := c.p 4 1
    let aadLen := c.p 8 4
    let dataLen := c.p 0xC 4
    let need (k : Slot) : Nat := match op with
      | 1 => 28 + dataLen | 2 => dataLen | 3 => 16 | 5 => if attrType k.attr = 2 then 32 else 48 | 7 => 96 | _ => 0
    match firstBad (slotField c ++ [(decide (op = 0 ∨ 7 < op), 2), (decide (c.p 5 3 ≠ 0), 5),
        (decide (op = 7 ∧ dataLen ≠ 48), 0xC)]) with
    | some off => (s, .st .badParam off)
    | none =>
      if c.len ≠ 0x4C + aadLen + dataLen then (s, badLen (0x4C + aadLen + dataLen))
      else match s.slotInUse (c.p 0 2) with
        | none => (s, .st .slotEmpty)
        | some k =>
          if !cryptFits op k then (s, .st .slotUsage)
          else if c.replyLen < need k then (s, .st .badLength (need k))
          else if (op = 1 ∨ op = 7) ∧ !s.drbgOk then (s, .st .internal)
          else
            let aad := slice c.params 0x4C aadLen
            let data := slice c.params (0x4C + aadLen) dataLen
            let tag (n : Nat) : List Byte := slice c.params 0x1C n
            match op with
            | 1 =>
              let (nonce, s) := s.drawBytes 12
              let out := padTo (dataLen + 16) (Config.gcmSeal k.key nonce aad data)
              (s, replyOr c (nonce ++ out.drop dataLen ++ out.take dataLen))
            | 2 =>
              match Config.gcmOpen k.key (slice c.params 0x10 12) aad (data ++ tag 16) with
              | some plain => (s, .done .ok 1 0 (padTo dataLen plain))
              | none => (s, checkEnd false)
            | 3 => (s, replyOr c (padTo 16 (Config.aesCmac k.key data)))
            | 4 => (s, checkEnd (Config.aesCmac k.key data == tag 16))
            | 5 => (s, replyOr c (slotHmac k data))
            | 6 => (s, checkEnd (slotHmac k data == tag (if attrType k.attr = 2 then 32 else 48)))
            | _ =>
              let (r, s) := s.draw 56
              (s, replyOr c (padTo 96 (Config.ecdsaSign k.key data r)))

/-- The public key of the device identity (R533); zeros while no root exists. -/
def idPub (s : State) : List Byte := match s.identity with | some d => padTo 96 (Config.p384Pub d) | none => zeros 96

/-- KEY_ATTEST (R561). -/
def keyAttest (c : Cmd) (s : State) : State × CmdEnd :=
  keyGate s <|
    match firstBad (slotField c) with
    | some off => (s, .st .badParam off)
    | none =>
      match s.slotInUse (c.p 0 2) with
      | none => (s, .st .slotEmpty)
      | some k =>
        if !s.drbgOk then (s, .st .internal)
        else
          let body := leBytes 4 0x54415A47 ++ leBytes 2 1 ++ leBytes 2 (c.p 0 2) ++ leBytes 4 (s.reg R.SYS_ID).toNat ++
            leBytes 4 k.attr.toNat ++ instantBytes s.now ++ zeros 4 ++ slice c.params 4 32 ++
            ((List.range 4).map fun j => padTo 48 (nth [] s.pwr.meas j)).flatten ++
            (if attrType k.attr = 4 then pubOf k else zeros 96) ++ s.idPub
          let (r, s) := s.draw 57
          (s, replyOr c (body ++ padTo 96 (Config.ecdsaSign ((s.identity).getD []) (Config.sha384 body) r)))

/-- KEY_SLOT_INFO. [DEDUCED, log entry 120] -/
def keySlotInfo (c : Cmd) (s : State) : State × CmdEnd :=
  match firstBad (slotField c) with
  | some off => (s, .st .badParam off)
  | none =>
    let n := c.p 0 2
    let counter := leBytes 4 ((tget s.key.counters n).getD 0)
    match tget s.key.slots n with
    | none => (s, replyOr c (zeros 8 ++ counter ++ zeros 20))
    | some k =>
      let (id, s) : List Byte × State :=
        if k.isSealed || !s.domOn 9 then (let (f, s) := s.draw 58; (leBytes 8 f, s)) else (keyId k, s)
      (s, replyOr c (leBytes 1 (if k.isSealed then 2 else 1) ++ zeros 3 ++ leBytes 4 k.attr.toNat ++ counter ++
        leBytes 8 k.created ++ id ++ zeros 4))

end State

def execKeyLoad (id : Nat) (s : State) : Res := hostRow Op.KEY_LOAD id State.keyLoad s
def execKeyGenerate (id : Nat) (s : State) : Res := hostRow Op.KEY_GENERATE id State.keyGenerate s
def execKeyDerive (id : Nat) (s : State) : Res := hostRow Op.KEY_DERIVE id State.keyDerive s
def execKeyDelete (id : Nat) (s : State) : Res := hostRow Op.KEY_DELETE id State.keyDelete s
def execKeyExportWrapped (id : Nat) (s : State) : Res := hostRow Op.KEY_EXPORT_WRAPPED id State.keyExport s
def execKeyCrypt (id : Nat) (s : State) : Res := hostRow Op.KEY_CRYPT id State.keyCrypt s
def execKeyAttest (id : Nat) (s : State) : Res := hostRow Op.KEY_ATTEST id State.keyAttest s
def execKeySlotInfo (id : Nat) (s : State) : Res := hostRow Op.KEY_SLOT_INFO id State.keySlotInfo s
def execTamperTrip (clock : Bool) (s : State) : Res := .next (s.tamperTrip clock)
def execRootSecretGenerate (s : State) : Res := .next s.rootGenerate
def execTrngHealthFail (s : State) : Res := .next s.trngFail
def execDrbgReseed (s : State) : Res := .next s.drbgReseed

end Sys2Proof.Machine
end

