-- ==== Sys2Proof/Machine/Rings.lean ====
section
/-! DEFINITION. Rings, doorbells, the Ethernet command channel and Bus Master Enable (spec 03, R88 to R118). -/

namespace Sys2Proof.Machine

namespace State

/-- STATE of ring `n`: 0 DISABLED, 1 ACTIVE, 2 DRAINING, 3 ERROR (R90). -/
def ringState (s : State) (n : Nat) : Nat := s.regField (R.CMD_RING_STATUS n) 1 0

/-- A doorbell that an ACTIVE ring takes (R92). [PRESUMED, log entry 32] -/
def sqTail (n : Nat) (v : Word) (s : State) : State :=
  if s.ringState n ≠ 1 then s
  else if s.ringSize n ≤ v.toNat then s.ringError n 1
  else s.setReg (R.CMD_RING_SQ_TAIL n) v

/-- The status head moves on, but never past the tail (R92). [PRESUMED, log entry 32] -/
def cqHead (n : Nat) (v : Word) (s : State) : State :=
  let size := s.ringSize n
  let old := (s.reg (R.CMD_RING_CQ_HEAD n)).toNat
  let tail := (s.reg (R.CMD_RING_CQ_TAIL n)).toNat
  if s.ringState n ≠ 1 then s
  else if size ≤ v.toNat ∨ (tail + size - old) % size < (v.toNat + size - old) % size then s.ringError n 1
  else s.setReg (R.CMD_RING_CQ_HEAD n) v

/-- A ring is activated when its configuration is valid; otherwise it is DISABLED with CAUSE 3 (R90, R96). -/
def ringActivate (n : Nat) (s : State) : State :=
  let log2 := s.regField (R.CMD_RING_CFG n) 7 4
  let maxIn := s.regField (R.CMD_RING_CFG n) 23 16
  if log2 < 4 ∨ 12 < log2 ∨ maxIn = 0 ∨ 128 < maxIn then
    s.setReg (R.CMD_RING_STATUS n) (BitVec.ofNat 32 0x30)
  else
    let s := s.setRegField (R.CMD_RING_CFG n) 23 16 (min maxIn (2 ^ log2 - 1))
    let s := s.setRegField (R.CMD_RING_STATUS n) 2 0 1
    let s := (s.setReg (R.CMD_RING_SQ_HEAD n) 0).setReg (R.CMD_RING_SQ_TAIL n) 0
    let s := (s.setReg (R.CMD_RING_CQ_HEAD n) 0).setReg (R.CMD_RING_CQ_TAIL n) 0
    let s := { s with host := { s.host with last := modNth (fun _ => ⟨none, none⟩) s.host.last n } }
    s.writeShadow n

/-- A ring starts draining: its fetched commands that have not started complete with ST_ABORTED (R96). -/
def ringDrain (n : Nat) (s : State) : State :=
  let s := s.setRegField (R.CMD_RING_STATUS n) 2 0 2
  (s.host.inflight.filter fun x => x.2.chan == .ring n && x.2.wait == none).foldl
    (fun s x => s.complete x.1 .aborted 0 0 []) s

/-- A write to `CMD.RING_CFG[n]` (R90, R96). -/
def ringCfgWrite (n : Nat) (v : Word) (s : State) : State :=
  let a := R.CMD_RING_CFG n
  let st := s.ringState n
  let on := bit v 0
  let s := if st = 0 then s.setReg a (v &&& 0x00FF0FF1) else s.setRegBit a 0 on
  match st, on with
  | 0, true => s.ringActivate n
  | 1, false | 3, false => s.ringDrain n
  | 2, b => s.setRegBit (R.CMD_RING_STATUS n) 2 b
  | _, _ => s

/-- The command engine serves ring `n`: in READY, or ring 0 in RECOVERY (R136). [PRESUMED, log entry 32] -/
def ringServed (s : State) (n : Nat) : Bool :=
  s.pwr.mgtRuns && (s.phase == 5 || (s.phase == 6 && n == 0))

/-- Whether the entry at the head may be fetched (R93, R95). -/
def mayFetch (s : State) (n : Nat) : Bool :=
  let size := s.ringSize n
  let used := ((s.reg (R.CMD_RING_CQ_TAIL n)).toNat + size - (s.reg (R.CMD_RING_CQ_HEAD n)).toNat) % size
  s.host.bme && !s.crossBlocked 0 && s.ringServed n && s.ringState n == 1 &&
    s.reg (R.CMD_RING_SQ_HEAD n) != s.reg (R.CMD_RING_SQ_TAIL n) &&
    decide (s.ringInflight n < s.regField (R.CMD_RING_CFG n) 23 16) &&
    decide (used + s.ringInflight n + 1 < size)

/-- The fetch passes the head and the shadow word follows (R94). -/
def passHead (n : Nat) (s : State) : State :=
  (s.modReg (R.CMD_RING_SQ_HEAD n) fun h => BitVec.ofNat 32 ((h.toNat + 1) % s.ringSize n)).writeShadow n

/-- A fetch of one submission entry: `none` for a failed DMA read of the entry, or of the parameter buffer. Without an
in-flight place only a relaxed command is fetched; every other ORDER waits, the reserved 3 too.
[DESIGN CHOICE, log entry 144] -/
def ringFetch (n : Nat) (entry buf : Option (List Byte)) (s : State) : State :=
  if !s.mayFetch n then s
  else
    match entry with
    | none => s.ringError n 2
    | some e =>
      let c0 := s.mkCmd (.ring n) e [] (nth ⟨none, none⟩ s.host.last n)
      let needBuf := c0.ext && c0.len != 0
      let c := { c0 with params := if c0.ext then padTo c0.len (buf.getD []) else slice c0.entry 0x10 (min c0.len 48) }
      if s.placeFree (.ring n) then (s.passHead n).takeCmd c (!needBuf || buf.isSome)
      else if c.order = 0 then (s.passHead n).refuseBusy c
      else s

/-- The largest datagram payload (R90). -/
def ethPayload (s : State) : Nat := if s.regBit R.CMD_ETH_CFG 1 then 8972 else 1472

/-- A dropped datagram is counted, and logged with the count of the last second unless an event of the last second stands
already (R114, R124). [DESIGN CHOICE, log entry 142] -/
def ethDrop (s : State) : State :=
  let recent := (s.host.drops.filter fun t => decide (s.raw < t + rawUs 1000000)) ++ [s.raw]
  let s := { s with host := { s.host with drops := recent } }.bump R.CMD_ETH_DROPS 1
  let due := match s.host.dropLogged with | none => true | some t => decide (t + rawUs 1000000 ≤ s.raw)
  if due then
    { s with host := { s.host with dropLogged := some s.raw } }.raise srcHost Ev.CMD_ETH_DROP recent.length 0
  else s

/-- The items of a request: each entry with its parameters; `none` when the length does not match (R115). -/
def splitItems : Nat → List Byte → Option (List (List Byte × List Byte))
  | 0, bs => if bs.isEmpty then some [] else none
  | n + 1, bs =>
    if bs.length < 64 then none
    else
      let e := bs.take 64
      let len := fieldAt e 4 2
      if bit (BitVec.ofNat 16 (fieldAt e 6 2)) 4 then
        let padded := 8 * ((len + 7) / 8)
        let rest := bs.drop 64
        if rest.length < padded then none
        else (splitItems n (rest.drop padded)).map ((e, rest.take len) :: ·)
      else (splitItems n (bs.drop 64)).map ((e, slice e 0x10 (min len 48)) :: ·)

/-- The items of a well-formed request datagram (R114, R115). -/
def parseRequest (s : State) (bs : List Byte) : Option (List (List Byte × List Byte)) :=
  let items := fieldAt bs 4 1
  if bs.length < 16 ∨ s.ethPayload < bs.length ∨ fieldAt bs 0 2 ≠ 0x5A47 ∨ fieldAt bs 2 1 ≠ 1 ∨ fieldAt bs 3 1 ≠ 0 ∨
      items = 0 ∨ 16 < items ∨ fieldAt bs 5 3 ≠ 0 then none
  else splitItems items (bs.drop 16)

/-- Answers every item of a request with one status, executing none (R116, R117). [DESIGN CHOICE, log entry 143] -/
def answerAll (d : Datagram) (items : List (List Byte × List Byte)) (st : Status) (s : State) : State :=
  let replies := items.mapIdx fun i x =>
    (i, s.replyItem (s.mkCmd (.eth d.assoc 0 i) x.1 x.2 ⟨none, none⟩) st 0 0 [])
  sendReply { d with replies := replies } s

/-- The reply bytes that a request declares (R116). -/
def declaredReply (items : List (List Byte × List Byte)) : Nat :=
  items.foldl (fun n x =>
    let len := if bit (BitVec.ofNat 16 (fieldAt x.1 6 2)) 4 then fieldAt x.1 0x20 4 else 0
    n + 24 + 8 * ((len + 7) / 8)) 16

/-- A request datagram received in receive SA `sa`: its secure channel is the association (R112 to R117, R428). -/
def ethRequest (sa addr port udpPort : Nat) (bs : List Byte) (s : State) : State :=
  if !s.domOn 6 || s.reg R.NET_IPV4_ADDR == 0 || udpPort != s.regField R.CMD_ETH_CFG 31 16 then s
  else
    match tget s.net.sas sa with
    | none => s.ethDrop
    | some a =>
      if !(a.rx && s.commandChannel a.channel) || !s.regBit R.CMD_ETH_CFG 0 || s.phase != 5 then s.ethDrop
      else
        match s.parseRequest bs with
        | none => s.ethDrop
        | some items =>
          let seq := fieldAt bs 8 4
          let session := s.reg R.CMD_SESSION
          let w0 : Assoc := ⟨session, [], [], addr, port⟩
          let ch := a.channel
          let w := match tget s.host.assocs ch with
            | some w => if w.session = session then { w with addr := addr, port := port } else w0
            | none => w0
          let known := w.seen.contains seq || (w.seen.length == 64 && w.seen.all fun x => decide (seq < x))
          let d : Datagram :=
            { assoc := ch, addr := addr, port := port, seq := seq, echo := fieldAt bs 12 4, arrival := s.now, todo := items,
              next := 0, replies := [], items := items.length }
          if known then
            let s := { s with host := { s.host with assocs := tput s.host.assocs ch w } }
            match w.kept.find? fun x => x.1 == seq with
            | some (_, reply) => s.sendDatagram ch addr port reply
            | none => answerAll d items .duplicate s
          else
            let s := { s with host := { s.host with
              assocs := tput s.host.assocs ch { w with seen := (seq :: w.seen).take 64 } } }
            if s.ethPayload < declaredReply items then answerAll d items .badLength s
            else
              let dg := s.host.nextDatagram
              let s := { s with host := { s.host with
                datagrams := tput s.host.datagrams dg d, nextDatagram := dg + 1 } }
              s.admitItems dg 17

/-- Bus Master Enable is 1: the held writes are made, then the status entries that wait are written, stamped with the
time of their writing (R95). [DESIGN CHOICE, log entry 145] -/
def busMasterSet (s : State) : State :=
  let ended := s.host.ended
  let s := { s with host := { s.host with bme := true, ended := [] } }.releaseHeld
  (ended.foldl (fun s x => s.completeNow x.1 x.2.1 x.2.2.1 x.2.2.2.1 x.2.2.2.2) s).admitWaiting

end State

/-! ### Rows -/

/-- SQ_TAIL_DOORBELL (R88, R92). -/
def execSqTailDoorbell (n : Fin 16) (v : Word) (s : State) : Res :=
  .next (if s.crossBlocked 0 then s else s.sqTail n v)

/-- CQ_HEAD_DOORBELL (R88, R92). -/
def execCqHeadDoorbell (n : Fin 16) (v : Word) (s : State) : Res :=
  .next (if s.crossBlocked 0 then s else s.cqHead n v)

/-- RING_ENABLE: a write to `CMD.RING_CFG[n]` with ENABLE 1 (R96). -/
def execRingEnable (n : Fin 16) (v : Word) (s : State) : Res :=
  .next (if s.crossBlocked 0 then s else s.ringCfgWrite n (v ||| 1))

/-- RING_DISABLE: a write to `CMD.RING_CFG[n]` with ENABLE 0 (R96). -/
def execRingDisable (n : Fin 16) (v : Word) (s : State) : Res :=
  .next (if s.crossBlocked 0 then s else s.ringCfgWrite n (v &&& ~~~1))

/-- RING_FETCH (R93, R94, R98 to R103). -/
def execRingFetch (n : Fin 16) (entry buf : Option (List Byte)) (s : State) : Res := .next (s.ringFetch n entry buf)

/-- RING_DRAIN_END (R96): nothing happens while the ring is not DRAINING or a command of it is in flight. -/
def execRingDrainEnd (n : Fin 16) (s : State) : Res :=
  .next <|
    if s.ringState n = 2 ∧ s.ringInflight n = 0 then
      let again := s.regBit (R.CMD_RING_STATUS n) 2
      let s := s.setRegField (R.CMD_RING_STATUS n) 2 0 0
      if again then s.ringActivate n else s
    else s

/-- BUS_MASTER_ENABLE_SET (R95). -/
def execBusMasterEnableSet (s : State) : Res := .next s.busMasterSet

/-- BUS_MASTER_ENABLE_CLEAR (R95). -/
def execBusMasterEnableClear (s : State) : Res := .next { s with host := { s.host with bme := false } }

/-- PERST_N_ASSERT: only the endpoint and its configuration space are reset, Bus Master Enable and the MSI-X table
with them; the rings and every other register keep their state (R615). -/
def execPerstNAssert (s : State) : Res :=
  let s := { s with host := { s.host with bme := false } }
  .next { s with regs := s.regs.filter fun x => decide (x.1 < 0x10000000000) }

/-- COMMAND_DATAGRAM (R112 to R117). -/
def execCommandDatagram (sa addr port udpPort : Nat) (bytes : List Byte) (s : State) : Res :=
  .next (if s.crossBlocked 8 then s else s.ethRequest sa addr port udpPort bytes)

/-- AUTH_LOCKOUT_EXPIRY: nothing happens before the 60 s have passed (R110). -/
def execAuthLockoutExpiry (s : State) : Res :=
  .next <|
    match s.host.lockUntil with
    | some t => if t ≤ s.raw then { s with host := { s.host with lockUntil := none } } else s
    | none => s

end Sys2Proof.Machine
end

