-- ==== Sys2Proof/Machine/StnInput.lean ====
section
/-! DEFINITION. INPUT frames: assembly of fragments, the hand-over of raw values to metering, and qualification into the
image (spec 07, R261, R272 to R276). -/

namespace Sys2Proof.Machine

/-- One input value of a frame: type, raw wire value and 2-bit status (R261). -/
structure InValue where
  ty : Nat
  raw : Nat
  status : Nat
  deriving DecidableEq, Repr

/-- The values in the data of a station's INPUT, in signal order (R261). -/
def inputValues (types : List Nat) (data : List Byte) : List InValue :=
  let (l, e) := layout types 0
  l.mapIdx fun i x =>
    ⟨x.2, fieldAt data x.1 (max 1 (typeSize x.2)), fieldAt data (e + i / 4) 1 / 4 ^ (i % 4) % 4⟩

/-- A counter of an unsigned type with a usable status (R376, R378). -/
def counterOf (vs : List InValue) (pos : Nat) : Option Nat :=
  match vs[pos]? with
  | some v => if v.status < 2 ∧ (v.ty = 3 ∨ v.ty = 5) then some v.raw else none
  | none => none

/-- A temperature of a floating-point type with a usable status, in FP64 (R376, R380). -/
def tempValue (vs : List InValue) (pos : Nat) : Option Nat :=
  match vs[pos]? with
  | some v => if v.status < 2 ∧ (v.ty = 8 ∨ v.ty = 9) then some (State.toF64 v.ty v.raw) else none
  | none => none

/-- What a meter takes from a frame (R377). -/
def meterTake (c : MeterCfg) (vs : List InValue) (t : Instant) : MeterSample :=
  let bits := match vs[c.fwd]? with | some v => if v.ty = 5 then 64 else 32 | none => 32
  { time := t, bits := bits, fwd := counterOf vs c.fwd, rev := if c.rev = 0xFFFF then none else counterOf vs c.rev,
    sup := tempValue vs c.sup, ret := tempValue vs c.ret }

namespace State

/-- The raw values of a station reach every meter bound to it (R276, R377). -/
def feedStation (k n : Nat) (vs : List InValue) (t : Instant) (s : State) : State :=
  s.metCfg.meters.foldl (fun s x =>
    if x.2.mode ≠ 0 ∧ x.2.seg = k ∧ x.2.stn = n then s.feedMeter x.1 (meterTake x.2 vs t) else s) s

/-- A complete INPUT of a station: metering, then each signal through its class (R272, R276). -/
def takeInput (k pos : Nat) (a : Adm) (t : Instant) (data : List Byte) (s : State) : State :=
  let g := s.seg k
  let vs := inputValues (s.runTypes a.inFirst a.inCount) data
  let s := s.feedStation k (pos % 64) vs t
  match s.ctx pos with
  | none => s
  | some c =>
    let (sigs, s) := (c.sigs.mapIdx fun j x => (j, x)).foldl (fun (p : List SigIn × State) y =>
      match vs[y.1]? with
      | some v =>
        let (st, x) := p.2.qualify k (a.inFirst + y.1) (classOf a y.1) v.raw v.status t g.boundary g.period y.2
        (p.1 ++ [x], st)
      | none => (p.1 ++ [y.2], p.2)) ([], s)
    s.modCtx pos fun c => { c with sigs := sigs }

/-- The fragments of an INPUT are complete: their data in order. -/
def allFrags (n : Nat) (fs : List (Nat × List Byte)) : Option (List Byte) :=
  if (List.range n).all fun i => (tget fs i).isSome then some ((List.range n).map fun i => (tget fs i).getD []).flatten
  else none

/-- An INPUT frame (R258, R261, R272, R285). -/
def inputFrame (k : Nat) (p : List Byte) (s : State) : State :=
  if !s.segListens k then s
  else if (s.seg k).phase ≠ .input ∨ !frameOk k 0x10 true p ∨ fieldAt p 2 2 < 16 ∨ 1476 < fieldAt p 2 2 ∨
      fieldAt p 6 1 / 16 < fieldAt p 6 1 % 16 then s.badFrame
  else
    let (s, r) := s.acceptStation k p
    match r with
    | none => s
    | some pos =>
      let b := bodyOf p
      let bound := (s.boundTask k).isSome
      match s.adm pos, s.ctx pos with
      | some a, some c =>
        let s := s.modCtx pos fun c => { c with boxActive := fieldAt b 12 4 / 4 % 2 == 1 }
        if !s.loaded ∨ !(c.state == 4 || (c.state == 3 && !bound)) then s
        else
          let fs := tput c.frags (fieldAt p 6 1 % 16) (b.drop 16)
          match allFrags (fieldAt p 6 1 / 16 + 1) fs with
          | none => s.modCtx pos fun c => { c with frags := fs }
          | some data => (s.modCtx pos fun c => { c with frags := [] }).takeInput k pos a (instantOf b) data
      | _, _ => s

end State

/-- INPUT_FRAME. -/
def execInputFrame (k : Fin 20) (payload : List Byte) (s : State) : Res := .next (s.inputFrame k payload)

end Sys2Proof.Machine
end

