-- ==== Sys2Proof/Machine/NetRx.lean ====
section
/-! DEFINITION. A frame received on a switch port: MACsec, the station engine, PTP, bridging, and the controller's own
endpoint; and the service window, in which a segment port sends what has waited (spec 11, R416 to R429, R437 to R440). -/

namespace Sys2Proof.Machine

/-- The number that bytes in network order spell. -/
def beAt (bs : List Byte) (off len : Nat) : Nat := beNat (slice bs off len)

/-- Replaces the bytes from an offset on. -/
def patch (bs : List Byte) (off : Nat) (new : List Byte) : List Byte := bs.take off ++ new ++ bs.drop (off + new.length)

/-- The 16-bit ones' complement sum of the Internet checksum. -/
def onesSum : List Byte → Nat → Nat
  | a :: b :: rest, acc =>
    let v := acc + 256 * a.toNat + b.toNat
    onesSum rest (v % 65536 + v / 65536)
  | [a], acc => let v := acc + 256 * a.toNat; v % 65536 + v / 65536
  | [], acc => acc

/-- An untagged frame with its VLAN and priority (R418, R419). -/
structure VFrame where
  vid : Nat
  pcp : Nat
  /-- Destination, source, EtherType and payload. -/
  bytes : List Byte
  deriving DecidableEq, Repr

namespace VFrame

def dst (f : VFrame) : Nat := beAt f.bytes 0 6
def src (f : VFrame) : Nat := beAt f.bytes 6 6
def etherType (f : VFrame) : Nat := beAt f.bytes 12 2
/-- Destination is a group address. -/
def group (f : VFrame) : Bool := f.dst / 2 ^ 40 % 2 == 1

/-- The frame as a port sends it: without a tag, or with one. -/
def onWire (f : VFrame) (untag : Bool) : List Byte :=
  if untag then f.bytes
  else f.bytes.take 12 ++ beBytes 2 0x8100 ++ beBytes 2 (f.pcp * 2 ^ 13 + f.vid) ++ f.bytes.drop 12

/-- Takes the tag off a received frame; without a VID in it, the frame takes the PVID (R418). -/
def parse (pvid : Nat) (bs : List Byte) : VFrame :=
  if beAt bs 12 2 = 0x8100 then
    let tci := beAt bs 14 2
    { vid := if tci % 4096 = 0 then pvid else tci % 4096, pcp := tci / 2 ^ 13, bytes := bs.take 12 ++ bs.drop 16 }
  else { vid := pvid, pcp := 0, bytes := bs }

/-- A UDP datagram over IPv4 without options that is no fragment. -/
def udp (f : VFrame) : Bool :=
  f.etherType == 0x0800 && beAt f.bytes 14 1 == 0x45 && beAt f.bytes 20 2 % 2 ^ 14 == 0 && beAt f.bytes 23 1 == 17 &&
    decide (42 ≤ f.bytes.length)

/-- Where a PTP message starts in the frame (R436). -/
def ptpAt (f : VFrame) : Option Nat :=
  if f.etherType = 0x88F7 then some 14
  else if f.udp ∧ (beAt f.bytes 36 2 = 319 ∨ beAt f.bytes 36 2 = 320) then some 42
  else none

/-- The frame with its UDP checksum computed again, where it carries one (R440). -/
def fixUdp (f : VFrame) : VFrame :=
  if f.udp ∧ beAt f.bytes 40 2 ≠ 0 then
    let len := beAt f.bytes 38 2
    let zeroed := patch f.bytes 40 [0, 0]
    let c := 65535 - onesSum (slice zeroed 26 8 ++ beBytes 2 17 ++ beBytes 2 len ++ slice zeroed 34 len) 0
    { f with bytes := patch f.bytes 40 (beBytes 2 (if c = 0 then 65535 else c)) }
  else f

/-- Adds to the correctionField of the PTP message at an offset, in units of 2^-16 ns (R440). -/
def addCorrection (f : VFrame) (off add : Nat) : VFrame :=
  if add = 0 then f
  else { f with bytes := patch f.bytes (off + 8) (beBytes 8 (beAt f.bytes (off + 8) 8 + add)) }.fixUdp

end VFrame

namespace State

/-! ### Egress (R417 to R420) -/

/-- Counts a frame dropped on a port. -/
def dropFrame (p : Nat) (s : State) : State := s.bump (R.NET_PORT_DROPS p) 1

/-- Bytes that an egress queue holds. -/
def queued (s : State) (k : Nat) : Nat := (((tget s.net.queues k).getD []).map (·.length)).sum

/-- A frame waits in an egress queue, or finds it full (R419). -/
def enqueueFrame (p q : Nat) (bs : List Byte) (s : State) : State :=
  let k := 4 * p + q
  if 16384 < s.queued k + bs.length then s.dropFrame p
  else { s with net := { s.net with queues := tput s.net.queues k ((tget s.net.queues k).getD [] ++ [⟨bs, bs.length⟩]) } }

/-- Sends what waits in one queue while it fits the service window; `false` when a frame must wait.
[DEDUCED, log entry 91] -/
def drainQueue (p q : Nat) : Nat → State → State × Bool
  | 0, s => (s, true)
  | fuel + 1, s =>
    match (tget s.net.queues (4 * p + q)).getD [] with
    | [] => (s, true)
    | f :: rest =>
      match s.fitsWindow p f.length with
      | none => (s, false)
      | some s =>
        let s := { s with net := { s.net with
          queues := if rest.isEmpty then tdel s.net.queues (4 * p + q) else tput s.net.queues (4 * p + q) rest } }
        drainQueue p q fuel (s.sendFrame p (.frame p f.bytes))

/-- Serves the queues of a segment port in strict priority, queue 3 first (R419, R420). [DEDUCED, log entry 91] -/
def drainPort (p : Nat) (s : State) : State :=
  let go (x : State × Bool) (q : Nat) : State × Bool :=
    if x.2 then x.1.drainQueue p q (1 + ((tget x.1.net.queues (4 * p + q)).getD []).length) else x
  ([3, 2, 1, 0].foldl go (s, true)).1

/-- A frame leaves by a port: at once from a PLAIN port, in the service window from a SEGMENT port. -/
def egress (p q : Nat) (bs : List Byte) (s : State) : State :=
  if s.regField (R.NET_PORT_CFG p) 1 0 = 0 ∨ !s.regBit (R.NET_PORT_STATE p) 0 then s
  else if p < 16 ∧ 1522 < bs.length + 4 then s.dropFrame p
  else if s.isSegment p then (s.enqueueFrame p q bs).drainPort p
  else s.sendFrame p (.frame p bs)

/-- The VLAN entry of a VID. -/
def vlan (s : State) (vid : Nat) : Option Vlan := (s.net.vlans.find? fun x => x.2.vid == vid).map (·.2)

/-- The queue of a priority (R419). -/
def pcpQueue (s : State) (pcp : Nat) : Nat := s.regField R.NET_PCP_MAP (2 * pcp + 1) (2 * pcp)

/-- The ports that a frame goes to, without its ingress port (R417). [DEDUCED, log entry 88] -/
def egressPorts (s : State) (from_ : Nat) (f : VFrame) (v : Vlan) : List Nat :=
  let flood := (List.range 21).filter fun p => p != from_ && v.member.getLsbD p
  if f.group then flood
  else if f.dst = baseMac + 20 then flood.filter (· == 20)
  else match tget s.net.fdb (f.vid * 2 ^ 48 + f.dst) with
    | some e => flood.filter (· == e.port)
    | none => flood

/-- Sends a frame out of the external ports it goes to; `per` changes it for each. -/
def bridgeOut (from_ : Nat) (f : VFrame) (v : Vlan) (per : Nat → VFrame → VFrame) (s : State) : State :=
  (s.egressPorts from_ f v).foldl (fun s p =>
    if p = 20 then s else s.egress p (s.pcpQueue f.pcp) ((per p f).onWire (v.untag.getLsbD p))) s

/-- Learns the source address (R417). -/
def learn (p : Nat) (f : VFrame) (s : State) : State :=
  let k := f.vid * 2 ^ 48 + f.src
  if !s.regBit R.NET_SWITCH_CFG 12 ∨ f.src / 2 ^ 40 % 2 = 1 ∨ ((tget s.net.fdb k).isNone ∧ 4096 ≤ s.net.fdb.length) then s
  else
    let s := { s with net := { s.net with fdb := tput s.net.fdb k ⟨p, s.raw⟩ } }
    s.setReg R.NET_FDB_COUNT (BitVec.ofNat 32 s.net.fdb.length)

/-! ### The endpoint (R421) -/

/-- The reply to an ARP request for the endpoint's address. -/
def arpReply (s : State) (f : VFrame) : Option VFrame :=
  let ip := (s.reg R.NET_IPV4_ADDR).toNat
  if f.etherType = 0x0806 ∧ ip ≠ 0 ∧ 42 ≤ f.bytes.length ∧ beAt f.bytes 14 8 = 0x0001080006040001 ∧ beAt f.bytes 38 4 = ip then
    let own := beBytes 6 (baseMac + 20)
    let reply := slice f.bytes 6 6 ++ own ++ beBytes 2 0x0806 ++ beBytes 8 0x0001080006040002 ++ own ++ beBytes 4 ip ++
      slice f.bytes 22 10 ++ zeros 18
    some { f with bytes := reply }
  else none

/-- What the endpoint does with a frame: it answers ARP, takes command datagrams, and drops the rest. `sa` is the receive
SA the frame came under. [DEDUCED, log entry 88] -/
def endpoint (sa : Nat) (f : VFrame) (v : Vlan) (s : State) : State :=
  match s.arpReply f with
  | some r => s.bridgeOut 20 r v fun _ g => g
  | none =>
    let ip := (s.reg R.NET_IPV4_ADDR).toNat
    let len := beAt f.bytes 38 2
    if f.udp ∧ ip ≠ 0 ∧ beAt f.bytes 30 4 = ip ∧ onesSum (slice f.bytes 14 20) 0 = 65535 ∧ 8 ≤ len ∧
        34 + len ≤ f.bytes.length then
      s.ethRequest sa (beAt f.bytes 26 4) (beAt f.bytes 34 2) (beAt f.bytes 36 2) (slice f.bytes 42 (len - 8))
    else s

/-! ### PTP (R437 to R440) -/

/-- The parent that an Announce describes. -/
def announceOf (p : Nat) (m : List Byte) (s : State) : PtpParent :=
  { ident := slice m 20 10, gmPriority1 := beAt m 47 1, gmClass := beAt m 48 1, gmAccuracy := beAt m 49 1,
    gmVariance := beAt m 50 2, gmPriority2 := beAt m 52 1, gmIdent := slice m 53 8, steps := beAt m 61 2, port := p,
    heard := s.raw }

/-- An Announce of the domain: the port keeps the best it hears, and the algorithm runs (R437).
[DEDUCED, log entry 95] -/
def takeAnnounce (p : Nat) (m : List Byte) (s : State) : State :=
  let a := s.announceOf p m
  if m.length < 64 ∨ beAt m 1 1 % 16 ≠ 2 ∨ a.ident.take 8 = clockIdentity ∨ 255 ≤ a.steps then s
  else
    let keep := match tget s.time.announces p with
      | some b => b.ident != a.ident && s.freshAnnounce b && !better a b
      | none => false
    let s := if keep then s else { s with time := { s.time with announces := tput s.time.announces p a } }
    let s := s.bmca
    match s.time.parent with
    | some b =>
      if b.ident = a.ident then
        s.setReg R.TIME_PTP_UTC (BitVec.ofNat 32 (beAt m 44 2 + 2 ^ 16 * (beAt m 7 1 / 4 % 2)))
      else s
    | none => s

/-- The answer to a delay request of kind `k`: its header with the request's sequenceId and, after the time stamp of
receipt, the requesting port; the correction is free. [DESIGN CHOICE, log entry 89; DEDUCED, log entry 103] -/
def delayResp (p k : Nat) (m : List Byte) (s : State) : List Byte × State :=
  let (c, s) := s.draw 48
  (beBytes 1 k ++ beBytes 1 2 ++ beBytes 2 54 ++ slice m 4 1 ++ zeros 3 ++ beBytes 8 c ++ zeros 4 ++ clockIdentity ++
    beBytes 2 (p + 1) ++ slice m 30 2 ++ beBytes 1 (if k = 9 then 3 else 5) ++ beBytes 1 0x7F ++ beBytes 6 s.nowSec ++
    beBytes 4 (s.now % 2 ^ 32 * 1000000000 / 2 ^ 32) ++ slice m 20 10, s)

/-- Answers a delay request: a master answers Delay_Req, and a peer-to-peer profile answers Pdelay_Req on each port. -/
def answerDelay (p : Nat) (layer2 : Bool) (m : List Byte) (s : State) : State :=
  let ty := beAt m 0 1 % 16
  let go (k : Nat) (dst : Nat) (s : State) : State :=
    let (b, s) := s.delayResp p k m
    if layer2 then s.egress p 3 (beBytes 6 dst ++ beBytes 6 (baseMac + 20) ++ beBytes 2 0x88F7 ++ b)
    else s.sendFrame p (.ptp p 3 b)
  if ty = 1 ∧ s.ptpProfile = 0 ∧ s.ptpPortState p = 2 then go 9 0x011B19000000 s
  else if ty = 2 ∧ s.ptpProfile ≠ 0 ∧ !(s.isSegment p ∧ (s.role = 2 ∨ s.role = 3)) then go 3 0x0180C200000E s
  else s

/-- The answer to the port's last Pdelay_Req measures its link delay, which is free (R436, R451).
[DESIGN CHOICE, log entry 137] -/
def pdelayResp (p : Nat) (m : List Byte) (s : State) : State :=
  let next := (tget s.time.seqs (3 * p + 2)).getD 0
  if s.ptpOn p ∧ s.ptpProfile ≠ 0 ∧ 54 ≤ m.length ∧ slice m 44 10 = clockIdentity ++ beBytes 2 (p + 1) ∧
      (beAt m 30 2 + 1) % 65536 = next then
    let (v, s) := s.draw 50
    s.setLinkDelay p (v % 2 ^ 24)
  else s

/-- The residence time of a forwarded event message at egress port `p`, in units of 2^-16 ns: free.
[DESIGN CHOICE, log entry 89] -/
def residence (drawn p : Nat) : Nat := Config.freeValue 49 (32 * drawn + p)

/-- How the transparent clock forwards a PTP message: the change it makes for each egress port (R440).
[PRESUMED, log entry 90; DEDUCED, log entry 94] -/
def transparent (p off : Nat) (m : List Byte) (s : State) : State × (Nat → VFrame → VFrame) :=
  let ty := beAt m 0 1 % 16
  let fresh (l : List TcSync) : List TcSync := l.filter fun x => decide (s.raw ≤ x.at_ + rawUs 100000)
  let n := s.draws
  let link := if s.ptpProfile ≠ 0 then s.regField (R.TIME_PORT_STATE p) 31 8 * 65536 else 0
  let used := { s with draws := s.draws + 1 }
  if ty = 0 then
    if beAt m 6 1 / 2 % 2 = 1 then
      let x : TcSync := { ident := slice m 20 10, seq := beAt m 30 2, at_ := s.raw, drawn := n, link := link }
      ({ used with time := { s.time with tcWait := fresh s.time.tcWait ++ [x] } }, fun _ f => f)
    else (used, fun q f => f.addCorrection off (residence n q + link))
  else if ty = 1 then (used, fun q f => f.addCorrection off (residence n q))
  else if ty = 8 then
    match (fresh s.time.tcWait).find? fun x => x.ident == slice m 20 10 && x.seq == beAt m 30 2 with
    | some x =>
      ({ s with time := { s.time with tcWait := (fresh s.time.tcWait).filter (· != x) } },
       fun q f => f.addCorrection off (residence x.drawn q + x.link))
    | none => (s.bump R.TIME_SAMPLES_REJECTED 1, fun _ f => f)
  else (s, fun _ f => f)

/-! ### Ingress -/

/-- The receive SA that a MACsec frame names, where it accepts the frame (R426). [DESIGN CHOICE, log entry 87] -/
def rxSa (s : State) (p : Nat) (t : Nat × Nat × Nat × Bool) : Option (Nat × Sa) :=
  s.net.sas.find? fun x =>
    x.2.rx && x.2.port == p && x.2.sci == t.1 && x.2.an == t.2.1 && t.2.2.2 && decide (x.2.pn ≤ t.2.2.1)

/-- A frame dropped by MACsec: counted, and logged at most once per second on its port (R427). -/
def macsecDrop (p : Nat) (s : State) : State :=
  let n := nth 0 s.net.dropsSince p + 1
  let s := s.bump R.NET_MACSEC_DROPS 1
  let due := match nth none s.net.dropLogged p with | none => true | some t => decide (t + rawUs 1000000 ≤ s.raw)
  if due then
    { s with net := { s.net with dropsSince := modNth (fun _ => 0) s.net.dropsSince p,
                                 dropLogged := modNth (fun _ => some s.raw) s.net.dropLogged p } }.raise srcNet
      Ev.NET_MACSEC_DROP p n
  else { s with net := { s.net with dropsSince := modNth (fun _ => n) s.net.dropsSince p } }

/-- MACsec at ingress: `none` when the frame is dropped; otherwise the receive SA it came under (128 for none).
[DESIGN CHOICE, log entry 87] -/
def unprotect (p : Nat) (f : RxFrame) (s : State) : Option (Nat × State) :=
  if s.regField (R.NET_PORT_CFG p) 7 6 = 0 then some (128, s)
  else match f.sec with
    | none => none
    | some t =>
      match s.rxSa p t with
      | none => none
      | some (i, a) =>
        let pn := max a.pn (t.2.2.1 + 1 - a.window)
        some (i, { s with net := { s.net with sas := tput s.net.sas i { a with pn := pn } } })

/-- The phases in which a group frame of a type may arrive; a segment without a bus cycle of its own allows each (R249,
R256, R258). [DEDUCED, log entry 93] -/
def groupPhase (ty : Nat) : BusPhase → Bool
  | .idle => true
  | .stage | .decided => ty == 0x11
  | .commit => ty == 0x13 || ty == 0x01
  | .service => ty == 0x01
  | .input | .inputDone => false

/-- A group frame of the station engine's other unit, verified under the segment key, with a sequence number above the
last one accepted (R258, R506, R510). [DEDUCED, log entry 93] -/
def verifyGroup (s : State) (k : Nat) (m : List Byte) : Bool :=
  let g := s.seg k
  let msg := m.take (16 + fieldAt m 2 2)
  let tag := slice m msg.length 8
  let ok (key : List Byte) (epoch : Nat) : Bool :=
    key != [] && fieldAt m 0xC 2 == epoch && tag == celkinTag key msg
  (ok g.key g.epoch && decide (g.peerSeq < fieldAt m 8 4)) || (match g.newKey with | some w => ok w.key w.epoch | none => false)

/-- A Celkin frame on a segment port goes to the station engine only (R254 to R258, R416). -/
def celkinFrame (k src : Nat) (m : List Byte) (s : State) : State :=
  let ty := fieldAt m 1 1
  let grp := ty = 0x01 ∨ ty = 0x11 ∨ ty = 0x13
  if grp then
    if frameOk k ty true m ∧ 12 ≤ fieldAt m 2 2 ∧ groupPhase ty (s.seg k).phase then
      if s.verifyGroup k m then
        let s := s.modSeg k fun g => if fieldAt m 0xC 2 = g.epoch then { g with peerSeq := fieldAt m 8 4 } else g
        s.observeClaim k (fieldAt (bodyOf m) 8 4) (ty == 0x13)
      else if s.segListens k then s.tagFail else s
    else if s.segListens k then s.badFrame else s
  else if ty = 0x02 then s.joinReq k src m
  else if ty = 0x04 then s.joinProof k m
  else if ty = 0x07 then s.configAck k m
  else if ty = 0x10 then s.inputFrame k m
  else if ty = 0x12 then s.stageAck k m
  else if s.segListens k then s.badFrame else s

/-- A frame that is bridged: VLAN check, learning, the endpoint, and every egress port (R417, R418).
[PRESUMED, log entry 86] -/
def bridge (p sa : Nat) (f : VFrame) (per : Nat → VFrame → VFrame) (s : State) : State :=
  match s.vlan f.vid with
  | none => s.dropFrame p
  | some v =>
    if !v.member.getLsbD p then s.dropFrame p
    else if 0x0180C2000000 ≤ f.dst ∧ f.dst ≤ 0x0180C200000F then s.learn p f
    else
      let s := s.learn p f
      let own := (s.egressPorts p f v).contains 20
      let s := s.bridgeOut p f v per
      if own then s.endpoint sa f v else s

/-- A frame that is no Celkin frame and has passed the port's checks: PTP of the configured domain is consumed, Pdelay
messages are answered, and everything else is bridged (R438, R440). -/
def plainFrame (p sa : Nat) (f : VFrame) (s : State) : State :=
  match f.ptpAt with
  | none => s.bridge p sa f fun _ g => g
  | some off =>
    let m := f.bytes.drop off
    let ty := beAt m 0 1 % 16
    let mine := s.regBit (R.NET_PORT_CFG p) 8 && beAt m 4 1 == s.ptpDomain
    if ty = 2 then s.answerDelay p (off == 14) m
    else if ty = 3 then s.pdelayResp p m
    else if ty = 10 then s
    else if mine then
      if ty = 11 then s.takeAnnounce p m else if ty = 1 then s.answerDelay p (off == 14) m else s
    else
      let (s, per) := s.transparent p off m
      s.bridge p sa f per

/-- A frame received on external port `p` (R416 to R429). [DEDUCED, log entry 85] -/
def portFrame (p : Nat) (f : RxFrame) (s : State) : State :=
  if !s.domOn 6 ∨ s.regField (R.NET_PORT_CFG p) 1 0 = 0 ∨ !s.regBit (R.NET_PORT_STATE p) 0 then s
  else
    let s := s.bump (R.NET_PORT_RX p) 1
    let s := { s with hlt := { s.hlt with bwRx := modNth (· + f.bytes.length) s.hlt.bwRx p } }
    if !f.fcsOk then (s.bump (R.NET_PORT_FCS_ERR p) 1).dropFrame p
    else match s.unprotect p f with
      | none => s.macsecDrop p
      | some (sa, s) =>
        let limit := if p < 16 then 1522 else 9022
        if limit < f.bytes.length + 4 ∨ f.bytes.length < 14 then s.dropFrame p
        else
          let ty := beAt f.bytes 12 2
          if ty = 0x8808 then s.dropFrame p
          else if ty = s.regField R.STN_ETHERTYPE 15 0 then
            if s.isSegment p then s.celkinFrame p (beAt f.bytes 6 6) (f.bytes.drop 14) else s.dropFrame p
          else if s.isSegment p ∧ (s.seg p).phase ≠ .service then s.dropFrame p
          else s.plainFrame p sa (VFrame.parse (s.regField (R.NET_PORT_CFG p) 23 12) f.bytes)

/-- The service window opens: ANNOUNCE and what waits for it, then the egress queues (R256, R263, R420). -/
def openService (k : Nat) (s : State) : State :=
  let was := (s.seg k).phase
  let s := s.serviceStart k
  if (s.seg k).phase = .service ∧ was ≠ .service then
    (s.modSeg k fun g => { g with lineFree := s.now }).drainPort k
  else s

end State

/-- PORT_FRAME_RECEIVED (R416 to R429). -/
def execPortFrameReceived (p : Fin 20) (frame : RxFrame) (s : State) : Res := .next (s.portFrame p frame).admitWaiting

/-- SERVICE_WINDOW_START (R263, R420). -/
def execServiceWindowStart (k : Fin 20) (s : State) : Res := .next (s.openService k)

end Sys2Proof.Machine
end

