-- ==== Sys2Proof/Machine/Power.lean ====
section
/-! DEFINITION. The switched power domains: enable, disable, their collisions, and what each block does with its domain
(spec 04, R147 to R150; R48, R619). -/

namespace Sys2Proof.Machine

/-- Maximum power-up time of a domain in ms (R150). -/
def powerUpMs (k : Nat) : Nat := nth 0 [1, 1, 2, 2, 2, 2, 5, 1, 5, 10, 15, 5] k

/-- The type Q crossings of a domain (R72). -/
def domCrossings (k : Nat) : List Nat := nth [] [[], [], [2], [3], [4], [5], [8, 9], [11], [10], [6], [1], [12]] k

namespace State

def modPwr (f : PwrSt → PwrSt) (s : State) : State := { s with pwr := f s.pwr }

/-- Moves domain `k` to a state and notes when (R148). -/
def setDom (k v : Nat) (s : State) : State :=
  (s.setRegField R.SYS_DOMAIN_STATE (2 * k + 1) (2 * k) v).modPwr fun p =>
    { p with changedAt := modNth (fun _ => s.raw) p.changedAt k }

/-- An enable of domain `k` is pending (R149). -/
def domPending (s : State) (k : Nat) : Bool := s.regBit R.SYS_DOMAIN_PENDING k

/-- Registers whose state lies in domain `k` are lost: they hold their reset values when it comes back (R47).
[DEDUCED, log entry 38] -/
def dropDomRegs (k : Nat) (s : State) : State :=
  { s with regs := s.regs.filter fun c => match regRow c.1 with | some (r, _, _) => r.dom != some k | none => true }

/-- A power-up begins; `pend` tells whether its enable was pending. -/
def domStart (k : Nat) (pend : Bool) (s : State) : State :=
  (s.setDom k 1).modPwr fun p => { p with pendingStart := setBit p.pendingStart k pend }

/-! ### What blocks do (R150) -/

/-- Before the isolation of PD_NET its segments are disabled; no enable of one stays pending.
[DEDUCED, log entry 41] -/
def netIsolate (s : State) : State :=
  (List.range 20).foldl (fun s k =>
    let s := s.setRegBit (R.STN_SEG_STATE k) 2 false
    if s.segState k = 0 ∨ s.segState k = 3 then s else s.segStop k) s

/-- PD_NET is off: links, learned addresses, queues and MACsec keys are lost. [DEDUCED, log entry 41] -/
def netGone (s : State) : State :=
  let s := (List.range 20).foldl (fun s k => (s.setRegBit (R.STN_SEG_STATE k) 2 false).segStopDone k) s
  { s with net := { NetSt.reset with dropLogged := s.net.dropLogged },
           host := { s.host with assocs := [] },
           time := { s.time with announces := [], tcWait := [] },
           hlt := { s.hlt with bwPartial := true } }

/-- PD_NET is ON: the station contexts have kept their content, and the segments that were last enabled start again (R29,
R248). [DEDUCED, log entry 39] -/
def netUp (s : State) : State :=
  (List.range 20).foldl (fun s k =>
    if bit s.nv.segOn k ∧ (s.segCfg k).isSome ∧ s.segState k = 0 then s.segStart k false else s) (s.rebind).countContexts

/-- The cores of a cluster lose their registers; what is on them does not go on. [DEDUCED, log entry 40] -/
def coresGone (cluster : Nat) (s : State) : State :=
  (List.range 8).foldl (fun s i => s.modCore (8 * cluster + i) fun c => CoreSt.empty c.phys) s

/-- Pulse outputs go low. -/
def pulsesLow (s : State) : State :=
  { s with met := { s.met with pulses := s.met.pulses.map fun (p : Pulse) => { p with phase := 0, until_ := 0 } } }

/-- The save of PD_MET at its shut-down (R397). -/
def metShutSave (s : State) : State :=
  let (s, made) := s.metSave 2
  if made then s.raise srcMet Ev.MET_SAVE (s.reg R.MET_SAVE_SEQ).toNat (s.reg R.MET_SAVE_US).toNat else s

/-- A bank of a descriptor version lies in DDR. [DEDUCED, log entry 42] -/
def bankInDdr (s : State) (slot ver bank : Nat) : Bool :=
  ((s.descVer slot ver).map fun v => decide (0x1000000000 ≤ dBank v.bytes bank)).getD false

/-- The use of DDR ends: running jobs on a bank there end as cancelled (R323), run-ahead work on one is squashed, DDR_READY
is 0. -/
def ddrIsolate (s : State) : State :=
  let s := (s.solv.jobs.filter fun x => x.2.state == 1 && s.bankInDdr x.2.slot x.2.ver x.2.bank).foldl
    (fun s x => s.cancelJob x.1) s
  let s := (s.solv.ahead.filter fun x => s.bankInDdr x.2.slot x.2.ver x.2.bank).foldl (fun s x => s.squash x.1) s
  let s := (s.setRegBit R.SYS_MEMCFG 16 false).modPwr fun p => { p with ddrZeroing := false, ddrWait := false }
  s.restoreDdr

/-- What is done before a domain is isolated. -/
def domIsolate (k : Nat) (s : State) : State :=
  if k < 2 then s
  else if k < 6 then s.engineDisable (k - 2)
  else
    match k with
    | 6 => s.netIsolate
    | 7 => ((List.range 4).foldl (fun s c =>
        let s := s.setRegBit (R.CAN_STATE c) 2 false
        if s.canState c = 0 ∨ s.canState c = 3 then s else s.canStop c) s).pulsesLow
    | 8 => s.metShutSave
    | 9 => s.keyDomainDown
    | 10 => s.ddrIsolate
    | 11 => if s.linkUpNow then s.linkGone 0 else s
    | _ => s

/-- What is lost with a domain: at the end of its shut-down, or when its rail fails. -/
def domGone (k : Nat) (s : State) : State :=
  let s :=
    if k < 2 then s.coresGone k
    else if k < 6 then s.engineDomainDown (k - 2)
    else
      match k with
      | 6 => s.netGone
      | 7 => ((List.range 4).foldl (fun s c => (s.setRegBit (R.CAN_STATE c) 2 false).canDown c) s).canDomainDown
      | 8 => s.metLost
      | 9 => s.keyDomainDown
      | 10 => s.clearMem 0x1000000000 0x1400000000
      | _ => s
  s.dropDomRegs k

/-- What a block does when its domain has reached ON. -/
def domUp (k : Nat) (s : State) : State :=
  if k < 2 then (List.range 8).foldl (fun s i => s.coreBringIn (8 * k + i)) s
  else if k < 6 then s.engineDomainUp (k - 2)
  else
    match k with
    | 6 => s.netUp
    | 7 => if s.phase = 4 then s.canDomainUp else s
    | 8 => s.metPowerUp
    | 9 => if s.phase = 6 then s else s.keyDomainUp
    | 10 => s.modPwr fun p => { p with ddrWait := true }
    | 11 => s.linkDomainUp
    | _ => s

/-! ### Switching -/

/-- A shut-down begins: the preparation, then STOPPING. -/
def domShut (k : Nat) (s : State) : State := (s.domIsolate k).setDom k 3

/-- Domain `k` reaches ON (R148, R149): with a disable waiting, its shut-down follows. -/
def domArriveOn (k : Nat) (s : State) : State :=
  if s.domState k ≠ 1 then s
  else
    let s := s.setDom k 2
    let s := s.raise srcPower Ev.SYS_DOMAIN_ON k (if bit s.pwr.pendingStart k then 1 else 0)
    let s := (s.modPwr fun p => { p with pendingStart := setBit p.pendingStart k false }).domUp k
    let s := s.completeWaiting (.domainOn k) .ok 0
    if bit s.pwr.disableWaiting k then
      (s.modPwr fun p => { p with disableWaiting := setBit p.disableWaiting k false }).domShut k
    else s

/-- A pending enable starts its power-up. -/
def domNext (k : Nat) (s : State) : State :=
  if s.domPending k then (s.setRegBit R.SYS_DOMAIN_PENDING k false).domStart k true else s

/-- Domain `k` reaches OFF, and a pending enable starts (R149). -/
def domArriveOff (k : Nat) (s : State) : State :=
  if s.domState k ≠ 3 then s
  else
    let s := ((s.domGone k).setDom k 0).raise srcPower Ev.SYS_DOMAIN_OFF k 0
    (s.completeWaiting (.domainOff k) .ok 0).domNext k

/-- The fault of a domain: OFF, its bit of SYS.DOMAIN_FAULT, and the event (R150, R619), with no EV_SYS_DOMAIN_OFF beside
it. [DESIGN CHOICE, log entry 148] -/
def domFault (k : Nat) (s : State) : State :=
  (((s.setDom k 0).setRegBit R.SYS_DOMAIN_FAULT k true).raise srcPower Ev.SYS_DOMAIN_FAULT k 0).alertUpdate

/-- Power-good has not come within twice the power-up time (R150). -/
def domTimeout (k : Nat) (s : State) : State :=
  if s.domState k ≠ 1 ∨ s.raw < nth 0 s.pwr.changedAt k + rawUs (2000 * powerUpMs k) then s
  else
    let s := s.modPwr fun p => { p with disableWaiting := setBit p.disableWaiting k false,
                                        pendingStart := setBit p.pendingStart k false }
    let s := s.domFault k
    let s := s.completeWaiting (.domainOn k) .domainOff k
    (s.completeWaiting (.domainOff k) .ok 0).domNext k

/-- The rail of a domain that is ON leaves its range (R619): a block reset of the domain at its crossings, with what
they discard, and OFF. [DEDUCED, log entry 40] -/
def domRailFault (k : Nat) (entries : List Nat) (trans : List (List (Nat × BitVec 40 × Bool))) (s : State) : State :=
  if !s.domOn k then s
  else
    let s := ((domCrossings k).mapIdx fun i n => (i, n)).foldl (fun s x =>
      s.blockReset x.2 (nth 0 entries x.1) (nth [] trans x.1)) s
    let s := if k = 6 then s.netIsolate else if k = 7 then s.pulsesLow else if k = 10 then s.ddrIsolate
      else if k = 11 ∧ s.linkUpNow then s.linkGone 0 else s
    let s := if k = 7 then (List.range 4).foldl (fun s c => if s.canState c = 0 then s else s.canStop c) s else s
    (s.domGone k).domFault k

/-! ### Commands -/

/-- SYS_DOMAIN_ENABLE (R147 to R149). -/
def domainEnable (c : Cmd) (s : State) : State × CmdEnd :=
  let k := c.p 0 4
  if 12 ≤ k then (s, .st .badParam)
  else
    match s.domState k with
    | 2 => (s, .st .ok)
    | 0 => (s.domStart k false, .later (.domainOn k))
    | st =>
      if st = 1 ∧ !bit s.pwr.disableWaiting k then (s, .later (.domainOn k))
      else (s.setRegBit R.SYS_DOMAIN_PENDING k true, .st .pending)

/-- What refuses a disable (R150). [DEDUCED, log entry 37] -/
def disableRefusal (s : State) (k : Nat) : Option CmdEnd :=
  if (k < 2 ∨ k = 6 ∨ k = 10) ∧ !s.stopped then some (.st .mode)
  else if k = 11 ∧ s.role ≠ 0 ∧ s.role ≠ 4 then some (.st .role)
  else none

/-- SYS_DOMAIN_DISABLE (R147 to R150). [DEDUCED, log entry 37] -/
def domainDisable (c : Cmd) (s : State) : State × CmdEnd :=
  let k := c.p 0 4
  if 12 ≤ k then (s, .st .badParam)
  else if s.domState k = 0 then (s, .st .ok)
  else
    match s.disableRefusal k with
    | some e => (s, e)
    | none =>
      let s := if s.domPending k then
          (s.setRegBit R.SYS_DOMAIN_PENDING k false).raise srcPower Ev.SYS_DOMAIN_ENABLE_CANCELLED k 0
        else s
      let s := match s.domState k with
        | 2 => s.domShut k
        | 1 => s.modPwr fun p => { p with disableWaiting := setBit p.disableWaiting k true }
        | _ => s
      (s, .later (.domainOff k))

/-- SYS_DOMAIN_STATUS (R151). -/
def domainStatus (c : Cmd) (s : State) : State × CmdEnd :=
  let w (a : Nat) : List Byte := leBytes 4 (s.reg a).toNat
  (s, replyOr c (w R.SYS_DOMAIN_STATE ++ w R.SYS_DOMAIN_PENDING ++ w R.SYS_DOMAIN_FAULT))

end State

def execSysDomainEnable (id : Nat) (s : State) : Res := hostRow Op.SYS_DOMAIN_ENABLE id State.domainEnable s
def execSysDomainDisable (id : Nat) (s : State) : Res := hostRow Op.SYS_DOMAIN_DISABLE id State.domainDisable s
def execSysDomainStatus (id : Nat) (s : State) : Res := hostRow Op.SYS_DOMAIN_STATUS id State.domainStatus s

/-- DOMAIN_SHUTDOWN_DONE. -/
def execDomainShutdownDone (k : Fin 12) (s : State) : Res := .next (s.domArriveOff k).admitWaiting

end Sys2Proof.Machine
end

