-- ==== Sys2Proof/Machine/Recorder.lean ====
section
/-! DEFINITION. The event recorder: from the queue to the log, the full log, freezing, reading and clearing (spec 16). -/

namespace Sys2Proof.Machine

/-- Slots of the log (R566). -/
abbrev logSlots : Nat := 32768

/-- The distance of a sequence from the newest, modulo 2^32 (R566). -/
def seqAge (newest seq : Word) : Nat := (newest - seq).toNat

/-- Inserts into a list kept in the order of `lt`. -/
def insertBy {α : Type} (lt : α → α → Bool) (x : α) : List α → List α
  | [] => [x]
  | y :: ys => if lt x y then x :: y :: ys else y :: insertBy lt x ys

/-- Sorts by `lt`, keeping the order of equals. -/
def sortBy {α : Type} (lt : α → α → Bool) (l : List α) : List α := l.foldl (fun acc x => insertBy lt x acc) []

namespace State

def modEvr (f : EvrSt → EvrSt) (s : State) : State := { s with evr := f s.evr }

/-- The log holds 32,768 records. -/
def logFull (s : State) : Bool := decide (logSlots ≤ s.evr.log.length)

/-- The oldest of some records. -/
def oldestOf (newest : Word) (l : List (Nat × LogRec)) : Option (Nat × LogRec) :=
  l.foldl (fun m x =>
    match m with
    | none => some x
    | some y => if seqAge newest y.2.seq < seqAge newest x.2.seq then some x else m) none

/-- The EV_LOG_CLEARED record in force: the newest one (R576, R582). -/
def clearedSlot (s : State) : Option Nat :=
  ((s.evr.log.filter fun x => x.2.ev.code.toNat == Ev.LOG_CLEARED).foldl (fun (m : Option (Nat × LogRec)) x =>
    match m with
    | none => some x
    | some y =>
      if seqAge (s.reg R.EVR_SEQ_NEWEST) x.2.seq < seqAge (s.reg R.EVR_SEQ_NEWEST) y.2.seq then some x else m) none).map (·.1)

/-- The record that a new one of severity `sev` replaces in a full log (R575, R576). -/
def victim (s : State) (sev : Nat) : Option (Nat × LogRec) :=
  let keep := s.clearedSlot
  let l := s.evr.log.filter fun x => some x.1 != keep
  let low := l.foldl (fun m x => min m x.2.ev.sev) 8
  if low ≤ sev then oldestOf (s.reg R.EVR_SEQ_NEWEST) (l.filter fun x => x.2.ev.sev == low) else none

/-- The slot of a record that replaces none. -/
def freeSlot (s : State) : Nat :=
  if (tget s.evr.log s.evr.writePos).isNone then s.evr.writePos
  else ((List.range logSlots).find? fun i => (tget s.evr.log i).isNone).getD 0

/-- Writes a record into a slot: every byte, then the sequence; a sector that fails its read-back is spared
(R573, R597). -/
def writeRecord (slot : Nat) (e : QEntry) (good : Bool) (s : State) : State :=
  let seq := s.reg R.EVR_SEQ_NEWEST + 1
  let s := s.modEvr fun v => { v with log := tput v.log slot ⟨e, seq⟩, writePos := (slot + 1) % logSlots }
  let s := s.setReg R.EVR_SEQ_NEWEST seq
  let s := s.perfCount 0x60 0
  let s := if good then s else s.sectorSpare (0x3180000 + 32 * slot)
  if s.regField R.EVR_CONFIG 23 20 ≤ e.sev then s.notify 16 else s

/-- Adds a record under the policy of a full log (R575). [DEDUCED, log entry 123] -/
def addRecord (e : QEntry) (good : Bool) (s : State) : State :=
  if !s.logFull then s.writeRecord s.freeSlot e good
  else if !s.regBit R.EVR_CONFIG 24 then s.bump R.EVR_DROPPED 1
  else match s.victim e.sev with
    | some (slot, _) => (s.writeRecord slot (e.withFlag 5) good).bump R.EVR_OVERWRITES 1
    | none => s.bump R.EVR_DROPPED 1

/-- A record of the recorder itself, stamped now (R567, R585). [DEDUCED, log entry 123] -/
def ownEntry (s : State) (code a b : Nat) : QEntry :=
  let unlocked := s.regField R.TIME_STATE 1 0 != 2
  { stamp := s.now, code := BitVec.ofNat 16 code, source := BitVec.ofNat 8 srcEvr,
    sevFlags := setBit (BitVec.ofNat 8 (severity code)) 3 unlocked, rep := 0, a := BitVec.ofNat 32 a, b := BitVec.ofNat 32 b,
    alone := false }

/-- EVENT_RECORD_WRITE: EV_EVENTS_LOST first, then the recorder's own records, then the queue (R571 to R573, R577).
[DEDUCED, log entry 124] -/
def recordWrite (good : Bool) (s : State) : State :=
  if !s.logWritable then s
  else if s.reg R.EVR_LOST_PENDING ≠ 0 then
    let e := s.ownEntry Ev.EVENTS_LOST (s.reg R.EVR_LOST_PENDING).toNat (s.evr.firstLost.getD 0 / 2 ^ 32)
    ((s.setReg R.EVR_LOST_PENDING 0).modEvr fun v => { v with firstLost := none }).addRecord e good
  else match s.evr.own with
    | (code, a, b) :: rest => (s.modEvr fun v => { v with own := rest }).addRecord (s.ownEntry code a b) good
    | [] =>
      match s.evr.queue with
      | [] => s
      | e :: rest =>
        let s := s.modEvr fun v => { v with queue := rest }
        match s.newestRec with
        | some (slot, r) =>
          if e.mergesInto r.ev s.repeatWindow then s.mergeNewest slot (e.rep.toNat + 1) else s.addRecord e good
        | none => s.addRecord e good

/-- The freeze ends (R577): 0 by command, 1 at the limit. -/
def thaw (cause : Nat) (s : State) : State :=
  (s.setRegField R.EVR_STATUS 1 0 0).modEvr fun v => { v with own := v.own ++ [(Ev.EVR_THAWED, 0, cause)] }

/-- The freeze reaches its limit. -/
def freezeLimit (s : State) : State := if s.frozen ∧ s.evr.freezeEnd ≤ s.raw then s.thaw 1 else s

/-- An EVR register as it reads: what follows from the log and the queue is computed. [DEDUCED, log entry 124] -/
def evrWord (s : State) (a : Nat) : Word :=
  if a = R.EVR_STATUS then setBit (setBit (s.reg a) 2 s.logFull) 3 s.pwr.feramHold
  else if a = R.EVR_RECORDS then BitVec.ofNat 32 s.evr.log.length
  else if a = R.EVR_SEQ_OLDEST then
    match oldestOf (s.reg R.EVR_SEQ_NEWEST) s.evr.log with | some x => x.2.seq | none => 0
  else if a = R.EVR_QUEUE then BitVec.ofNat 32 s.evr.queue.length
  else if a = R.EVR_FREEZE_LEFT then
    BitVec.ofNat 32 (if s.frozen then (s.evr.freezeEnd - s.raw + 249999) / 250000 else 0)
  else s.reg a

/-! ### Restore (R138 order 4, R582) -/

/-- The record with the highest sequence. -/
def newestOf (l : List (Nat × LogRec)) : Option (Nat × LogRec) :=
  l.foldl (fun m x =>
    match m with
    | none => some x
    | some y => if (x.2.seq - y.2.seq).toNat < 2 ^ 31 then some x else m) none

/-- Order 4: records with a bad CRC are skipped and counted, records before the newest EV_LOG_CLEARED are zeroed, and the
write position follows the newest record. -/
def evrRestore (bad : List Nat) (s : State) : State :=
  let n := (s.evr.log.filter fun x => bad.contains x.1).length
  let good := s.evr.log.filter fun x => !bad.contains x.1
  let newest := newestOf good
  let seq := match newest with | some x => x.2.seq | none => 0
  let s := (s.modEvr fun v => { v with log := good }).setReg R.EVR_SEQ_NEWEST seq
  let cleared := match s.clearedSlot with
    | some c => (tget good c).map (·.seq)
    | none => none
  let log := match cleared with
    | some q => good.filter fun x => decide (seqAge seq x.2.seq ≤ seqAge seq q)
    | none => good
  let pos := match newest with | some x => (x.1 + 1) % logSlots | none => 0
  let s := s.modEvr fun v => { v with log := log, writePos := pos, restored := true }
  if n = 0 then s else (s.setRegBit R.SYS_BOOT_STATUS 9 true).raise srcMgt Ev.SYS_LOG_REPAIRED n 0

/-! ### Commands (R577 to R584) -/

/-- The bytes of records. -/
def recordsBytes (l : List LogRec) : List Byte := (l.map recordBytes).flatten

/-- EVR_READ_SEQ (R578). -/
def evrReadSeq (c : Cmd) (s : State) : State × CmdEnd :=
  let count := c.p 4 4
  if count = 0 ∨ 2047 < count then (s, .st .badParam 4)
  else
    let first : Word := if c.p 0 4 = 0xFFFFFFFF then s.evrWord R.EVR_SEQ_OLDEST else BitVec.ofNat 32 (c.p 0 4)
    let hit := (s.evr.log.map (·.2)).filter fun r => decide ((r.seq - first).toNat < count)
    if hit.isEmpty then (s, .st .recordNone)
    else (s, replyOr c (recordsBytes (sortBy (fun a b => decide ((a.seq - first).toNat < (b.seq - first).toNat)) hit)))

/-- EVR_READ_TIME (R579). -/
def evrReadTime (c : Cmd) (s : State) : State × CmdEnd :=
  let t0 := instantOf c.params
  let t1 := instantOf (c.params.drop 0xC)
  let count := c.p 0x18 4
  match firstBad [(decide (t1 ≤ t0), 0xC), (decide (count = 0 ∨ 2047 < count), 0x18), (decide (1 < c.p 0x1C 4), 0x1C)] with
  | some off => (s, .st .badParam off)
  | none =>
    let newest := s.reg R.EVR_SEQ_NEWEST
    let lt (a b : LogRec) : Bool :=
      decide (a.ev.stamp < b.ev.stamp) || (a.ev.stamp == b.ev.stamp && decide (seqAge newest b.seq < seqAge newest a.seq))
    let hit := sortBy lt ((s.evr.log.map (·.2)).filter fun r => decide (t0 ≤ r.ev.stamp ∧ r.ev.stamp < t1))
    let send (l : List LogRec) : State × CmdEnd :=
      if l.isEmpty then (s, .st .recordNone) else (s, replyOr c (recordsBytes (l.take count)))
    if c.p 0x1C 4 = 0 then send hit
    else match hit.find? fun r => r.seq.toNat == c.p 0x20 4 with
      | none => (s, .st .badParam 0x20)
      | some r => send (hit.filter fun x => lt r x)

/-- EVR_FREEZE (R577): the limit runs from the command's arrival. -/
def evrFreeze (c : Cmd) (s : State) : State × CmdEnd :=
  let limit := c.p 0 4
  if 5000 < limit then (s, .st .badParam 0)
  else if s.frozen then (s, .st .logFrozen)
  else
    let past := (s.now - c.arrival) * 250000000 / 2 ^ 32
    let stop := s.raw + rawUs (1000 * (if limit = 0 then 5000 else limit)) - past
    let seq := (s.reg R.EVR_SEQ_NEWEST).toNat
    ((s.setRegField R.EVR_STATUS 1 0 1).modEvr fun v => { v with freezeEnd := stop }, .st .ok (seq % 65536) (seq / 65536))

/-- EVR_THAW. -/
def evrThaw (_ : Cmd) (s : State) : State × CmdEnd := (if s.frozen then s.thaw 0 else s, .st .ok)

/-- Writes records until nothing waits. [DEDUCED, log entry 124] -/
def writeAll : Nat → State → State
  | 0, s => s
  | fuel + 1, s => writeAll fuel (s.recordWrite true)

/-- EVR_CLEAR (R581). [DEDUCED, log entry 124] -/
def evrClear (c : Cmd) (s : State) : State × CmdEnd :=
  if s.frozen then (s, .st .logFrozen)
  else feramGate s <|
    let e := s.ownEntry Ev.LOG_CLEARED c.authSlot (s.reg R.EVR_SEQ_NEWEST).toNat
    let s := (s.modEvr fun v => { v with log := [] }).writeRecord 0 e true
    (writeAll (s.evr.queue.length + s.evr.own.length + 1) s, .st .ok)

/-- EVR_CONFIG. [DEDUCED, log entry 125] -/
def evrConfig (c : Cmd) (s : State) : State × CmdEnd :=
  match firstBad [(decide (1 < c.p 0 1), 0), (decide (8 < c.p 1 1), 1), (decide (60000 < c.p 2 2), 2), (decide (7 < c.p 4 1), 4),
      (decide (c.p 5 3 ≠ 0), 5)] with
  | some off => (s, .st .badParam off)
  | none => feramGate s <|
    let w := c.p 2 2 + 2 ^ 16 * c.p 4 1 + 2 ^ 20 * c.p 1 1 + 2 ^ 24 * c.p 0 1
    let s := (s.setReg R.EVR_CONFIG (BitVec.ofNat 32 w)).nvReg R.EVR_CONFIG
    (s.raise srcEvr Ev.EVR_CONFIG w 0, .st .ok)

/-- EVR_STATUS. -/
def evrStatus (c : Cmd) (s : State) : State × CmdEnd :=
  (s, replyOr c (((List.range 13).map fun i => leBytes 4 (s.evrWord (R.EVR_STATUS + 4 * i)).toNat).flatten))

/-- EVENT_RAISED: a block raises an event of the tables (R568 to R572). -/
def eventRaised (src code a b : Nat) (s : State) : State :=
  if severity code = 0 ∨ (0xB10 ≤ code ∧ code ≤ 0xB12) then s else s.raise src code a b

end State

def execEvrReadSeq (id : Nat) (s : State) : Res := hostRow Op.EVR_READ_SEQ id State.evrReadSeq s
def execEvrReadTime (id : Nat) (s : State) : Res := hostRow Op.EVR_READ_TIME id State.evrReadTime s
def execEvrFreeze (id : Nat) (s : State) : Res := hostRow Op.EVR_FREEZE id State.evrFreeze s
def execEvrThaw (id : Nat) (s : State) : Res := hostRow Op.EVR_THAW id State.evrThaw s
def execEvrClear (id : Nat) (s : State) : Res := hostRow Op.EVR_CLEAR id State.evrClear s
def execEvrConfig (id : Nat) (s : State) : Res := hostRow Op.EVR_CONFIG id State.evrConfig s
def execEvrStatus (id : Nat) (s : State) : Res := hostRow Op.EVR_STATUS id State.evrStatus s
def execEventRaised (src : Fin 48) (code : BitVec 16) (a b : Word) (s : State) : Res :=
  .next (s.eventRaised src code.toNat a.toNat b.toNat)
def execEventRecordWrite (good : Bool) (s : State) : Res := .next (s.recordWrite good)
def execFreezeLimitExpiry (s : State) : Res := .next s.freezeLimit

end Sys2Proof.Machine
end

