-- ==== Sys2Proof/Machine/Boot.lean ====
section
/-! DEFINITION. Supplies, resets and the start-up path (spec 04, R125 to R146; R432, R455, R619, R622, R632). -/

namespace Sys2Proof

/-- The persistent configuration block that M2 is extended by (R137): the spec gives it no layout.
[DESIGN CHOICE, log entry 15] -/
opaque Config.configBlock : Machine.Nv → List Byte

namespace Machine

/-! ### Firmware banks (R131 to R135) -/

/-- Flash base of a bank. -/
def bankBase (b : Nat) : Nat := b * 0x1000000

namespace State

/-- The header of a bank: its first 0x110 bytes. -/
def bankHeader (s : State) (b : Nat) : List Byte := s.flashBytes (bankBase b) 0x110

/-- The lowest security version accepted (R135). -/
def minSvn (s : State) : Nat := max (Config.fuseMinSvn % 65) s.pwr.minSvn

end State

/-- Check 1 of R133: magic, header version and reserved bytes. -/
def headerOk (h : List Byte) : Bool :=
  fieldAt h 0 4 == 0x57465A47 && fieldAt h 4 2 == 1 && fieldAt h 7 1 == 0 && allZero (slice h 0x14 12)

/-- Firmware version and security version of a header. -/
def headerVersion (h : List Byte) : Nat := fieldAt h 8 4
def headerSvn (h : List Byte) : Nat := fieldAt h 0xC 4

/-- The image length of a header lies in the range of R132. [DEDUCED, log entry 44] -/
def imageLenOk (n : Nat) : Bool := decide (4096 ≤ n ∧ n ≤ 16773120 ∧ n % 4096 = 0)

/-- The checks of R133 over a header and the image read from flash: the first that fails. A security version above 64
passes check 3. [DEDUCED, log entries 44, 147] -/
def bankCheck (minSvn revoked : Nat) (h image : List Byte) : Option Nat :=
  let key := fieldAt h 6 1
  let pub := slice h 0x50 96
  if !headerOk h then some 1
  else if 3 < key ∨ revoked / 2 ^ key % 2 = 1 ∨ Config.sha384 pub ≠ Config.fuseKeyHash key then some 2
  else if headerSvn h < minSvn then some 3
  else if !Config.ecdsaVerify pub (Config.sha384 (h.take 0xB0)) (slice h 0xB0 96) then some 4
  else if !imageLenOk (fieldAt h 0x10 4) ∨ Config.sha384 image ≠ slice h 0x20 48 then some 5
  else none

namespace State

/-- The first check of R133 that a bank fails against the fuses now in force. [DEDUCED, log entry 44] -/
def bankFault (s : State) (b : Nat) : Option Nat :=
  let h := s.bankHeader b
  bankCheck s.minSvn Config.fuseRevoked h (s.flashBytes (bankBase b + 0x1000) (min (fieldAt h 0x10 4) 16773120))

/-- Extends measurement `i` by a digest (R137). -/
def extendDigest (i : Nat) (d : List Byte) (s : State) : State :=
  s.modPwr fun p => { p with meas := modNth (fun m => Config.sha384 (m ++ d)) p.meas i }

def setPhase (v : Nat) (s : State) : State := s.setRegField R.SYS_BOOT_STATUS 3 0 v

/-- A new session number, never 0 (R89). [DESIGN CHOICE, log entry 7] -/
def newSession (s : State) : State :=
  let (v, s) := s.draw 60
  s.setReg R.CMD_SESSION (BitVec.ofNat 32 (v % (2 ^ 32 - 1) + 1))

/-! ### Resets (R143, R146) -/

/-- The registers that a power-on, external or device reset keeps: those of PD_BAT, and SYS.LOCK except at power-on. -/
def keptRegs (por : Bool) (regs : List (Nat × Word)) : List (Nat × Word) :=
  regs.filter fun c =>
    (match regRow c.1 with | some (r, _, _) => r.bat | none => false) || (!por && c.1 == R.SYS_LOCK)

/-- SYS.RESET_CAUSE after a reset of a kind (R151). -/
def causeAfter (old : Word) (por : Bool) (bit : Nat) : Word := if por then 1 else setBit old bit true

/-- A record write that a reset cuts off leaves its copy with open contents (R389).
[DEDUCED, log entry 48; DESIGN CHOICE, log entry 84] -/
def tearRecords (s : State) : State :=
  s.met.chs.foldl (fun s x =>
    match x.2.writing with
    | some (c, bytes) => let (b, s) := s.drawBytes bytes.length; s.setBytes (metRec x.1 c) b
    | none => s) s

/-- A power-on reset (`por`), or an external or device reset with its bit of SYS.RESET_CAUSE.
[DEDUCED, log entry 48] -/
def coldReset (por : Bool) (cause : Nat) (s : State) : State :=
  let s := s.tearRecords
  let regs := keptRegs por s.regs
  let s' : State :=
    { s with
      regs := regs
      mem := s.mem.filter fun c => decide (0x3100000 ≤ c.1 ∧ c.1 < 0x3300000)
      poison := [], weak := []
      host := HostSt.reset
      evr := { EvrSt.reset with log := s.evr.log }
      pwr := { PwrSt.reset with main := s.pwr.main, pfwLow := s.pwr.pfwLow, feramHold := !por && s.pwr.feramHold,
                                inReset := s.pwr.inReset, powerOn := por, minSvn := s.pwr.minSvn }
      xing := { XingSt.reset with pins := s.xing.pins }
      net := NetSt.reset
      time := { TimeSt.reset with tb := s.rtc.count * 2 ^ 32 }
      rtc := { s.rtc with pend := [] }
      key := { s.key with slots := [], purged := false, trngRun := 0 }
      cores := coresReset
      cyc := CycSt.reset
      stn := StnSt.reset
      met := MetSt.reset
      solv := SolvSt.reset
      can := CanSt.reset
      red := RedSt.reset
      hlt := HltSt.reset
      nvNext := s.nv }
  s'.setReg R.SYS_RESET_CAUSE (causeAfter (s.reg R.SYS_RESET_CAUSE) por cause)

/-- The supplies are in range and no reset is asserted. -/
def powered (s : State) : Bool := s.pwr.main && !s.pwr.inReset

/-- VDD_CORE_FALL: the power-on reset asserts (R619); `torn` names a key-bank update that it cuts off (R552).
[DEDUCED, log entry 48] -/
def vddFall (torn : Option (Nat × Nat)) (s : State) : State :=
  if !s.pwr.main then s
  else
    let s := match torn with | some (slot, op) => s.bankTorn slot op | none => s
    (s.coldReset true 0).modPwr fun p => { p with main := false, inReset := true, pfwLow := true }

/-- RESET_N_LOW: an external reset (R622). [DEDUCED, log entry 49] -/
def resetN (s : State) : State :=
  if !s.pwr.main then s else (s.coldReset false 1).modPwr fun p => { p with inReset := true }

/-- THERMAL_RESET: a power-on reset, held until the junction has cooled (R632). [DEDUCED, log entry 49] -/
def thermalReset (s : State) : State :=
  if !s.powered then s else (s.coldReset true 0).modPwr fun p => { p with inReset := true }

/-- POWER_ON_RESET: the reset releases: t0 of R129, with the raw count 0 and device time from the RTC (R430, R433).
[DEDUCED, log entry 49] -/
def resetRelease (s : State) : State :=
  if !s.pwr.inReset then s
  else
    { s with time := { TimeSt.reset with tb := s.rtc.count * 2 ^ 32 } }.modPwr fun p =>
      { p with main := true, inReset := false, changedAt := List.replicate 12 0 }

/-- A device reset with its cause bit. -/
def deviceReset (cause : Nat) (s : State) : State := s.coldReset false cause

/-- DEVICE_RESET: 1 ms after the status of SYS_RESET kind 1; the ledger is written first (R144, R588).
[DEDUCED, log entry 51] -/
def deviceResetDue (s : State) : State :=
  match s.pwr.resetDue with
  | some (t, 1) => if t ≤ s.raw ∧ !s.pwr.resetWaits then s.ledgerWrite.deviceReset 2 else s
  | _ => s

/-! ### Management-core resets (R97, R145) -/

/-- Ring commands in flight end with ST_ABORTED where a status entry can be written, which takes Bus Master Enable
(R95); every other command is lost (R97). [DEDUCED, log entry 36] -/
def abortInflight (s : State) : State :=
  let s := s.host.inflight.foldl (fun s x =>
    if s.host.bme && x.2.fromRing then s.completeNow x.1 .aborted 0 0 [] else s) s
  { s with host := { s.host with inflight := [], ended := [], datagrams := [] } }

/-- Every ring is DISABLED with a cause. [DEDUCED, log entry 36] -/
def disableRings (cause : Nat) (s : State) : State :=
  (List.range 16).foldl (fun s n =>
    (s.setReg (R.CMD_RING_STATUS n) (BitVec.ofNat 32 (16 * cause))).setRegBit (R.CMD_RING_CFG n) 0 false) s

/-- A management-core reset with its bit of SYS.RESET_CAUSE; the third within 600 s is a device reset instead.
[DEDUCED, log entries 36, 50] -/
def mgtReset (cause : Nat) (s : State) : State :=
  let recent := s.pwr.mgtResets.filter fun t => decide (s.raw < t + rawUs 600000000)
  if 2 ≤ recent.length then s.deviceReset 3
  else
    let s := s.abortInflight.modPwr fun p => { p with
      mgtResets := recent ++ [s.raw], resetDue := none, resetWaits := false, fwWrite := none }
    let s := ({ s with cyc := { s.cyc with load := none, changeLoad := none } }).modSolv fun x => { x with load := none }
    let s := (s.disableRings 4).newSession
    (s.setRegBit R.SYS_RESET_CAUSE cause true).raise srcSup Ev.SYS_MGT_RESET cause 0

/-- MANAGEMENT_CORE_RESET: 1 ms after the status of SYS_RESET kind 2 (R144). -/
def mgtResetDue (s : State) : State :=
  match s.pwr.resetDue with
  | some (t, 2) => if t ≤ s.raw ∧ !s.pwr.resetWaits then s.mgtReset 4 else s
  | _ => s

/-- MGT_WATCHDOG_EXPIRY: 100 ms without a feed (R143). -/
def mgtWatchdog (s : State) : State := if s.powered ∧ s.pwr.mgtRuns then s.mgtReset 5 else s

/-! ### FeRAM restore (R138, R139) -/

/-- Each logical core whose core is recorded as retired gets its cluster's spare. -/
def restoreCores (s : State) : State :=
  (List.range 16).foldl (fun s l =>
    let p := (s.core l).phys
    if s.hlt.maps.retired.contains p then s.setCore l (CoreSt.empty (spareCore (coreCluster p))) else s) s

/-- The health ledger and the spare maps; a power-on reset counts (R587, R632).
[DESIGN CHOICE, log entry 9; DEDUCED, log entry 46] -/
def restoreLedger (bad : Bool) (s : State) : State :=
  let l := s.nvNext.ledger
  let l := if s.pwr.powerOn then { l with cycles := l.cycles + 1 } else l
  let s := s.updNv fun n => { n with ledger := l }
  ({ s with hlt := { s.hlt with ledger := l, maps := s.nvNext.maps, fromDefault := bad } }).hltShow.restoreCores

/-- Segment parameters and station contexts (R248). [DEDUCED, log entry 39] -/
def restoreStations (s : State) : State :=
  let s := s.nvNext.segs.foldl (fun s x =>
    ((s.setReg (R.STN_SEG_MIN_CYCLE x.1) (BitVec.ofNat 32 (minCycleUs x.1 x.2))).setReg (R.STN_SEG_STAGE_WIN x.1)
      (BitVec.ofNat 32 (stageWinNs x.1 x.2 / 1000))).setReg (R.STN_SEG_DMAX x.1) (BitVec.ofNat 32 x.2.dmax)) s
  s.nvNext.adms.foldl (fun s x => { s with stn := { s.stn with ctxs := tput s.stn.ctxs x.1 (s.newCtx x.2) } }) s

/-- Order 1 of R138: the persistent configuration, or defaults where neither copy is valid. -/
def restoreConfig (bad : Bool) (s : State) : State :=
  let s : State :=
    if bad then
      let n := Nv.reset
      ((({ s with nv := n, nvNext := n }).setRegBit R.SYS_BOOT_STATUS 7 true).setRegBit R.RED_ROLE 10 true).raise srcMgt
        Ev.SYS_CONFIG_DEFAULT 0 0
    else s
  let s := s.nvNext.regs.foldl (fun s x => s.setReg x.1 x.2) s
  let s := s.seeClaim (s.reg R.RED_CLAIM).toNat
  let s := { s with time := { s.time with cfg := s.nvNext.ptp, onRef := s.regField R.TIME_CFG 6 5 == 1 } }
  let s := (s.restoreLedger bad).modSolv fun x => { x with lanes := s.nvNext.lanes }
  let s := (List.range 4).foldl (fun s e => s.laneShow e) s
  (s.restoreStations).extendMeas 2 (Config.configBlock s.nvNext)

/-- Events of the time without main supply, with the time at which they occurred (R455, R469, R556). -/
def restoreBattery (s : State) : State :=
  let s := s.rtc.unlogged.foldl (fun s x => s.raiseAt x.1 srcRtc x.2.1 x.2.2.1 x.2.2.2) s
  (s.modRtc fun r => { r with unlogged := [] }).tamperUnlogged

/-- Step 5 of R129: orders 1 to 4. -/
def restoreFeram (bad : Bool) (badLog : List Nat) (s : State) : State :=
  let s := (s.restoreConfig bad).keyRestore
  let s := s.metRestore
  let s := { s with met := { s.met with restored := true } }
  (s.restoreBattery).evrRestore badLog

/-! ### The program at start-up (R141, R236) -/

/-- Places the program of the active slot when its image passes; the second part tells whether it does.
[DEDUCED, log entry 43] -/
def bootProgram (s : State) : State × Bool :=
  let img := s.slotImage s.nv.activeSlot
  match imageFault s.imageEnv img with
  | some _ => (s.restoreDescs.solvShow, false)
  | none =>
    let s := ((s.placeProgram img).offlineSegs).restoreDescs
    (((s.setRegBit R.CYC_MODE 3 true).rebind).rebindDescs.solvShow, true)

/-- The root secret is missing or purged: KEY.STATUS.STATE is TAMPERED (R557, R558). -/
def tampered (s : State) : Bool := s.key.root.isNone || s.key.purged

/-- Parameter B of EV_SYS_START (R141). [DEDUCED, log entry 51] -/
def startParam (s : State) (placed : Bool) : Nat :=
  if !bit s.pwr.startCfg 12 then 0
  else if !placed then 1
  else if s.tampered then 2
  else
    match s.startRefusal with
    | some (.done .badParam _ _ _) => 3
    | _ => 0

/-- Step 7 of R129: READY; whether AUTOSTART is to act stands from here (R141). [DEDUCED, log entry 43] -/
def bootReady (s : State) : State :=
  let (s, placed) := s.bootProgram
  let s := (s.setPhase 5).newSession
  let svn := headerSvn (s.bankHeader (s.regField R.SYS_BOOT_STATUS 4 4))
  let s := s.modPwr fun p => { p with mgtRuns := true, minSvn := if s.minSvn < svn then svn else p.minSvn }
  let b := s.startParam placed
  let s := { s with cyc := { s.cyc with autostart := bit s.pwr.startCfg 12 && placed && b == 0 } }
  (s.raise srcMgt Ev.SYS_START (s.reg R.SYS_RESET_CAUSE).toNat b).alertUpdate

/-- The domains of step 6: DOMAIN_MASK, and PD_LINK in a pair (R501). -/
def bootDomains (s : State) : List Nat :=
  (List.range 12).filter fun k => bit s.pwr.startCfg k || (k == 11 && s.paired)

/-- Step 6 ends when none of its domains is STARTING and DDR training, where PD_DDR is ON, has ended.
[DEDUCED, log entry 43] -/
def bootCheck (s : State) : State :=
  if s.phase = 4 ∧ (s.bootDomains.all fun k => s.domState k != 1) ∧ !s.pwr.ddrWait then s.bootReady else s

/-- Steps 5 and 6 of R129 with the bank that runs. [DEDUCED, log entry 46] -/
def bootRun (bank : Nat) (bad : Bool) (badLog : List Nat) (s : State) : State :=
  let h := s.bankHeader bank
  let s := (s.extendMeas 0 Config.fuseRecord).extendMeas 0 (h.take 0xB0)
  let s := s.extendDigest 1 (slice h 0x20 48)
  let s := (s.setRegField R.SYS_BOOT_STATUS 4 4 bank).setReg R.SYS_FW_VERSION (BitVec.ofNat 32 (headerVersion h))
  let s := (s.setPhase 3).restoreFeram bad badLog
  let s := (s.setPhase 4).modPwr fun p => { p with startCfg := s.reg R.SYS_START_CFG }
  let s := s.bootDomains.foldl (fun s k => s.domStart k false) s
  (s.roleDecision).bootCheck

/-- Both banks fail: RECOVERY, with ring 0 and PD_SEC (R136). [DEDUCED, log entry 45] -/
def bootRecovery (s : State) : State :=
  (((s.setPhase 6).newSession.modPwr fun p => { p with mgtRuns := true }).domStart 9 false).alertUpdate

/-- PFW_N_HIGH_1MS: the boot ROM goes on from step 3 (R126, R129, R130, R134): `flash` is the flash size in 16 MiB,
`bad` tells that neither copy of the configuration is valid, `badLog` names the log slots with a bad CRC.
[DEDUCED, log entry 44] -/
def bootRom (flash : Nat) (bad : Bool) (badLog : List Nat) (s : State) : State :=
  if s.phase ≠ 0 ∨ !s.powered then s
  else
    let s := (s.modPwr fun p => { p with pfwLow := false }).setPhase 1
    let s := s.setRegField R.SYS_MEMCFG 12 8 flash
    let s := s.setRegBit R.KEY_STATUS 4 true
    let s := if s.key.root.isSome ∨ s.rootDeferred then s else s.newRoot
    let s := s.setPhase 2
    let first := if bad then 0 else s.nv.bootSel.getD 0
    match s.bankFault first with
    | none => s.bootRun first bad badLog
    | some k =>
      let other := 1 - first
      match s.bankFault other with
      | none =>
        ((s.setRegBit R.SYS_BOOT_STATUS 5 true).raise srcMgt Ev.SYS_FW_FALLBACK first k).bootRun other bad badLog
      | some _ => s.bootRecovery

/-! ### DDR (R36, R142) -/

/-- DDR_TRAINING_DONE: training after a power-up of PD_DDR has ended with a size, 0 when it failed. Only that of step 6
of a start-up gives DDR_GIB its value (R36). [DEDUCED, log entry 42] -/
def ddrTrained (gib : Nat) (s : State) : State :=
  if !s.domOn 10 ∨ !s.pwr.ddrWait then s
  else
    let ok := decide (2 ≤ gib ∧ gib ≤ 16)
    let s : State := if s.pwr.gibSet ∨ 5 ≤ s.phase then s
      else (s.setRegField R.SYS_MEMCFG 4 0 (if ok then gib else 0)).modPwr fun p => { p with gibSet := true }
    let s := s.modPwr fun p =>
      { p with ddrWait := false, ddrZeroing := ok && s.regField R.SYS_MEMCFG 4 0 != 0 }
    s.bootCheck

/-- DDR_ZEROING_DONE: installed DDR holds zeros and is ready. -/
def ddrZeroed (s : State) : State :=
  if !s.domOn 10 ∨ !s.pwr.ddrZeroing then s
  else
    let s := (s.clearMem 0x1000000000 0x1400000000).setRegBit R.SYS_MEMCFG 16 true
    (s.modPwr fun p => { p with ddrZeroing := false }).restoreDdr

/-! ### Autostart (R141, R500, R505) -/

/-- AUTOSTART: Run is entered without a command once nothing holds it up. -/
def autostart (s : State) : State :=
  if s.phase ≠ 5 ∨ !s.cyc.autostart ∨ !s.loaded ∨ s.mode ≠ 0 ∨
      (bit s.pwr.startCfg 10 ∧ !s.ddrReady) ∨ s.red.deciding ∨ s.red.standbyDue ∨ s.role = 2 ∨ s.claimUnknown ∨
      s.tampered ∨ s.startRefusal.isSome then s
  else s.enterRun true 1

/-! ### PFW_N (R127, R128, R397) -/

/-- PFW_N_FALL: the filtered fall starts the FeRAM hold and the power-fail save. [DEDUCED, log entry 50] -/
def pfwFall (s : State) : State :=
  if !s.powered ∨ s.pwr.pfwLow then s
  else
    let frozen := s.met.frozen
    let s := (s.modPwr fun p => { p with pfwLow := true, feramHold := true }).notify 19
    let (s, made) := if s.domOn 8 then s.metSave 1 else (s, false)
    let s := s.modPwr fun p => { p with saving := made }
    if frozen then s else s.raise srcPower Ev.SYS_PFW (s.reg R.MET_SAVE_SEQ).toNat 0

/-- PFW_RESUME: PFW_N has been high for 10 ms without a power-on reset: the hold ends and the held writes are made. -/
def pfwResume (s : State) : State :=
  if !s.powered ∨ !s.pwr.feramHold then s
  else
    let s := { s with nv := s.nvNext }.modPwr fun p => { p with pfwLow := false, feramHold := false, saving := false }
    let s := s.raise srcPower Ev.SYS_PFW_RECOVERED 0 0
    if s.met.waits then s.metRestore.metSync.metShow else s.metResume

/-! ### PD_BAT (R130, R455) -/

/-- PD_BAT_POWER_UP: VBAT and main supply were both absent, and what PD_BAT held is lost. -/
def batPowerUp (s : State) : State :=
  if s.pwr.main then s
  else
    let s := { s with
      regs := s.regs.filter fun c => match regRow c.1 with | some (r, _, _) => !r.bat | none => true
      key := { s.key with root := none, filt := List.replicate 7 0, unlogged := [] }
      rtc := RtcSt.reset }
    s.rtcEvent Ev.RTC_LOST 0 0

/-! ### Commands (R144, R122) -/

/-- SYS_RESET: the reset follows 1 ms after the status entry has been written (R144). [DEDUCED, log entry 51] -/
def sysReset (c : Cmd) (s : State) : State × CmdEnd :=
  let kind := c.p 0 4
  if kind ≠ 1 ∧ kind ≠ 2 then (s, .st .badParam)
  else if kind = 1 ∧ s.role = 1 then (s, .st .role)
  else
    let waits := c.fromRing && (!s.host.bme || s.crossBlocked 0)
    (s.modPwr fun p => { p with resetDue := some (s.raw + rawUs 1000, kind), resetWaits := waits }, .st .ok)

/-- The sectors of a bank that a chunk first writes into: erased before (R122). -/
def eraseFor (base off len : Nat) (s : State) : State :=
  let first := (off + 65535) / 65536
  let last := (off + len + 65535) / 65536
  if first < last then s.eraseFlash (base + 65536 * first) (base + 65536 * last) else s

/-- SYS_FW_WRITE: `good` tells whether the read-back agrees. A later chunk whose bank, offset or total does not continue the
image discards it (R122). -/
def fwWrite (good : Bool) (c : Cmd) (s : State) : State × CmdEnd :=
  let bank := c.p 0 4
  let off := c.p 4 4
  let total := c.p 8 4
  let chunk := c.params.drop 12
  let drop (s : State) : State := s.modPwr fun p => { p with fwWrite := none }
  match firstBad [(decide (1 < bank), 0), (decide (off % 4 ≠ 0), 4),
      (decide (total < 8192 ∨ 16777216 < total ∨ total % 4096 ≠ 0), 8),
      (decide (chunk.length < 4 ∨ 32768 < chunk.length ∨ chunk.length % 4 ≠ 0), 12)] with
  | some o => (if off ≠ 0 ∧ o ≠ 12 then drop s else s, .st .badParam o)
  | none =>
    if s.phase ≠ 6 ∧ bank = s.regField R.SYS_BOOT_STATUS 4 4 then (s, .st .fwBank)
    else
      let cur := if off = 0 then some ⟨bank, total, 0⟩ else s.pwr.fwWrite
      match cur with
      | none => (s, .st .badParam 4)
      | some (w : FwWrite) =>
        match firstBad [(decide (w.bank ≠ bank), 0), (decide (w.written ≠ off), 4), (decide (w.total ≠ total), 8),
            (decide (total < off + chunk.length), 12)] with
        | some o => (drop s, .st .badParam o)
        | none =>
          let s := (s.eraseFor (bankBase bank) off chunk.length).setFlash (bankBase bank + off) chunk
          if !good then (drop s, .st .internal)
          else
            let n := off + chunk.length
            (s.modPwr fun p => { p with fwWrite := if n < total then some { w with written := n } else none },
              .st .ok (n % 65536) (n / 65536))

/-- SYS_FW_ACTIVATE. -/
def fwActivate (c : Cmd) (s : State) : State × CmdEnd :=
  let bank := c.p 0 4
  if 1 < bank then (s, .st .badParam)
  else
    match s.bankFault bank with
    | some k => (s, .st .fwSignature k)
    | none =>
      let s := s.updNv fun n => { n with bootSel := some bank }
      if s.pwr.feramHold then (s, .st .busy 3) else (s, .st .ok)

end State

/-! ### Rows -/

def execPowerOnReset (s : State) : Res := .next s.resetRelease
def execVddCoreFall (torn : Option (Fin 256 × Fin 256)) (s : State) : Res :=
  .next (s.vddFall (torn.map fun t => (t.1.val, t.2.val)))
def execResetNLow (s : State) : Res := .next s.resetN
def execThermalReset (s : State) : Res := .next s.thermalReset
def execDeviceReset (s : State) : Res := .next s.deviceResetDue
def execManagementCoreReset (s : State) : Res := .next s.mgtResetDue
def execMgtWatchdogExpiry (s : State) : Res := .next s.mgtWatchdog
def execPfwNHigh1ms (flash : Fin 17) (bad : Bool) (badLog : List (Fin 32768)) (s : State) : Res :=
  .next (s.bootRom flash bad (badLog.map (·.val)))
def execDdrTrainingDone (gib : Fin 17) (s : State) : Res := .next (s.ddrTrained gib)
def execDdrZeroingDone (s : State) : Res := .next s.ddrZeroed
def execAutostart (s : State) : Res := .next s.autostart
def execPfwNFall (s : State) : Res := .next s.pfwFall
def execPfwResume (s : State) : Res := .next s.pfwResume
def execPdBatPowerUp (s : State) : Res := .next s.batPowerUp

/-- DOMAIN_POWER_UP_DONE. -/
def execDomainPowerUpDone (k : Fin 12) (s : State) : Res := .next (s.domArriveOn k).bootCheck.admitWaiting
/-- DOMAIN_POWER_GOOD_TIMEOUT. -/
def execDomainPowerGoodTimeout (k : Fin 12) (s : State) : Res := .next (s.domTimeout k).bootCheck.admitWaiting
/-- DOMAIN_RAIL_FAULT. -/
def execDomainRailFault (k : Fin 12) (entries : List Nat)
    (trans : List (List (Fin 32 × BitVec 40 × Bool))) (s : State) : Res :=
  .next (s.domRailFault k entries (trans.map fun ts => ts.map fun t => (t.1.val, t.2))).bootCheck.admitWaiting

def execSysReset (id : Nat) (s : State) : Res := hostRow Op.SYS_RESET id State.sysReset s
def execSysFwWrite (id : Nat) (good : Bool) (s : State) : Res := hostRow Op.SYS_FW_WRITE id (State.fwWrite good) s
def execSysFwActivate (id : Nat) (s : State) : Res := hostRow Op.SYS_FW_ACTIVATE id State.fwActivate s

end Machine

end Sys2Proof
end

