-- ==== Sys2Proof/Machine/Access.lean ====
section
/-! DEFINITION. Access to the address map: regions and rights, what a read of a register returns and does, what a write
does, and direct accesses (spec 00 R10 to R17; spec 01 R32 to R41, R47, R48; spec 03 R86 to R88). -/

namespace Sys2Proof.Machine

/-! ### Regions and rights (R32, R34, R35, R37, R48) -/

/-- The regions of the address map. `bar2` stands for BAR2, which the model lays from 2^40 on. -/
inductive Region where
  | code
  | shared
  | solver (e : Nat)
  | contexts
  | pewter
  | log
  | config
  | registers
  | ddr
  | bar2
  | hole
  deriving DecidableEq, Repr

/-- What the host may do in a region (R37). -/
def hostMay (write : Bool) : Region → Bool
  | .shared | .ddr | .registers | .bar2 => true
  | .code | .solver _ | .contexts | .pewter | .log => !write
  | .config | .hole => false

/-- What a logic core may do in a region, register space apart (R37, R40). -/
def coreMay (write : Bool) : Region → Bool
  | .shared | .ddr => true
  | .code => !write
  | _ => false

/-- Memories that the data cache caches (R184). -/
def Region.cached : Region → Bool
  | .shared | .code | .ddr => true
  | _ => false

namespace State

/-- The region of an address: a window of a domain that is not ON is a hole, and so is DDR above the installed size. -/
def regionOf (s : State) (a : Nat) : Region :=
  if a < 0x800000 then .code
  else if a < 0x1000000 then .hole
  else if a < 0x2000000 then .shared
  else if a < 0x3000000 then
    let e := (a - 0x2000000) / 0x400000
    if s.domOn (2 + e) then .solver e else .hole
  else if a < 0x3100000 then .contexts
  else if a < 0x3180000 then .pewter
  else if a < 0x3280000 then .log
  else if a < 0x3300000 then .config
  else if a < 0x4000000 then .hole
  else if a < 0x5400000 then .registers
  else if a < 0x1000000000 then .hole
  else if a < 0x1000000000 + s.ddrSize then (if s.domOn 10 then .ddr else .hole)
  else if 2 ^ 40 ≤ a ∧ a < 2 ^ 40 + 0x20000 then .bar2
  else .hole

/-- A register that its chapter opens to the program: HLT only for reads and while PERF_USER is 1 (R37, R605). An offset of
a block at which no register is mapped raises no error (R12, R34). -/
def progMay (s : State) (write : Bool) (a : Nat) : Bool :=
  match regRow a with
  | none => true
  | some (r, _, _) => r.prog && (a / 0x100000 != 0x4E || (!write && s.regBit R.HLT_CTRL 0))

/-- Rights of an initiator in register space (R37, R38). -/
def regMay (s : State) (who : Nat) (write : Bool) (a : Nat) : Bool :=
  match s.regionOf a with
  | .registers => if who < 18 then s.progMay write a else who == 18 || who == 19 || who == 24 || who == 25
  | .bar2 => who == 25
  | _ => false

/-! ### What a register holds for a reader -/

/-- The three words of a wide count: word `i`. -/
def wordOf (v i : Nat) : Word := BitVec.ofNat 32 (v / 2 ^ (32 * i))

/-- LC.STATE of a logical core (R187). [DESIGN CHOICE, log entry 9] -/
def lcState (s : State) (l : Nat) : Word :=
  let c := s.core l
  let off := !s.domOn (coreDomain l) || s.hlt.dead.contains l
  let (st, t) :=
    if off then (0, 0)
    else match c.mode with
      | .idle => (1, 0) | .running => (2, c.task) | .handler => (3, c.task) | .held => (4, c.task) | .faulted => (5, c.task)
  BitVec.ofNat 32 (st + 2 ^ 4 * t + 2 ^ 16 * c.phys)

/-- KEY.STATUS (R559): the endorsement is that of the public key that it names. -/
def keyStatus (s : State) : Word :=
  let st :=
    if s.phase < 4 ∨ s.domState 9 = 1 then 0
    else if !s.domOn 9 then 4
    else if s.tampered then 3
    else if s.unprovisioned then 2
    else 1
  let w := setField (s.reg R.KEY_STATUS) 2 0 st
  setBit w 3 (s.key.root.isSome && s.nv.endorsement == s.idPub)

/-- SYS, XING and CMD registers that are computed. [DESIGN CHOICE, log entry 34] -/
def viewSys (s : State) (base i j : Nat) : Option Nat :=
  if base = R.XING_EVT_STATUS then some ((s.reg R.XING_EVT_STATUS).toNat / 256 * 256 + s.xing.pins.toNat)
  else if base = R.SYS_MEAS 0 0 then some (fieldAt (nth [] s.pwr.meas i) (4 * j) 4)
  else if base = R.SYS_FUSE_FW then some (Config.fuseRevoked % 16 + 16 * s.minSvn)
  else if base = R.CMD_INFLIGHT then some s.host.inflight.length
  else if base = R.CMD_AUTH_LOCK then
    some (match s.host.lockUntil with | some t => (t - s.raw + 249999999) / 250000000 | none => 0)
  else if base = R.CMD_RING_INFLIGHT 0 then some (s.ringInflight i)
  else none

/-- LC, CYC, SOLV, NET and CAN registers that are computed. -/
def viewBlocks (s : State) (who base i : Nat) : Option Nat :=
  if base = R.LC_STATE 0 then some (s.lcState i).toNat
  else if base = R.CYC_FORCE_COUNT then some s.cyc.forces.length
  else if base = R.CYC_TASK_STATE 0 then some (s.taskStateWord i)
  else if base = R.SOLV_PSUBMIT_LO then some ((s.heldLo who R.SOLV_PSUBMIT_LO).toNat / 64 * 64)
  else if base = R.SOLV_PSUBMIT_RESULT then some ((tget s.solv.psub who).getD 0).toNat
  else if base = R.SOLV_QUEUE then some s.solvQueue
  else if base = R.SOLV_DESC_STATE 0 then some (s.descState i)
  else if base = R.SOLV_BANK_USE 0 then some (s.bankUse i)
  else if base = R.NET_MAC_BASE_LO then some baseMac
  else if base = R.NET_MAC_BASE_HI then some (baseMac / 2 ^ 32)
  else if base = R.NET_PORT_CFG 0 ∧ i = 20 then some 0x1002
  else if base = R.CAN_PSEND_LO then some ((s.heldLo who R.CAN_PSEND_LO).toNat / 16 * 16)
  else if base = R.CAN_PSEND_RESULT then some ((tget s.can.psend who).getD 0).toNat
  else none

/-- Time, calendar, redundancy, key, event and health registers that are computed. -/
def viewRest (s : State) (a base i : Nat) : Option Nat :=
  if base = R.TIME_NOW_FRAC then some s.now
  else if base = R.TIME_NOW_SEC_LO then some (s.now / 2 ^ 32)
  else if base = R.TIME_NOW_SEC_HI then some (s.now / 2 ^ 64)
  else if base = R.TIME_RAW_W0 then some s.raw
  else if base = R.TIME_RAW_W1 then some (s.raw / 2 ^ 32)
  else if base = R.TIME_RAW_W2 then some (s.raw / 2 ^ 64)
  else if base = R.RTC_COUNT_FRAC then some s.rtc.count
  else if base = R.RTC_COUNT_SEC_LO then some (s.rtc.count / 2 ^ 32)
  else if base = R.RTC_COUNT_SEC_HI then some (s.rtc.count / 2 ^ 64 % 2 ^ 16)
  else if base = R.RTC_CAL_DATE then some s.calDate
  else if base = R.RTC_CAL_TIME then some s.calTime
  else if base = R.RTC_CAL then some (ofSigned 32 s.rtcCal)
  else if base = R.RED_ROLE then some s.roleWord.toNat
  else if base = R.KEY_STATUS then some s.keyStatus.toNat
  else if base = R.KEY_SLOTS then
    let used := if s.domOn 9 then s.key.slots.filter fun x => !x.2.isSealed else []
    some (used.length + 2 ^ 16 * used.countP fun x => bit x.2.attr 16)
  else if base = R.KEY_SEALED then some (s.key.slots.countP fun x => x.2.isSealed)
  else if base = R.KEY_ID_PUB 0 then some (leNat (slice s.idPub (4 * i) 4).reverse)
  else if base = R.HLT_PERF_LO 0 then some (nth 0 s.hlt.perf i)
  else if base = R.HLT_PERF_HI 0 then some (nth 0 s.hlt.perf i / 2 ^ 32)
  else if a / 0x100000 = 0x4D then some (s.evrWord a).toNat
  else none

/-- The row of an address lies in a switched domain that is not ON: it reads 0 and ignores writes (R47).
[DEDUCED, log entry 38] -/
def rowOff (s : State) (r : RegRow) : Bool := match r.dom with | some k => !s.domOn k | none => false

/-- The value of the register at an address for a reader, without what a latch holds (R12, R47).
[DEDUCED, log entry 38] -/
def regView (s : State) (who a : Nat) : Word :=
  match regRow a with
  | none => 0
  | some (r, i, j) =>
    if s.rowOff r then 0
    else
      match (s.viewSys r.base i j).or ((s.viewBlocks who r.base i).or (s.viewRest a r.base i)) with
      | some v => BitVec.ofNat 32 v
      | none => s.reg a

end State

/-! ### Split registers (R16, R17) -/

/-- The rows of the `_LO` words whose `_HI` word follows. [DEDUCED, log entry 26] -/
def loBases : List Nat :=
  [R.CMD_RING_SQ_BASE_LO 0, R.CMD_RING_CQ_BASE_LO 0, R.CMD_RING_SHADOW_LO 0, R.LC_LAST_PC_LO 0, R.LC_LAST_VAL_LO 0,
   R.CYC_DATA_BASE_LO 0, R.CYC_CYCLE_LO 0, R.CYC_BUILD_ID_LO, R.SOLV_PSUBMIT_LO, R.MET_WINDOW_END_LO, R.NET_MAC_BASE_LO,
   R.TIME_LAST_STEP_LO, R.RTC_ALARM_SEC_LO 0, R.RTC_UTC_AT_LO, R.CAN_PSEND_LO, R.CAN_RXQ_BASE_LO 0, R.CAN_TXC_BASE_LO 0,
   R.KEY_TAMPER_LOG_LO 0, R.HLT_EQUIV_S_LO, R.HLT_SENSOR_LO 0, R.HLT_PERF_LO 0, R.HLT_PERF_OVF_LO, R.HLT_BW_RX_LO 0,
   R.HLT_BW_TX_LO 0]

/-- The address is the low word of a pair. -/
def isLo (a : Nat) : Bool := match regRow a with | some (r, _, _) => loBases.contains r.base | none => false

/-- The address is the high word of a pair. -/
def isHi (a : Nat) : Bool := decide (4 ≤ a) && isLo (a - 4)

/-- The fraction of an alarm or of a tamper record, the lowest word of its quantity, stands above the two words of the
seconds (R17). -/
def isFrac (a : Nat) : Bool :=
  match regRow a with
  | some (r, _, _) => r.base == R.RTC_ALARM_FRAC 0 || r.base == R.KEY_TAMPER_LOG_FRAC 0
  | none => false

/-- The higher words that a read of a lowest word latches. [DEDUCED, log entry 26] -/
def higherWords (a : Nat) : List Nat :=
  if a = R.TIME_NOW_FRAC ∨ a = R.TIME_RAW_W0 then [a + 4, a + 8]
  else if a = R.RTC_COUNT_FRAC then [a + 4, a + 8, a + 12, a + 16]
  else if isFrac a then [a - 8, a - 4]
  else
    match regRow a with
    | some (r, _, j) =>
      if r.base = R.SYS_MEAS 0 0 ∧ j = 0 then (List.range 11).map fun k => a + 4 * (k + 1)
      else if loBases.contains r.base then [a + 4]
      else []
    | none => []

namespace State

/-! ### Reads -/

/-- Latches the present higher words for a reader. [DEDUCED, log entry 26] -/
def latchAll (who : Nat) : List Nat → State → State
  | [], s => s
  | a :: rest, s =>
    let v := s.regView who a
    latchAll who rest { s with host := { s.host with latches := tput s.host.latches (holdKey who a) v } }

/-- What a read of access RC leaves: the present level for a peak of R13, 0 otherwise. -/
def afterRead (a : Nat) (k : ReadKind) (s : State) : State :=
  match k with
  | .plain => s
  | .clears => s.setReg a 0
  | .peak =>
    let level :=
      if a = R.CMD_INFLIGHT_PEAK then s.host.inflight.length
      else if a = R.SOLV_QUEUE_PEAK then s.ctxUsed
      else if a = R.EVR_QUEUE_PEAK then s.evr.queue.length
      else 0
    s.setReg a (BitVec.ofNat 32 level)

/-- The spine's counters at a read: how many transactions are outstanding at an instant, and how long initiators have
stalled, is timing that the model leaves free within the bounds of R53 and R55. [DESIGN CHOICE, log entry 21] -/
def spineSample (base i : Nat) (s : State) : State :=
  if base = R.SPINE_INFLIGHT then
    let (v, s) := s.draw 78
    (s.setReg R.SPINE_INFLIGHT (BitVec.ofNat 32 (v % 257))).regMax R.SPINE_INFLIGHT_PEAK (v % 257)
  else if base = R.SPINE_INFLIGHT_PEAK then
    let (v, s) := s.draw 79
    s.regMax R.SPINE_INFLIGHT_PEAK (v % 257)
  else if base = R.SPINE_INIT_INFLIGHT 0 then
    let (v, s) := s.draw 80
    (s.setReg (R.SPINE_INIT_INFLIGHT i) (BitVec.ofNat 32 (v % 33))).regMax (R.SPINE_INIT_PEAK i) (v % 33)
  else if base = R.SPINE_INIT_PEAK 0 then
    let (v, s) := s.draw 81
    s.regMax (R.SPINE_INIT_PEAK i) (v % 33)
  else if base = R.SPINE_INIT_STALLS 0 then
    let (v, s) := s.draw 82
    s.bump (R.SPINE_INIT_STALLS i) (v % 2 ^ 32)
  else s

/-- What a read captures before its value is taken: a performance counter at its low word (R604), the spine's counters. -/
def captureFirst (a : Nat) (s : State) : State :=
  match regRow a with
  | some (r, i, _) => if r.base = R.HLT_PERF_LO 0 then (s.perfCapture i).2 else s.spineSample r.base i
  | none => s

/-- A read of the register at an address by an initiator or channel: the word that a lower one has latched, or its value
and the state with the higher words latched; and an RC register restarted (R13, R16). [DEDUCED, log entry 26] -/
def regRead (who a : Nat) (s : State) : Word × State :=
  match regRow a with
  | none => (0, s)
  | some (r, _, _) =>
    if s.rowOff r then (0, s)
    else
      let s := s.captureFirst a
      match tget s.host.latches (holdKey who a) with
      | some v => (v, s.afterRead a r.read)
      | none => (s.regView who a, (s.latchAll who (higherWords a)).afterRead a r.read)

/-! ### Writes -/

/-- The value that a write leaves in a register with these access codes (R11, R13, R14). -/
def written (s : State) (r : RegRow) (old v : Word) : Word :=
  let m : Word := BitVec.ofNat 32 (r.rw ||| (if s.regBit R.SYS_LOCK 0 then 0 else r.rwl))
  let w := (old &&& ~~~m) ||| (v &&& m)
  (w &&& ~~~(v &&& BitVec.ofNat 32 r.w1c)) ||| (v &&& BitVec.ofNat 32 r.w1s)

/-- Fields of two bits in which a write of 3 keeps the old value. -/
def keepThree (old v : Word) : Nat → Word
  | 0 => v
  | n + 1 => let w := keepThree old v n; if field v (2 * n + 1) (2 * n) = 3 then setField w (2 * n + 1) (2 * n)
      (field old (2 * n + 1) (2 * n)) else w

/-- Fields of a byte in which a write of 0 keeps the old value. -/
def keepZero (old v : Word) : Nat → Word
  | 0 => v
  | n + 1 => let w := keepZero old v n; if field v (8 * n + 7) (8 * n) = 0 then setField w (8 * n + 7) (8 * n)
      (field old (8 * n + 7) (8 * n)) else w

/-- The value within bounds; otherwise the old value stays. -/
def bounded (lo hi : Nat) (old v : Word) : Word := if lo ≤ v.toNat ∧ v.toNat ≤ hi then v else old

/-- Where a register ignores some values or some bits of a write, the value that the write then has. -/
def acceptedWrite (base i j : Nat) (old v : Word) : Word :=
  if base = R.XING_BLOCK_TIMEOUT then bounded 1 65535 old (v &&& 0xFFFF)
  else if base = R.CYC_CHANGE_WAIT_MAX ∨ base = R.RTC_FOLLOW_STEP ∨ base = R.HLT_BW_WINDOW then
    bounded 1 60000 old (v &&& 0xFFFF)
  else if base = R.STN_ETHERTYPE then bounded 0x600 0xFFFF old (v &&& 0xFFFF)
  else if base = R.NET_SWITCH_CFG then
    if field v 11 0 < 10 then setField v 11 0 (field old 11 0) else v
  else if base = R.NET_PCP_MAP then keepThree old v 8
  else if base = R.NET_PORT_LAT 0 ∧ i = 20 then old
  else if base = R.HLT_CORE_RETIRE then bounded 100 590 old (v &&& 0x3FF)
  else if base = R.HLT_SCRUB_PERIOD then bounded 1 1440 old (v &&& 0x7FF)
  else if base = R.CMD_ETH_CFG then
    if field v 31 16 = 0 then setField v 31 16 (field old 31 16) else v
  else if base = R.KEY_TAMPER_CFG then keepThree old v 7
  else if base = R.KEY_TAMPER_FILT then keepZero old v 4
  else if base = R.BAR2_MSIX 0 0 ∧ j = 3 then v &&& 1
  else if base = R.STN_QCLASS 0 0 then
    if j = 0 then (let w := v &&& 0xF; if field w 1 0 = 3 then setField w 1 0 (field old 1 0) else w)
    else if j = 5 then v &&& 0xFFFFFF
    else if 6 ≤ j then 0
    else v
  else v

/-- A tamper source that a write has switched off or on shows OFF or OK (R556). [DEDUCED, log entry 27] -/
def tamperShow (s : State) : State :=
  (List.range 7).foldl (fun s n =>
    if s.tamperAction n = 0 then (s.setTamper n 0).setFilt n 0
    else if s.tamperState n = 0 then s.setTamper n 1
    else s) s

/-- What a register write does beside setting the register. [DEDUCED, log entry 27] -/
def afterWrite (base i j : Nat) (s : State) : State :=
  if base = R.SYS_START_CFG ∨ base = R.CMD_ETH_CFG then s.nvReg base
  else if base = R.SYS_DOMAIN_FAULT ∨ base = R.KEY_TAMPER_STATUS then s.alertUpdate
  else if base = R.KEY_TAMPER_CFG then s.tamperShow
  else if base = R.BAR2_MSIX 0 0 ∧ j = 3 ∧ s.regBit R.BAR2_PBA i ∧ !s.regBit (R.BAR2_MSIX i 3) 0 then
    (s.setRegBit R.BAR2_PBA i false).emitHost (.msix i)
  else s

/-- The registers that hold an RWL field, by rising address (R137). -/
def rwlRegs : List Nat :=
  [R.CYC_CTRL, R.STN_ETHERTYPE, R.NET_SWITCH_CFG, R.NET_PCP_MAP, R.NET_IPV4_ADDR] ++
    (List.range 21).map R.NET_PORT_LAT ++ [R.XING_COMPAT]

/-- LOCKED is set: the change from 0 to 1 extends M2 once (R14, R137). -/
def lockRegs (s : State) : State :=
  if s.regBit R.SYS_LOCK 0 then s
  else
    let bytes := (rwlRegs.map fun a => leBytes 4 (s.regView 24 a).toNat).flatten
    (s.setReg R.SYS_LOCK 1).extendDigest 2 (Config.sha384 bytes)

/-- The rows of the ring base pairs, which take writes only while their ring is DISABLED (R90). -/
def ringBase (base : Nat) : Bool :=
  [R.CMD_RING_SQ_BASE_LO 0, R.CMD_RING_SQ_BASE_HI 0, R.CMD_RING_CQ_BASE_LO 0, R.CMD_RING_CQ_BASE_HI 0,
   R.CMD_RING_SHADOW_LO 0, R.CMD_RING_SHADOW_HI 0].contains base

/-- A pair of which some bit takes writes. -/
def rowTakes (r : RegRow) : Bool := r.rw != 0 || r.rwl != 0 || r.w1c != 0 || r.w1s != 0

/-- A write to a `_LO` word is held (R17). -/
def holdLo (who a : Nat) (v : Word) (s : State) : State :=
  { s with host := { s.host with heldLo := tput s.host.heldLo (holdKey who a) v } }

/-- A write to a register word by its access code. -/
def putWord (r : RegRow) (i j a : Nat) (v : Word) (s : State) : State :=
  let old := s.reg a
  let s := if r.base = R.HLT_PERF_CTRL then s.perfSync else s
  (s.setReg a (s.written r old (acceptedWrite r.base i j old v))).afterWrite r.base i j

/-- A write to a `_HI` word applies the held low word, 0 with none, and the written word as one change (R17). -/
def applyPair (r : RegRow) (i who a : Nat) (v : Word) (s : State) : State :=
  let lo := a - 4
  let low := s.heldLo who lo
  match regRow lo with
  | some (rl, _, _) => ((s.putWord rl i 0 lo low).putWord r i 0 a v).dropHeld who lo
  | none => s

/-- A write of a register at its row. [DEDUCED, log entry 22] -/
def rowWrite (r : RegRow) (i j who a : Nat) (v : Word) (s : State) : State :=
  if ringBase r.base ∧ s.ringState i ≠ 0 then s
  else if isLo a then (if rowTakes r then s.holdLo who a v else s)
  else if r.base = R.SOLV_PSUBMIT_HI then (s.psubmit who v).solvShow
  else if r.base = R.CAN_PSEND_HI then s.psend who v
  else if isHi a then (if rowTakes r then s.applyPair r i who a v else s)
  else if r.base = R.CMD_RING_CFG 0 then s.ringCfgWrite i v
  else if r.base = R.XING_COMPAT then s.compatWrite v
  else if r.base = R.CAN_LVB_STATUS 0 then s.lvbWrite i v
  else if r.base = R.CAN_RXQ_HEAD 0 then s.rxqHead i v
  else if r.base = R.CAN_TXC_HEAD 0 then s.txcHead i v
  else if r.base = R.SYS_LOCK then (if bit v 0 then s.lockRegs else s)
  else s.putWord r i j a v

/-- A write of the register at an address by an initiator or channel; `auth` for a word of an authorised SYS_WRITE. A
privileged register ignores any other write, which is logged (R87). -/
def regWrite (who ini : Nat) (auth : Bool) (a : Nat) (v : Word) (s : State) : State :=
  match regRow a with
  | none => s
  | some (r, i, j) =>
    if r.priv && !auth then s.accessFault ini a
    else if s.rowOff r then s
    else s.rowWrite r i j who a v

/-! ### Memory as a reader sees it -/

/-- The station-context memory at a byte address holds a context in use. -/
def contextUsed (s : State) (a : Nat) : Bool := s.stn.ctxs.any fun x => x.2.ix == (a - 0x3000000) / 512

/-- A word of a memory region as the host reads it: the event log is the byte view of its records (R580), a solver
window holds what the engine's work left there (R41, R349), and a context in use, DDR before its zeroing and a word with
an uncorrectable error hold open values. [DESIGN CHOICE, log entry 29] -/
def memWord (who a : Nat) (s : State) : Word × State :=
  let open_ (tag : Nat) : Word × State := let (v, s) := s.draw tag; (BitVec.ofNat 32 v, s)
  let s := s.eccMeet a 4
  match s.regionOf a with
  | .log =>
    let off := a - 0x3180000
    match tget s.evr.log (off / 32) with
    | some r => (BitVec.ofNat 32 (fieldAt (recordBytes r) (off % 32) 4), s)
    | none => (0, s)
  | .solver e =>
    let off := a % 0x400000
    let hidden := (tget s.solv.hidden e).any fun h => decide (h.1 ≤ off ∧ off < h.1 + h.2)
    if bit s.solv.localUsed e && !hidden then open_ 70 else (0, s)
  | .contexts => if s.contextUsed a then open_ 71 else (BitVec.ofNat 32 (s.numAt a 4), s)
  | .ddr =>
    if !s.ddrReady then open_ 72
    else if s.poisoned a then (let (v, s) := open_ 73; (v, s.eccUncorrectable (a / 8 * 8)))
    else (BitVec.ofNat 32 (s.numAt a 4), s)
  | .registers => s.regRead who a
  | _ =>
    if s.poisoned a then (let (v, s) := open_ 73; (v, s.eccUncorrectable (a / 8 * 8)))
    else (BitVec.ofNat 32 (s.numAt a 4), s)

/-- The bytes of `n` words of memory in address order. -/
def memBytes (who a : Nat) : Nat → State → List Byte × State
  | 0, s => ([], s)
  | n + 1, s =>
    let (v, s) := s.memWord who a
    let (rest, s) := memBytes who (a + 4) n s
    (leBytes 4 v.toNat ++ rest, s)

/-! ### Direct accesses: rows of the command table -/

/-- A refused direct access: logged, but a misaligned one for the host only; a running logic core traps (R10, R34, R39,
R168). [DEDUCED, log entries 24, 25] -/
def refuseAccess (ini a : Nat) (s : State) : State :=
  let s := if a % 4 ≠ 0 ∧ ini ≠ 25 then s else s.accessFault ini a
  match (List.range 16).find? fun l => (s.core l).phys == ini && s.coreRuns l with
  | some l => s.trap l (if a % 4 ≠ 0 then .misaligned else .busError) (BitVec.ofNat 64 a)
  | none => s

/-- A direct access of the host waits while crossing 0 is blocked (R79). [DEDUCED, log entry 53] -/
def hostWaits (s : State) (ini : Nat) : Bool := ini == 25 && s.crossBlocked 0

/-- A direct read of a register by an initiator (R10, R34, R39). [DEDUCED, log entry 24] -/
def directRead (ini a : Nat) (s : State) : State :=
  if !s.powered ∨ s.hostWaits ini then s
  else if a % 4 ≠ 0 ∨ !s.regMay ini false a then
    let s := s.refuseAccess ini a
    if ini = 25 then s.emit (.readData ini a 0xFFFFFFFF) else s
  else
    let (v, s) := s.regRead ini a
    s.emit (.readData ini a v)

/-- A direct write of a register by an initiator. [DEDUCED, log entries 22, 24] -/
def directWrite (ini a : Nat) (v : Word) (s : State) : State :=
  if !s.powered ∨ s.hostWaits ini then s
  else if a % 4 ≠ 0 ∨ !s.regMay ini true a then s.refuseAccess ini a
  else s.regWrite ini ini false a v

/-- A host access over BAR0 that R10, R34 or R39 refuses: a hole, a denied region, a register access that is not a
32-bit word at a 32-bit address. -/
def hostRefused (s : State) (write : Bool) (a width : Nat) : Bool :=
  !hostMay write (s.regionOf a) || !hostMay write (s.regionOf (a + width - 1)) || (s.regionOf a == .registers && (width != 4 || a % 4 != 0))

/-- A host access over BAR0: refused (R10, R34), an AtomicOp request (R60), or a read or write of memory that R37 grants
(R85, R86). A granted access of one register is what the register rows do. [DEDUCED, log entry 24] -/
def holeAccess (kind : HostAccess) (a width : Nat) (s : State) : State :=
  if !s.powered ∨ s.hostWaits 25 then s
  else
    let word := s.regionOf a == .registers || s.regionOf a == .bar2
    match kind with
    | .atomic => s.emit (.unsupported a)
    | .read =>
      if s.hostRefused false a width then (s.accessFault 25 a).emit (.readData 25 a 0xFFFFFFFF)
      else if word then s
      else
        let (bs, s) := s.memBytes 25 (a / 4 * 4) ((a % 4 + width + 3) / 4)
        s.emit (.memData a (slice bs (a % 4) width))
    | .write data =>
      if s.hostRefused true a width then s.accessFault 25 a
      else if word then s
      else s.setBytes a (padTo width data)

end State

/-- SPLIT_LO_READ: a direct read of the low word of a pair (R16). -/
def execSplitLoRead (ini : Fin 32) (addr : Nat) (s : State) : Res :=
  .next (if isLo addr then s.directRead ini addr else s)

/-- SPLIT_LO_WRITE: a direct write of the low word of a pair (R17). -/
def execSplitLoWrite (ini : Fin 32) (addr : Nat) (v : Word) (s : State) : Res :=
  .next (if isLo addr then s.directWrite ini addr v else s)

/-- SPLIT_HI_WRITE: a direct write of the high word of a pair (R17). -/
def execSplitHiWrite (ini : Fin 32) (addr : Nat) (v : Word) (s : State) : Res :=
  .next (if isHi addr then s.directWrite ini addr v else s)

/-- RC_REGISTER_READ: a direct read of any register that is no low word; one of access RC is cleared or restarted, and
the others are left as they are (R13). [DEDUCED, log entry 23] -/
def execRcRegisterRead (ini : Fin 32) (addr : Nat) (s : State) : Res :=
  .next (if isLo addr then s else s.directRead ini addr)

/-- REGISTER_WRITE: a direct write of any register that is no word of a pair (R13). -/
def execRegisterWrite (ini : Fin 32) (addr : Nat) (v : Word) (s : State) : Res :=
  .next (if isLo addr ∨ isHi addr then s else s.directWrite ini addr v)

/-- HOLE_ACCESS. -/
def execHoleAccess (kind : HostAccess) (addr : BitVec 40) (width : Fin 65) (s : State) : Res :=
  .next (s.holeAccess kind addr.toNat width)

/-- TIME_NOW_READ (R434). -/
def execTimeNowRead (ini : Fin 32) (s : State) : Res := .next (s.directRead ini R.TIME_NOW_FRAC)

/-- TIME_RAW_READ (R434). -/
def execTimeRawRead (ini : Fin 32) (s : State) : Res := .next (s.directRead ini R.TIME_RAW_W0)

/-- RTC_COUNT_READ (R456). -/
def execRtcCountRead (ini : Fin 32) (s : State) : Res := .next (s.directRead ini R.RTC_COUNT_FRAC)

/-- MEAS_WORD0_READ (R151). -/
def execMeasWord0Read (ini : Fin 32) (m : Fin 4) (s : State) : Res := .next (s.directRead ini (R.SYS_MEAS m 0))

/-- PERF_LO_READ (R604). -/
def execPerfLoRead (ini : Fin 32) (i : Fin 64) (s : State) : Res := .next (s.directRead ini (R.HLT_PERF_LO i))

/-- XING_COMPAT_WRITE (R77). -/
def execXingCompatWrite (ini : Fin 32) (v : Word) (s : State) : Res := .next (s.directWrite ini R.XING_COMPAT v)

end Sys2Proof.Machine
end

