-- ==== Sys2Proof/Machine/LogicAlu.lean ====
section
/-! DEFINITION. Integer instructions and compares of the logic cores (spec 05, R163 to R165). -/

namespace Sys2Proof.Machine

/-- ADDI (R163). -/
def execAddi (l d a : Fin 16) (imm : Imm 17) (s : State) : Res :=
  s.coreRow l (immLen imm) fun c => c.setW d (c.getW a + immS imm)

/-- ANDI (R163). -/
def execAndi (l d a : Fin 16) (imm : Imm 17) (s : State) : Res :=
  s.coreRow l (immLen imm) fun c => c.setW d (c.getW a &&& immZ imm)

/-- ORI (R163). -/
def execOri (l d a : Fin 16) (imm : Imm 17) (s : State) : Res :=
  s.coreRow l (immLen imm) fun c => c.setW d (c.getW a ||| immZ imm)

/-- XORI (R163). -/
def execXori (l d a : Fin 16) (imm : Imm 17) (s : State) : Res :=
  s.coreRow l (immLen imm) fun c => c.setW d (c.getW a ^^^ immZ imm)

/-- MOVHI (R163). -/
def execMovhi (l d a : Fin 16) (imm : Imm 17) (s : State) : Res :=
  s.coreRow l (immLen imm) fun c => c.setW d ((immZ imm <<< 32) ||| (c.getW a &&& 0xFFFFFFFF))

/-- SHLI (R163). -/
def execShli (l d a : Fin 16) (n : Fin 64) (s : State) : Res :=
  s.coreRow l 4 fun c => c.setW d (c.getW a <<< n.val)

/-- SHRI (R163). -/
def execShri (l d a : Fin 16) (n : Fin 64) (s : State) : Res :=
  s.coreRow l 4 fun c => c.setW d (c.getW a >>> n.val)

/-- SARI (R163). -/
def execSari (l d a : Fin 16) (n : Fin 64) (s : State) : Res :=
  s.coreRow l 4 fun c => c.setW d ((c.getW a).sshiftRight n)

/-- RORI (R163). -/
def execRori (l d a : Fin 16) (n : Fin 64) (s : State) : Res :=
  s.coreRow l 4 fun c => c.setW d ((c.getW a).rotateRight n)

/-- ADD (R164). -/
def execAdd (l d a b : Fin 16) (s : State) : Res :=
  s.coreRow l 4 fun c => let x := c.getW a; let y := c.getW b; c.setW d (x + y)

/-- SUB (R164). -/
def execSub (l d a b : Fin 16) (s : State) : Res :=
  s.coreRow l 4 fun c => let x := c.getW a; let y := c.getW b; c.setW d (x - y)

/-- AND (R164). -/
def execAnd (l d a b : Fin 16) (s : State) : Res :=
  s.coreRow l 4 fun c => let x := c.getW a; let y := c.getW b; c.setW d (x &&& y)

/-- OR (R164). -/
def execOr (l d a b : Fin 16) (s : State) : Res :=
  s.coreRow l 4 fun c => let x := c.getW a; let y := c.getW b; c.setW d (x ||| y)

/-- XOR (R164). -/
def execXor (l d a b : Fin 16) (s : State) : Res :=
  s.coreRow l 4 fun c => let x := c.getW a; let y := c.getW b; c.setW d (x ^^^ y)

/-- ANDN (R164). -/
def execAndn (l d a b : Fin 16) (s : State) : Res :=
  s.coreRow l 4 fun c => let x := c.getW a; let y := c.getW b; c.setW d (x &&& ~~~y)

/-- SHL (R164). -/
def execShl (l d a b : Fin 16) (s : State) : Res :=
  s.coreRow l 4 fun c => let x := c.getW a; let y := c.getW b; c.setW d (x <<< field y 5 0)

/-- SHR (R164). -/
def execShr (l d a b : Fin 16) (s : State) : Res :=
  s.coreRow l 4 fun c => let x := c.getW a; let y := c.getW b; c.setW d (x >>> field y 5 0)

/-- SAR (R164). -/
def execSar (l d a b : Fin 16) (s : State) : Res :=
  s.coreRow l 4 fun c => let x := c.getW a; let y := c.getW b; c.setW d (x.sshiftRight (field y 5 0))

/-- ROR (R164). -/
def execRor (l d a b : Fin 16) (s : State) : Res :=
  s.coreRow l 4 fun c => let x := c.getW a; let y := c.getW b; c.setW d (x.rotateRight (field y 5 0))

/-- MUL (R164). -/
def execMul (l d a b : Fin 16) (s : State) : Res :=
  s.coreRow l 4 fun c => let x := c.getW a; let y := c.getW b; c.setW d (x * y)

/-- MULH (R164). -/
def execMulh (l d a b : Fin 16) (s : State) : Res :=
  s.coreRow l 4 fun c => let x := c.getW a; let y := c.getW b; c.setW d (BitVec.ofInt 64 (x.toInt * y.toInt / 2 ^ 64))

/-- MULHU (R164). -/
def execMulhu (l d a b : Fin 16) (s : State) : Res :=
  s.coreRow l 4 fun c => let x := c.getW a; let y := c.getW b; c.setW d (BitVec.ofNat 64 (x.toNat * y.toNat / 2 ^ 64))

/-- DIV (R164). -/
def execDiv (l d a b : Fin 16) (s : State) : Res :=
  s.coreRow l 4 fun c => let x := c.getW a; let y := c.getW b; c.setW d (if y = 0 then BitVec.allOnes 64 else x.sdiv y)

/-- DIVU (R164). -/
def execDivu (l d a b : Fin 16) (s : State) : Res :=
  s.coreRow l 4 fun c => let x := c.getW a; let y := c.getW b; c.setW d (if y = 0 then BitVec.allOnes 64 else x.udiv y)

/-- REM (R164). -/
def execRem (l d a b : Fin 16) (s : State) : Res :=
  s.coreRow l 4 fun c => let x := c.getW a; let y := c.getW b; c.setW d (if y = 0 then x else x.srem y)

/-- REMU (R164). -/
def execRemu (l d a b : Fin 16) (s : State) : Res :=
  s.coreRow l 4 fun c => let x := c.getW a; let y := c.getW b; c.setW d (if y = 0 then x else x.umod y)

/-- MIN (R164). -/
def execMin (l d a b : Fin 16) (s : State) : Res :=
  s.coreRow l 4 fun c => let x := c.getW a; let y := c.getW b; c.setW d (if x.slt y then x else y)

/-- MAX (R164). -/
def execMax (l d a b : Fin 16) (s : State) : Res :=
  s.coreRow l 4 fun c => let x := c.getW a; let y := c.getW b; c.setW d (if x.slt y then y else x)

/-- MINU (R164). -/
def execMinu (l d a b : Fin 16) (s : State) : Res :=
  s.coreRow l 4 fun c => let x := c.getW a; let y := c.getW b; c.setW d (if x.ult y then x else y)

/-- MAXU (R164). -/
def execMaxu (l d a b : Fin 16) (s : State) : Res :=
  s.coreRow l 4 fun c => let x := c.getW a; let y := c.getW b; c.setW d (if x.ult y then y else x)

/-- SEL (R164). -/
def execSel (l d a b : Fin 16) (k : Fin 4) (s : State) : Res :=
  s.coreRow l 4 fun c => c.setW d (if c.flag k then c.getW a else c.getW b)

/-- How many low-order bits of a number, from bit 0 on, are zero, up to `n`. -/
def trailZeros (x : DWord) : Nat → Nat
  | 0 => 0
  | n + 1 => let r := trailZeros x n; if r = n ∧ x.getLsbD n = false then n + 1 else r

/-- How many of the low `n` bits are set. -/
def popCount (x : DWord) : Nat → Nat
  | 0 => 0
  | n + 1 => popCount x n + (if x.getLsbD n then 1 else 0)

/-- CLZ (R164). -/
def execClz (l d a : Fin 16) (s : State) : Res :=
  s.coreRow l 4 fun c => let x := c.getW a; c.setW d (BitVec.ofNat 64 (64 - bitLen x.toNat))

/-- CTZ (R164). -/
def execCtz (l d a : Fin 16) (s : State) : Res :=
  s.coreRow l 4 fun c => let x := c.getW a; c.setW d (BitVec.ofNat 64 (trailZeros x 64))

/-- POPC (R164). -/
def execPopc (l d a : Fin 16) (s : State) : Res :=
  s.coreRow l 4 fun c => let x := c.getW a; c.setW d (BitVec.ofNat 64 (popCount x 64))

/-- SEXT_B (R164). -/
def execSextB (l d a : Fin 16) (s : State) : Res :=
  s.coreRow l 4 fun c => let x := c.getW a; c.setW d ((x.truncate 8).signExtend 64)

/-- SEXT_H (R164). -/
def execSextH (l d a : Fin 16) (s : State) : Res :=
  s.coreRow l 4 fun c => let x := c.getW a; c.setW d ((x.truncate 16).signExtend 64)

/-- SEXT_W (R164). -/
def execSextW (l d a : Fin 16) (s : State) : Res :=
  s.coreRow l 4 fun c => let x := c.getW a; c.setW d ((x.truncate 32).signExtend 64)

/-- ZEXT_W (R164). -/
def execZextW (l d a : Fin 16) (s : State) : Res :=
  s.coreRow l 4 fun c => let x := c.getW a; c.setW d ((x.truncate 32).zeroExtend 64)

/-- CMP (R165). -/
def execCmp (l : Fin 16) (comb : Comb) (k : Fin 4) (cond : Cond) (a b : Fin 16) (s : State) : Res :=
  s.coreRow l 4 fun c => c.combine comb k (condOf cond (c.getW a) (c.getW b))

/-- CMPI (R165). -/
def execCmpi (l : Fin 16) (comb : Comb) (k : Fin 4) (cond : Cond) (a : Fin 16) (imm : Imm 14) (s : State) : Res :=
  s.coreRow l (immLen imm) fun c => c.combine comb k (condOf cond (c.getW a) (immS imm))

end Sys2Proof.Machine
end

