-- ==== Sys2Proof/Machine/LogicFp.lean ====
section
/-! DEFINITION. Floating-point instructions of the logic cores (spec 05, R154, R166, R167). -/

namespace Sys2Proof.Machine

/-- FADD (R167). -/
def execFadd (l : Fin 16) (dbl : Bool) (d a b : Fin 16) (s : State) : Res :=
  s.coreRow l 4 fun c => c.putF dbl d (fpAdd (fmtOf dbl) c.rm (c.getF dbl a) (c.getF dbl b))

/-- FSUB (R167). -/
def execFsub (l : Fin 16) (dbl : Bool) (d a b : Fin 16) (s : State) : Res :=
  s.coreRow l 4 fun c => c.putF dbl d (fpSub (fmtOf dbl) c.rm (c.getF dbl a) (c.getF dbl b))

/-- FMUL (R167). -/
def execFmul (l : Fin 16) (dbl : Bool) (d a b : Fin 16) (s : State) : Res :=
  s.coreRow l 4 fun c => c.putF dbl d (fpMul (fmtOf dbl) c.rm (c.getF dbl a) (c.getF dbl b))

/-- FDIV (R167). -/
def execFdiv (l : Fin 16) (dbl : Bool) (d a b : Fin 16) (s : State) : Res :=
  s.coreRow l 4 fun c => c.putF dbl d (fpDiv (fmtOf dbl) c.rm (c.getF dbl a) (c.getF dbl b))

/-- FMIN (R167). -/
def execFmin (l : Fin 16) (dbl : Bool) (d a b : Fin 16) (s : State) : Res :=
  s.coreRow l 4 fun c => c.putF dbl d (fpMinMax (fmtOf dbl) false (c.getF dbl a) (c.getF dbl b))

/-- FMAX (R167). -/
def execFmax (l : Fin 16) (dbl : Bool) (d a b : Fin 16) (s : State) : Res :=
  s.coreRow l 4 fun c => c.putF dbl d (fpMinMax (fmtOf dbl) true (c.getF dbl a) (c.getF dbl b))

/-- FSQRT (R167). -/
def execFsqrt (l : Fin 16) (dbl : Bool) (d a : Fin 16) (s : State) : Res :=
  s.coreRow l 4 fun c => c.putF dbl d (fpSqrt (fmtOf dbl) c.rm (c.getF dbl a))

/-- The weight of the sign bit of a precision. -/
def signWeight (dbl : Bool) : Nat := if dbl then 2 ^ 63 else 2 ^ 31

/-- FABS: no flag is set (R167). [DEDUCED, log entry 131] -/
def execFabs (l : Fin 16) (dbl : Bool) (d a : Fin 16) (s : State) : Res :=
  s.coreRow l 4 fun c => c.setF dbl d (c.getF dbl a % signWeight dbl)

/-- FNEG: no flag is set (R167). [DEDUCED, log entry 131] -/
def execFneg (l : Fin 16) (dbl : Bool) (d a : Fin 16) (s : State) : Res :=
  s.coreRow l 4 fun c => c.setF dbl d ((c.getF dbl a + signWeight dbl) % (2 * signWeight dbl))

/-- FMOV: no flag is set (R167). [DEDUCED, log entry 131] -/
def execFmov (l : Fin 16) (dbl : Bool) (d a : Fin 16) (s : State) : Res :=
  s.coreRow l 4 fun c => c.setF dbl d (c.getF dbl a)

/-- FCVT: from precision P to the other (R167). -/
def execFcvt (l : Fin 16) (dbl : Bool) (d a : Fin 16) (s : State) : Res :=
  s.coreRow l 4 fun c => c.putF (!dbl) d (fpConvert (fmtOf dbl) (fmtOf !dbl) c.rm (c.getF dbl a))

/-- FTOI (R167). -/
def execFtoi (l : Fin 16) (dbl : Bool) (d a : Fin 16) (s : State) : Res :=
  s.coreRow l 4 fun c =>
    let (v, fl) := fpToInt (fmtOf dbl) (c.getF dbl a)
    (c.setW d (BitVec.ofInt 64 v)).sticky fl

/-- ITOF (R167). -/
def execItof (l : Fin 16) (dbl : Bool) (d a : Fin 16) (s : State) : Res :=
  s.coreRow l 4 fun c => c.putF dbl d (fpOfInt (fmtOf dbl) c.rm (c.getW a).toInt)

/-- UTOF (R167). -/
def execUtof (l : Fin 16) (dbl : Bool) (d a : Fin 16) (s : State) : Res :=
  s.coreRow l 4 fun c => c.putF dbl d (fpOfInt (fmtOf dbl) c.rm (c.getW a).toNat)

/-- FMVTW: raw bits of the precision (R154, R167). -/
def execFmvtw (l : Fin 16) (dbl : Bool) (d a : Fin 16) (s : State) : Res :=
  s.coreRow l 4 fun c => c.setW d (BitVec.ofNat 64 (c.getF dbl a))

/-- FMVFW: raw bits of the precision (R154, R167). -/
def execFmvfw (l : Fin 16) (dbl : Bool) (d a : Fin 16) (s : State) : Res :=
  s.coreRow l 4 fun c => c.setF dbl d (c.getW a).toNat

/-- FMADD: one rounding (R167). -/
def execFmadd (l : Fin 16) (dbl : Bool) (d a b c : Fin 16) (s : State) : Res :=
  s.coreRow l 4 fun x => x.putF dbl d (fpFma (fmtOf dbl) x.rm false false (x.getF dbl a) (x.getF dbl b) (x.getF dbl c))

/-- FMSUB: one rounding (R167). -/
def execFmsub (l : Fin 16) (dbl : Bool) (d a b c : Fin 16) (s : State) : Res :=
  s.coreRow l 4 fun x => x.putF dbl d (fpFma (fmtOf dbl) x.rm false true (x.getF dbl a) (x.getF dbl b) (x.getF dbl c))

/-- FNMADD: one rounding (R167). [PRESUMED, log entry 56] -/
def execFnmadd (l : Fin 16) (dbl : Bool) (d a b c : Fin 16) (s : State) : Res :=
  s.coreRow l 4 fun x => x.putF dbl d (fpFma (fmtOf dbl) x.rm true true (x.getF dbl a) (x.getF dbl b) (x.getF dbl c))

/-- FNMSUB: one rounding (R167). [PRESUMED, log entry 56] -/
def execFnmsub (l : Fin 16) (dbl : Bool) (d a b c : Fin 16) (s : State) : Res :=
  s.coreRow l 4 fun x => x.putF dbl d (fpFma (fmtOf dbl) x.rm true false (x.getF dbl a) (x.getF dbl b) (x.getF dbl c))

/-- FCMP_EQ (R165, R167). -/
def execFcmpEq (l : Fin 16) (dbl : Bool) (comb : Comb) (k : Fin 4) (a b : Fin 16) (s : State) : Res :=
  s.coreRow l 4 fun c =>
    let (r, fl) := fpCompare (fmtOf dbl) 0 (c.getF dbl a) (c.getF dbl b)
    (c.combine comb k r).sticky fl

/-- FCMP_LT (R165, R167). -/
def execFcmpLt (l : Fin 16) (dbl : Bool) (comb : Comb) (k : Fin 4) (a b : Fin 16) (s : State) : Res :=
  s.coreRow l 4 fun c =>
    let (r, fl) := fpCompare (fmtOf dbl) 1 (c.getF dbl a) (c.getF dbl b)
    (c.combine comb k r).sticky fl

/-- FCMP_LE (R165, R167). -/
def execFcmpLe (l : Fin 16) (dbl : Bool) (comb : Comb) (k : Fin 4) (a b : Fin 16) (s : State) : Res :=
  s.coreRow l 4 fun c =>
    let (r, fl) := fpCompare (fmtOf dbl) 2 (c.getF dbl a) (c.getF dbl b)
    (c.combine comb k r).sticky fl

/-- FCMP_UN (R165, R167). -/
def execFcmpUn (l : Fin 16) (dbl : Bool) (comb : Comb) (k : Fin 4) (a b : Fin 16) (s : State) : Res :=
  s.coreRow l 4 fun c =>
    let (r, fl) := fpCompare (fmtOf dbl) 3 (c.getF dbl a) (c.getF dbl b)
    (c.combine comb k r).sticky fl

end Sys2Proof.Machine
end

