-- ==== Sys2Proof/Machine/LogicImage.lean ====
section
/-! DEFINITION. Image instructions of the logic cores (spec 05, R172 to R176). -/

namespace Sys2Proof.Machine

/-- The integer class of R173. -/
def isInt (ty : Nat) : Bool := decide (1 ≤ ty ∧ ty ≤ 5)
/-- The float class of R173. -/
def isFloat (ty : Nat) : Bool := decide (ty = 8 ∨ ty = 9)

namespace State

/-- An image instruction on the entry it names: IMAGE_RANGE for an index outside the section, IMAGE_TYPE for an entry
of another class, otherwise `f` on the entry's address and type (R174, R176). The entry is met as a load meets memory:
its type with `words` further words of it (R169, R184). [DEDUCED, log entry 140] -/
def imageRow (l : Fin 16) (base : Option (Fin 16)) (x : ImageRead) (off : Imm 10) (words : List Nat)
    (ok : Nat → Bool) (f : Nat → Nat → State → State) (s : State) : Res :=
  s.onCore l fun s =>
    let c := s.core l
    let index := ((base.map c.getW).getD 0) + immU off
    let n := if x.out then s.outCount c.task else s.inCount c.task
    if n ≤ index.toNat then s.trap l .imageRange index
    else
      let addr := (if x.out then s.outSection c.task else s.inSection c.task) + 16 * index.toNat
      (s.eccMeet addr 16).meetLoad l addr (immLen off) x.parity (words.map (addr + ·) ++ [addr + 8]) fun s =>
        let ty := (s.byteAt (addr + 9)).toNat
        if !ok ty then s.trap l .imageType index
        else (f addr ty s).modCore l fun c => c.advance (immLen off)

/-- The value of an integer-class entry, extended by its type (R174). -/
def loadInt (s : State) (addr ty : Nat) : DWord :=
  match ty with
  | 1 => BitVec.ofNat 64 (s.numAt addr 1)
  | 2 => (BitVec.ofNat 32 (s.numAt addr 4)).signExtend 64
  | 3 => BitVec.ofNat 64 (s.numAt addr 4)
  | _ => BitVec.ofNat 64 (s.numAt addr 8)

/-- The quality test of QTEST (R175). -/
def qualityTest (c : CoreSt) (q : Nat) : Bool := (q &&& field c.qtest 7 0) == field c.qtest 15 8

/-- The quality of the entry at an address goes into a flag (R175). -/
def testQuality (l : Nat) (k : Fin 4) (addr : Nat) (s : State) : State :=
  s.modCore l fun c => c.setFlag k (qualityTest c (s.byteAt (addr + 8)).toNat)

end State

/-- IMLD.I. -/
def execImldI (l d : Fin 16) (base : Option (Fin 16)) (x : ImageRead) (k : Fin 4) (off : Imm 10) (s : State) : Res :=
  s.imageRow l base x off [0] isInt fun addr ty s =>
    (s.testQuality l k addr).modCore l fun c => c.setW d (s.loadInt addr ty)

/-- IMLD.F. -/
def execImldF (l d : Fin 16) (base : Option (Fin 16)) (x : ImageRead) (k : Fin 4) (off : Imm 10) (s : State) : Res :=
  s.imageRow l base x off [0] isFloat fun addr ty s =>
    (s.testQuality l k addr).modCore l fun c => c.setF (ty == 9) d (s.numAt addr (typeSize ty))

/-- IMST.I: a BOOL receives 1 for any value but 0. -/
def execImstI (l d : Fin 16) (base : Option (Fin 16)) (off : Imm 10) (s : State) : Res :=
  s.imageRow l base ⟨true, 0⟩ off [] isInt fun addr ty s =>
    let v := ((s.core l).getW d).toNat
    s.setNum addr (typeSize ty) (if ty = 1 then min v 1 else v)

/-- IMST.F. -/
def execImstF (l d : Fin 16) (base : Option (Fin 16)) (off : Imm 10) (s : State) : Res :=
  s.imageRow l base ⟨true, 0⟩ off [] isFloat fun addr ty s => s.setNum addr (typeSize ty) ((s.core l).getV d).toNat

/-- IMQ. -/
def execImq (l d : Fin 16) (base : Option (Fin 16)) (x : ImageRead) (k : Fin 4) (off : Imm 10) (s : State) : Res :=
  s.imageRow l base x off [] (fun ty => isInt ty || isFloat ty) fun addr _ s =>
    (s.testQuality l k addr).modCore l fun c => c.setW d (BitVec.ofNat 64 (s.numAt (addr + 8) 1))

/-- IMTS. -/
def execImts (l d : Fin 16) (base : Option (Fin 16)) (x : ImageRead) (off : Imm 10) (s : State) : Res :=
  s.imageRow l base x off [] (fun ty => isInt ty || isFloat ty) fun addr _ s =>
    s.modCore l fun c => c.setW d (BitVec.ofNat 64 (s.numAt (addr + 12) 4))

end Sys2Proof.Machine
end

