-- ==== Sys2Proof/Machine/SysCmd.lean ====
section
/-! DEFINITION. The SYS access commands (spec 03, R121, R122). -/

namespace Sys2Proof.Machine

/-- The latch of a command channel: 32 for PCIe, 33 for Ethernet (R16, R121). -/
def chanLatch (c : Cmd) : Nat := if c.fromRing then 32 else 33

namespace State

/-- One word of a SYS_READ. [DESIGN CHOICE, log entry 29] -/
def cmdReadWord (who a : Nat) (s : State) : Word × State :=
  if s.regionOf a = .hole then (0xFFFFFFFF, s.accessFault 24 a) else s.memWord who a

/-- One word of a SYS_WRITE. -/
def cmdWriteWord (who : Nat) (auth : Bool) (a : Nat) (v : Word) (s : State) : State :=
  match s.regionOf a with
  | .hole => s.accessFault 24 a
  | .registers => s.regWrite who 24 auth a v
  | _ => s.setNum a 4 v.toNat

/-- The words of a SYS_READ in address order. [DEDUCED, log entry 28] -/
def cmdRead (who a : Nat) : Nat → State → List Byte × State
  | 0, s => ([], s)
  | n + 1, s =>
    let (v, s) := s.cmdReadWord who a
    let (rest, s) := cmdRead who (a + 4) n s
    (leBytes 4 v.toNat ++ rest, s)

/-- The words of a SYS_WRITE in address order. [DEDUCED, log entry 28] -/
def cmdWrite (who : Nat) (auth : Bool) (a : Nat) : Nat → List Byte → State → State
  | 0, _, s => s
  | n + 1, bs, s => cmdWrite who auth (a + 4) n (bs.drop 4) (s.cmdWriteWord who auth a (BitVec.ofNat 32 (fieldAt bs 0 4)))

/-- The field checks of R121: the offset of the faulty field. [DEDUCED, log entry 28] -/
def wordsFault (a n limit : Nat) : Option Nat :=
  if a % 4 ≠ 0 then some 0
  else if n = 0 ∨ limit < n then some 8
  else if 2 ^ 40 < a + 4 * n then some 0
  else none

/-- The index of the first word in a region that is denied to the host; a hole is denied to no one (R121). -/
def firstDenied (s : State) (write : Bool) (a n : Nat) : Option Nat :=
  (List.range n).find? fun i =>
    let r := s.regionOf (a + 4 * i)
    r != .hole && !hostMay write r

/-- SYS_NOP. -/
def sysNop (_ : Cmd) (s : State) : State × CmdEnd := (s, .st .ok)

/-- SYS_HELLO. -/
def sysHello (_ : Cmd) (s : State) : State × CmdEnd :=
  (s, .st .ok (s.regField R.CMD_SESSION 15 0) (s.regField R.CMD_SESSION 31 16))

/-- SYS_READ: a reply buffer that is too small is refused before any access (R100, R121). -/
def sysRead (c : Cmd) (s : State) : State × CmdEnd :=
  let a := c.p 0 8
  let n := c.p 8 4
  match wordsFault a n 16383 with
  | some off => (s, .st .badParam off)
  | none =>
    match s.firstDenied false a n with
    | some i => (s, .st .badParam i 1)
    | none =>
      if c.replyLen < 4 * n then (s, .st .badLength (4 * n))
      else
        let (bytes, s) := s.cmdRead (chanLatch c) a n
        (s, replyOr c bytes)

/-- SYS_WRITE. -/
def sysWrite (c : Cmd) (s : State) : State × CmdEnd :=
  let a := c.p 0 8
  let n := c.p 8 4
  match wordsFault a n 16380 with
  | some off => (s, .st .badParam off)
  | none =>
    if c.len ≠ 12 + 4 * n then (s, badLen (12 + 4 * n))
    else
      match s.firstDenied true a n with
      | some i => (s, .st .badParam i 1)
      | none => (s.cmdWrite (chanLatch c) c.auth a n (c.params.drop 12), .st .ok n)

/-- Firmware and security version of a bank from its header; 0 when the header fails check 1 of R133. -/
def bankVersions (s : State) (b : Nat) : List Byte :=
  let h := s.bankHeader b
  if headerOk h then leBytes 4 (headerVersion h) ++ leBytes 4 (headerSvn h) else zeros 8

/-- The information block of R122. -/
def infoBlock (s : State) : List Byte :=
  let w (a : Nat) : List Byte := leBytes 4 (s.regView 24 a).toNat
  w R.SYS_ID ++ w R.SYS_MEMCFG ++ w R.SYS_BOOT_STATUS ++ w R.SYS_RESET_CAUSE ++ w R.SYS_FUSE_FW ++ w R.SYS_LOCK ++
    s.bankVersions 0 ++ s.bankVersions 1 ++ w R.CMD_SESSION ++ zeros 4 ++
    ((List.range 64).map fun i => w (R.SYS_CAPS i)).flatten ++ (s.pwr.meas.map (padTo 48)).flatten ++ zeros 16

/-- SYS_GET_INFO. -/
def sysGetInfo (c : Cmd) (s : State) : State × CmdEnd := (s, replyOr c s.infoBlock)

/-- SYS_LOCK. -/
def sysLock (_ : Cmd) (s : State) : State × CmdEnd := (s.lockRegs, .st .ok)

end State

def execSysNop (id : Nat) (s : State) : Res := hostRow Op.SYS_NOP id State.sysNop s
def execSysHello (id : Nat) (s : State) : Res := hostRow Op.SYS_HELLO id State.sysHello s
def execSysGetInfo (id : Nat) (s : State) : Res := hostRow Op.SYS_GET_INFO id State.sysGetInfo s
def execSysRead (id : Nat) (s : State) : Res := hostRow Op.SYS_READ id State.sysRead s
def execSysWrite (id : Nat) (s : State) : Res := hostRow Op.SYS_WRITE id State.sysWrite s
def execSysLock (id : Nat) (s : State) : Res := hostRow Op.SYS_LOCK id State.sysLock s

end Sys2Proof.Machine
end

