-- ==== Sys2Proof/Machine/LogicMem.lean ====
section
/-! DEFINITION. Loads, stores and atomics of the logic cores (spec 05, R163, R168, R169, R171, R184; spec 02 R66 to
R68). -/

namespace Sys2Proof.Machine

/-- The address of a load or store: w[A] plus the immediate, modulo 2^40 (R168). -/
def memAddr {n : Nat} (c : CoreSt) (a : Fin 16) (imm : Imm n) : Nat := (c.getW a + immS imm).toNat % 2 ^ 40

namespace State

/-- Whether a logic core's access is refused before it is issued (R34, R37, R39, R40), or is a register access of a
form that R10 rejects. -/
def coreRefused (s : State) (write : Bool) (addr : Nat) (word : Bool) : Bool :=
  match s.regionOf addr with
  | .registers => !word || !s.progMay write addr
  | r => !coreMay write r

/-- An access to DDR waits while crossing 1 is blocked: the instruction has no effect yet (R79).
[DEDUCED, log entry 53] -/
def ddrWaits (s : State) (addr : Nat) : Bool := s.regionOf addr == .ddr && s.crossBlocked 1

/-- An instruction of core `l` that accesses `n` aligned bytes at an address: it has not run while its access waits (R79). -/
def memRow (l addr n : Nat) (f : State → State) (s : State) : Res :=
  if inCode (s.core l).pc.toNat ∧ addr % n = 0 ∧ s.ddrWaits addr then .next s else s.onCore l f

/-- A refused access: a precise BUS_ERROR trap (R168), logged unless R10 rejects its width, which it logs for the host
only. -/
def coreBusError (l addr : Nat) (word : Bool) (s : State) : State :=
  let s := if s.regionOf addr = .registers ∧ !word then s else s.accessFault (s.core l).phys addr
  s.trap l .busError (BitVec.ofNat 64 addr)

/-- A load of `n` bytes: alignment, rights, parity, then `put` writes the destination from the bytes' number; a word with
an uncorrectable error never reaches it and returns an imprecise BUS_ERROR (R168, R169).
[DEDUCED, log entry 58; DESIGN CHOICE, log entry 61] -/
def loadRow (l : Fin 16) (a : Fin 16) (imm : Imm 17) (n : Nat) (word : Bool) (parity : Fin 4)
    (put : Nat → CoreSt → CoreSt) (s : State) : Res :=
  let addr := memAddr (s.core l) a imm
  s.memRow l addr n fun s =>
    if addr % n ≠ 0 then s.trap l .misaligned (BitVec.ofNat 64 addr)
    else if s.coreRefused false addr word then s.coreBusError l addr word
    else
      match s.regionOf addr with
      | .registers =>
        let (v, s) := s.regRead (s.core l).phys addr
        s.modCore l fun c => (put v.toNat c).advance (immLen imm)
      | r =>
        (s.eccMeet addr n).meetLoad l addr (immLen imm) (if r.cached then parity else 0) [addr] fun s =>
          if r = .ddr ∧ !s.ddrReady then
            let (v, s) := s.draw 74
            s.modCore l fun c => (put (v % 2 ^ (8 * n)) c).advance (immLen imm)
          else
            let v := s.numAt addr n
            s.modCore l fun c => (put v c).advance (immLen imm)

/-- The granules of the data area that a task writes in its cycle, kept while the unit is PRIMARY (R514). -/
def markTask (l addr : Nat) (s : State) : State :=
  if s.role ≠ 1 then s
  else
    let t := (s.core l).task
    let old := (tget s.red.taskDirty t).getD []
    let g := addr / 256
    if old.contains g then s else { s with red := { s.red with taskDirty := tput s.red.taskDirty t (g :: old) } }

/-- A store of the low `n` bytes of a value (R163, R168). [DEDUCED, log entry 58] -/
def storeRow (l : Fin 16) (a : Fin 16) (imm : Imm 17) (n : Nat) (word : Bool) (get : CoreSt → Nat) (s : State) : Res :=
  let addr := memAddr (s.core l) a imm
  s.memRow l addr n fun s =>
    let v := get (s.core l)
    if addr % n ≠ 0 then s.trap l .misaligned (BitVec.ofNat 64 addr)
    else if s.coreRefused true addr word then s.coreBusError l addr word
    else
      match s.regionOf addr with
      | .registers =>
        let phys := (s.core l).phys
        (s.modCore l fun c => c.advance (immLen imm)).regWrite phys phys false addr (BitVec.ofNat 32 v)
      | _ => ((s.setNum addr n v).markTask l addr).modCore l fun c => c.advance (immLen imm)

/-! ### Atomics (R66 to R68, R171) -/

/-- Atomics act on shared data SRAM and DDR. [DEDUCED, log entry 60] -/
def atomicOk (s : State) (addr n : Nat) : Bool :=
  addr % n == 0 && (match s.regionOf addr with | .shared | .ddr => true | _ => false)

/-- An atomic: `f` gives the new word from the old one and the operand, both of its size, or none where nothing is
written; the old word goes to w[D], sign-extended in the .W size, and `fl` takes whether it wrote. With one sender every
earlier access has been performed, so the ordering form adds nothing (R67).
[DEDUCED, log entry 60; DESIGN CHOICE, log entry 61] -/
def atomicRow (l : Fin 16) (dbl : Bool) (d a b : Fin 16) (f : Nat → Nat → Nat → Option Nat)
    (fl : Bool → CoreSt → CoreSt) (s : State) : Res :=
  let c := s.core l
  let n := if dbl then 8 else 4
  let addr := (c.getW a).toNat % 2 ^ 40
  s.memRow l addr n fun s =>
    if !s.atomicOk addr n then
      let s := if coreMay true (s.regionOf addr) then s else s.accessFault c.phys addr
      s.trap l .busError (BitVec.ofNat 64 addr)
    else (s.eccMeet addr n).meetLoad l addr 4 0 [addr] fun s =>
      let bits := 8 * n
      let (old, s) := if s.regionOf addr = .ddr ∧ !s.ddrReady then (let (v, s) := s.draw 75; (v % 2 ^ bits, s))
        else (s.numAt addr n, s)
      let r := f old ((c.getW b).toNat % 2 ^ bits) ((c.getW d).toNat % 2 ^ bits)
      let s := match r with
        | some v => (s.setNum addr n v).markTask l addr
        | none => s
      s.modCore l fun c => (fl r.isSome (c.setW d (BitVec.ofInt 64 (toSigned bits old)))).advance 4

end State

/-- A number of `bits` bits extended to a register. -/
def extendS (bits v : Nat) : DWord := BitVec.ofInt 64 (toSigned bits v)

/-! ### Loads -/

/-- LDB. -/
def execLdb (l d a : Fin 16) (imm : Imm 17) (parity : Fin 4) (s : State) : Res :=
  s.loadRow l a imm 1 false parity fun v c => c.setW d (extendS 8 v)
/-- LDBU. -/
def execLdbu (l d a : Fin 16) (imm : Imm 17) (parity : Fin 4) (s : State) : Res :=
  s.loadRow l a imm 1 false parity fun v c => c.setW d (BitVec.ofNat 64 v)
/-- LDH. -/
def execLdh (l d a : Fin 16) (imm : Imm 17) (parity : Fin 4) (s : State) : Res :=
  s.loadRow l a imm 2 false parity fun v c => c.setW d (extendS 16 v)
/-- LDHU. -/
def execLdhu (l d a : Fin 16) (imm : Imm 17) (parity : Fin 4) (s : State) : Res :=
  s.loadRow l a imm 2 false parity fun v c => c.setW d (BitVec.ofNat 64 v)
/-- LDW: the register-space load. -/
def execLdw (l d a : Fin 16) (imm : Imm 17) (parity : Fin 4) (s : State) : Res :=
  s.loadRow l a imm 4 true parity fun v c => c.setW d (extendS 32 v)
/-- LDWU: the register-space load. -/
def execLdwu (l d a : Fin 16) (imm : Imm 17) (parity : Fin 4) (s : State) : Res :=
  s.loadRow l a imm 4 true parity fun v c => c.setW d (BitVec.ofNat 64 v)
/-- LDD. -/
def execLdd (l d a : Fin 16) (imm : Imm 17) (parity : Fin 4) (s : State) : Res :=
  s.loadRow l a imm 8 false parity fun v c => c.setW d (BitVec.ofNat 64 v)
/-- FLDS: the upper half of v[D] is cleared (R154). -/
def execFlds (l d a : Fin 16) (imm : Imm 17) (parity : Fin 4) (s : State) : Res :=
  s.loadRow l a imm 4 false parity fun v c => c.setF false d v
/-- FLDD. -/
def execFldd (l d a : Fin 16) (imm : Imm 17) (parity : Fin 4) (s : State) : Res :=
  s.loadRow l a imm 8 false parity fun v c => c.setF true d v

/-! ### Stores -/

/-- STB. -/
def execStb (l d a : Fin 16) (imm : Imm 17) (s : State) : Res := s.storeRow l a imm 1 false fun c => (c.getW d).toNat
/-- STH. -/
def execSth (l d a : Fin 16) (imm : Imm 17) (s : State) : Res := s.storeRow l a imm 2 false fun c => (c.getW d).toNat
/-- STW: the register-space store. -/
def execStw (l d a : Fin 16) (imm : Imm 17) (s : State) : Res := s.storeRow l a imm 4 true fun c => (c.getW d).toNat
/-- STD. -/
def execStd (l d a : Fin 16) (imm : Imm 17) (s : State) : Res := s.storeRow l a imm 8 false fun c => (c.getW d).toNat
/-- FSTS. -/
def execFsts (l d a : Fin 16) (imm : Imm 17) (s : State) : Res := s.storeRow l a imm 4 false fun c => c.getF false d
/-- FSTD. -/
def execFstd (l d a : Fin 16) (imm : Imm 17) (s : State) : Res := s.storeRow l a imm 8 false fun c => c.getF true d

/-! ### Atomics -/

/-- The smaller, or the larger, of two numbers read as signed. -/
def pickSigned (bits : Nat) (larger : Bool) (x y : Nat) : Nat :=
  if decide (toSigned bits x < toSigned bits y) == larger then y else x

/-- ASWAP. -/
def execAswap (l : Fin 16) (dbl : Bool) (_ord : AtomicOrder) (d a b : Fin 16) (s : State) : Res :=
  s.atomicRow l dbl d a b (fun _ x _ => some x) (fun _ c => c)
/-- AADD. -/
def execAadd (l : Fin 16) (dbl : Bool) (_ord : AtomicOrder) (d a b : Fin 16) (s : State) : Res :=
  s.atomicRow l dbl d a b (fun m x _ => some (m + x)) (fun _ c => c)
/-- AAND. -/
def execAand (l : Fin 16) (dbl : Bool) (_ord : AtomicOrder) (d a b : Fin 16) (s : State) : Res :=
  s.atomicRow l dbl d a b (fun m x _ => some (m &&& x)) (fun _ c => c)
/-- AOR. -/
def execAor (l : Fin 16) (dbl : Bool) (_ord : AtomicOrder) (d a b : Fin 16) (s : State) : Res :=
  s.atomicRow l dbl d a b (fun m x _ => some (m ||| x)) (fun _ c => c)
/-- AXOR. -/
def execAxor (l : Fin 16) (dbl : Bool) (_ord : AtomicOrder) (d a b : Fin 16) (s : State) : Res :=
  s.atomicRow l dbl d a b (fun m x _ => some (m ^^^ x)) (fun _ c => c)
/-- AMIN. -/
def execAmin (l : Fin 16) (dbl : Bool) (_ord : AtomicOrder) (d a b : Fin 16) (s : State) : Res :=
  s.atomicRow l dbl d a b (fun m x _ => some (pickSigned (if dbl then 64 else 32) false m x)) (fun _ c => c)
/-- AMAX. -/
def execAmax (l : Fin 16) (dbl : Bool) (_ord : AtomicOrder) (d a b : Fin 16) (s : State) : Res :=
  s.atomicRow l dbl d a b (fun m x _ => some (pickSigned (if dbl then 64 else 32) true m x)) (fun _ c => c)
/-- AMINU. -/
def execAminu (l : Fin 16) (dbl : Bool) (_ord : AtomicOrder) (d a b : Fin 16) (s : State) : Res :=
  s.atomicRow l dbl d a b (fun m x _ => some (min m x)) (fun _ c => c)
/-- AMAXU. -/
def execAmaxu (l : Fin 16) (dbl : Bool) (_ord : AtomicOrder) (d a b : Fin 16) (s : State) : Res :=
  s.atomicRow l dbl d a b (fun m x _ => some (max m x)) (fun _ c => c)
/-- ACAS: writes where the word equals w[D], and its flag tells whether it wrote. -/
def execAcas (l : Fin 16) (dbl : Bool) (_ord : AtomicOrder) (d a b : Fin 16) (c : Fin 4) (s : State) : Res :=
  s.atomicRow l dbl d a b (fun m x w => if m = w then some x else none) (fun wrote k => k.setFlag c wrote)

end Sys2Proof.Machine
end

