-- ==== Sys2Proof/Machine/Dispatch.lean ====
section
/-! DEFINITION. The one dispatch from a command to its meaning, one arm for each constructor of Instr. -/

namespace Sys2Proof.Machine

def exec (i : Instr) (s : State) : Host.Outcome State Fault Refusal :=
  match i with
  | .sysNop id => Sys2Proof.Machine.execSysNop id s
  | .sysHello id => Sys2Proof.Machine.execSysHello id s
  | .sysGetInfo id => Sys2Proof.Machine.execSysGetInfo id s
  | .sysRead id => Sys2Proof.Machine.execSysRead id s
  | .sysWrite id => Sys2Proof.Machine.execSysWrite id s
  | .sysDomainEnable id => Sys2Proof.Machine.execSysDomainEnable id s
  | .sysDomainDisable id => Sys2Proof.Machine.execSysDomainDisable id s
  | .sysDomainStatus id => Sys2Proof.Machine.execSysDomainStatus id s
  | .sysReset id => Sys2Proof.Machine.execSysReset id s
  | .sysFwWrite id good => Sys2Proof.Machine.execSysFwWrite id good s
  | .sysFwActivate id => Sys2Proof.Machine.execSysFwActivate id s
  | .sysLock id => Sys2Proof.Machine.execSysLock id s
  | .cycLoadProgram id => Sys2Proof.Machine.execCycLoadProgram id s
  | .cycStart id => Sys2Proof.Machine.execCycStart id s
  | .cycStop id => Sys2Proof.Machine.execCycStop id s
  | .cycHold id => Sys2Proof.Machine.execCycHold id s
  | .cycStatus id => Sys2Proof.Machine.execCycStatus id s
  | .cycTaskConfig id => Sys2Proof.Machine.execCycTaskConfig id s
  | .cycForceSet id => Sys2Proof.Machine.execCycForceSet id s
  | .cycForceRelease id => Sys2Proof.Machine.execCycForceRelease id s
  | .cycForceList id => Sys2Proof.Machine.execCycForceList id s
  | .cycChangeLoad id => Sys2Proof.Machine.execCycChangeLoad id s
  | .cycChangeApply id => Sys2Proof.Machine.execCycChangeApply id s
  | .cycChangeValues id => Sys2Proof.Machine.execCycChangeValues id s
  | .cycChangeCancel id => Sys2Proof.Machine.execCycChangeCancel id s
  | .cycReadSignals id => Sys2Proof.Machine.execCycReadSignals id s
  | .cycWriteSignals id => Sys2Proof.Machine.execCycWriteSignals id s
  | .stnSegmentConfig id => Sys2Proof.Machine.execStnSegmentConfig id s
  | .stnSegmentEnable id => Sys2Proof.Machine.execStnSegmentEnable id s
  | .stnSegmentDisable id => Sys2Proof.Machine.execStnSegmentDisable id s
  | .stnAdmit id => Sys2Proof.Machine.execStnAdmit id s
  | .stnRemove id => Sys2Proof.Machine.execStnRemove id s
  | .stnTokenIssue id => Sys2Proof.Machine.execStnTokenIssue id s
  | .stnBoxwoodSet id => Sys2Proof.Machine.execStnBoxwoodSet id s
  | .stnStatus id => Sys2Proof.Machine.execStnStatus id s
  | .stnList id => Sys2Proof.Machine.execStnList id s
  | .solvDescriptorLoad id => Sys2Proof.Machine.execSolvDescriptorLoad id s
  | .solvSubmit id => Sys2Proof.Machine.execSolvSubmit id s
  | .solvCancel id => Sys2Proof.Machine.execSolvCancel id s
  | .solvStatus id => Sys2Proof.Machine.execSolvStatus id s
  | .solvResultRead id => Sys2Proof.Machine.execSolvResultRead id s
  | .solvEngineEnable id => Sys2Proof.Machine.execSolvEngineEnable id s
  | .solvEngineDisable id => Sys2Proof.Machine.execSolvEngineDisable id s
  | .metChannelConfig id => Sys2Proof.Machine.execMetChannelConfig id s
  | .metMeterConfig id => Sys2Proof.Machine.execMetMeterConfig id s
  | .metUserCalWrite id => Sys2Proof.Machine.execMetUserCalWrite id s
  | .metMediumTableWrite id => Sys2Proof.Machine.execMetMediumTableWrite id s
  | .metTariffConfig id => Sys2Proof.Machine.execMetTariffConfig id s
  | .metPulseConfig id => Sys2Proof.Machine.execMetPulseConfig id s
  | .metReadTotals id => Sys2Proof.Machine.execMetReadTotals id s
  | .metReadInterval id => Sys2Proof.Machine.execMetReadInterval id s
  | .netPortConfig id => Sys2Proof.Machine.execNetPortConfig id s
  | .netVlanConfig id => Sys2Proof.Machine.execNetVlanConfig id s
  | .netSaInstall id => Sys2Proof.Machine.execNetSaInstall id s
  | .netSaRemove id => Sys2Proof.Machine.execNetSaRemove id s
  | .netPortStatus id => Sys2Proof.Machine.execNetPortStatus id s
  | .timeConfig id => Sys2Proof.Machine.execTimeConfig id s
  | .timeStatus id => Sys2Proof.Machine.execTimeStatus id s
  | .timeStep id => Sys2Proof.Machine.execTimeStep id s
  | .rtcRead id => Sys2Proof.Machine.execRtcRead id s
  | .rtcSetCalendar id => Sys2Proof.Machine.execRtcSetCalendar id s
  | .rtcSetCount id => Sys2Proof.Machine.execRtcSetCount id s
  | .rtcHalt id => Sys2Proof.Machine.execRtcHalt id s
  | .rtcRelease id => Sys2Proof.Machine.execRtcRelease id s
  | .rtcAlarmSet id => Sys2Proof.Machine.execRtcAlarmSet id s
  | .rtcAlarmClear id => Sys2Proof.Machine.execRtcAlarmClear id s
  | .rtcSetWeekday id => Sys2Proof.Machine.execRtcSetWeekday id s
  | .rtcUtcOffset id => Sys2Proof.Machine.execRtcUtcOffset id s
  | .canConfig id => Sys2Proof.Machine.execCanConfig id s
  | .canEnable id => Sys2Proof.Machine.execCanEnable id s
  | .canDisable id => Sys2Proof.Machine.execCanDisable id s
  | .canSend id => Sys2Proof.Machine.execCanSend id s
  | .canAbort id => Sys2Proof.Machine.execCanAbort id s
  | .canRecover id => Sys2Proof.Machine.execCanRecover id s
  | .canStatus id => Sys2Proof.Machine.execCanStatus id s
  | .keyLoad id => Sys2Proof.Machine.execKeyLoad id s
  | .keyGenerate id => Sys2Proof.Machine.execKeyGenerate id s
  | .keyDerive id => Sys2Proof.Machine.execKeyDerive id s
  | .keyDelete id => Sys2Proof.Machine.execKeyDelete id s
  | .keyExportWrapped id => Sys2Proof.Machine.execKeyExportWrapped id s
  | .keyCrypt id => Sys2Proof.Machine.execKeyCrypt id s
  | .keyAttest id => Sys2Proof.Machine.execKeyAttest id s
  | .keySlotInfo id => Sys2Proof.Machine.execKeySlotInfo id s
  | .redConfig id => Sys2Proof.Machine.execRedConfig id s
  | .redJoin id => Sys2Proof.Machine.execRedJoin id s
  | .redLeave id => Sys2Proof.Machine.execRedLeave id s
  | .redMaintenance id => Sys2Proof.Machine.execRedMaintenance id s
  | .redSwitchover id => Sys2Proof.Machine.execRedSwitchover id s
  | .redStatus id => Sys2Proof.Machine.execRedStatus id s
  | .evrReadSeq id => Sys2Proof.Machine.execEvrReadSeq id s
  | .evrReadTime id => Sys2Proof.Machine.execEvrReadTime id s
  | .evrFreeze id => Sys2Proof.Machine.execEvrFreeze id s
  | .evrThaw id => Sys2Proof.Machine.execEvrThaw id s
  | .evrClear id => Sys2Proof.Machine.execEvrClear id s
  | .evrConfig id => Sys2Proof.Machine.execEvrConfig id s
  | .evrStatus id => Sys2Proof.Machine.execEvrStatus id s
  | .hltLedger id => Sys2Proof.Machine.execHltLedger id s
  | .hltSensors id => Sys2Proof.Machine.execHltSensors id s
  | .hltSpareBringIn id => Sys2Proof.Machine.execHltSpareBringIn id s
  | .hltPerfConfig id => Sys2Proof.Machine.execHltPerfConfig id s
  | .hltPerfRead id => Sys2Proof.Machine.execHltPerfRead id s
  | .hltBandwidth id => Sys2Proof.Machine.execHltBandwidth id s
  | .sqTailDoorbell n v => Sys2Proof.Machine.execSqTailDoorbell n v s
  | .cqHeadDoorbell n v => Sys2Proof.Machine.execCqHeadDoorbell n v s
  | .ringEnable n v => Sys2Proof.Machine.execRingEnable n v s
  | .ringDisable n v => Sys2Proof.Machine.execRingDisable n v s
  | .ringFetch n entry buf => Sys2Proof.Machine.execRingFetch n entry buf s
  | .ringDrainEnd n => Sys2Proof.Machine.execRingDrainEnd n s
  | .busMasterEnableSet => Sys2Proof.Machine.execBusMasterEnableSet s
  | .perstNAssert => Sys2Proof.Machine.execPerstNAssert s
  | .commandDatagram sa addr port udpPort bytes => Sys2Proof.Machine.execCommandDatagram sa addr port udpPort bytes s
  | .authLockoutExpiry => Sys2Proof.Machine.execAuthLockoutExpiry s
  | .splitLoRead ini addr => Sys2Proof.Machine.execSplitLoRead ini addr s
  | .splitLoWrite ini addr v => Sys2Proof.Machine.execSplitLoWrite ini addr v s
  | .splitHiWrite ini addr v => Sys2Proof.Machine.execSplitHiWrite ini addr v s
  | .rcRegisterRead ini addr => Sys2Proof.Machine.execRcRegisterRead ini addr s
  | .registerWrite ini addr v => Sys2Proof.Machine.execRegisterWrite ini addr v s
  | .holeAccess write addr width => Sys2Proof.Machine.execHoleAccess write addr width s
  | .timeNowRead ini => Sys2Proof.Machine.execTimeNowRead ini s
  | .timeRawRead ini => Sys2Proof.Machine.execTimeRawRead ini s
  | .rtcCountRead ini => Sys2Proof.Machine.execRtcCountRead ini s
  | .measWord0Read ini m => Sys2Proof.Machine.execMeasWord0Read ini m s
  | .perfLoRead ini n => Sys2Proof.Machine.execPerfLoRead ini n s
  | .psubmitHiWrite who v => Sys2Proof.Machine.execPsubmitHiWrite who v s
  | .psendHiWrite who v => Sys2Proof.Machine.execPsendHiWrite who v s
  | .xingCompatWrite ini v => Sys2Proof.Machine.execXingCompatWrite ini v s
  | .lvbNewClear b v => Sys2Proof.Machine.execLvbNewClear b v s
  | .rxqHeadWrite c v => Sys2Proof.Machine.execRxqHeadWrite c v s
  | .txcHeadWrite c v => Sys2Proof.Machine.execTxcHeadWrite c v s
  | .powerOnReset => Sys2Proof.Machine.execPowerOnReset s
  | .vddCoreFall torn => Sys2Proof.Machine.execVddCoreFall torn s
  | .resetNLow => Sys2Proof.Machine.execResetNLow s
  | .pfwNHigh1ms flash bad badLog => Sys2Proof.Machine.execPfwNHigh1ms flash bad badLog s
  | .ddrTrainingDone gib => Sys2Proof.Machine.execDdrTrainingDone gib s
  | .ddrZeroingDone => Sys2Proof.Machine.execDdrZeroingDone s
  | .autostart => Sys2Proof.Machine.execAutostart s
  | .pfwNFall => Sys2Proof.Machine.execPfwNFall s
  | .claimWriteAfterSave => Sys2Proof.Machine.execClaimWriteAfterSave s
  | .pfwResume => Sys2Proof.Machine.execPfwResume s
  | .deviceReset => Sys2Proof.Machine.execDeviceReset s
  | .mgtWatchdogExpiry => Sys2Proof.Machine.execMgtWatchdogExpiry s
  | .managementCoreReset => Sys2Proof.Machine.execManagementCoreReset s
  | .thermalReset => Sys2Proof.Machine.execThermalReset s
  | .domainPowerUpDone k => Sys2Proof.Machine.execDomainPowerUpDone k s
  | .domainShutdownDone k => Sys2Proof.Machine.execDomainShutdownDone k s
  | .domainPowerGoodTimeout k => Sys2Proof.Machine.execDomainPowerGoodTimeout k s
  | .domainRailFault k entries ts => Sys2Proof.Machine.execDomainRailFault k entries ts s
  | .blockReset n entries ts => Sys2Proof.Machine.execBlockReset n entries ts s
  | .crossingResync n => Sys2Proof.Machine.execCrossingResync n s
  | .crossingBlockTimeout n ini a => Sys2Proof.Machine.execCrossingBlockTimeout n ini a s
  | .evtEdge m edges high => Sys2Proof.Machine.execEvtEdge m edges high s
  | .evtRequest m => Sys2Proof.Machine.execEvtRequest m s
  | .evtAckAfterRoom m => Sys2Proof.Machine.execEvtAckAfterRoom m s
  | .evtRequestRelease m => Sys2Proof.Machine.execEvtRequestRelease m s
  | .ackWithheldTimeout m => Sys2Proof.Machine.execAckWithheldTimeout m s
  | .addi l d a imm => Sys2Proof.Machine.execAddi l d a imm s
  | .andi l d a imm => Sys2Proof.Machine.execAndi l d a imm s
  | .ori l d a imm => Sys2Proof.Machine.execOri l d a imm s
  | .xori l d a imm => Sys2Proof.Machine.execXori l d a imm s
  | .shli l d a n => Sys2Proof.Machine.execShli l d a n s
  | .shri l d a n => Sys2Proof.Machine.execShri l d a n s
  | .sari l d a n => Sys2Proof.Machine.execSari l d a n s
  | .rori l d a n => Sys2Proof.Machine.execRori l d a n s
  | .movhi l d a imm => Sys2Proof.Machine.execMovhi l d a imm s
  | .add l d a b => Sys2Proof.Machine.execAdd l d a b s
  | .sub l d a b => Sys2Proof.Machine.execSub l d a b s
  | .and l d a b => Sys2Proof.Machine.execAnd l d a b s
  | .or l d a b => Sys2Proof.Machine.execOr l d a b s
  | .xor l d a b => Sys2Proof.Machine.execXor l d a b s
  | .andn l d a b => Sys2Proof.Machine.execAndn l d a b s
  | .shl l d a b => Sys2Proof.Machine.execShl l d a b s
  | .shr l d a b => Sys2Proof.Machine.execShr l d a b s
  | .sar l d a b => Sys2Proof.Machine.execSar l d a b s
  | .ror l d a b => Sys2Proof.Machine.execRor l d a b s
  | .mul l d a b => Sys2Proof.Machine.execMul l d a b s
  | .mulh l d a b => Sys2Proof.Machine.execMulh l d a b s
  | .mulhu l d a b => Sys2Proof.Machine.execMulhu l d a b s
  | .div l d a b => Sys2Proof.Machine.execDiv l d a b s
  | .divu l d a b => Sys2Proof.Machine.execDivu l d a b s
  | .rem l d a b => Sys2Proof.Machine.execRem l d a b s
  | .remu l d a b => Sys2Proof.Machine.execRemu l d a b s
  | .min l d a b => Sys2Proof.Machine.execMin l d a b s
  | .max l d a b => Sys2Proof.Machine.execMax l d a b s
  | .minu l d a b => Sys2Proof.Machine.execMinu l d a b s
  | .maxu l d a b => Sys2Proof.Machine.execMaxu l d a b s
  | .sel l d a b c => Sys2Proof.Machine.execSel l d a b c s
  | .clz l d a => Sys2Proof.Machine.execClz l d a s
  | .ctz l d a => Sys2Proof.Machine.execCtz l d a s
  | .popc l d a => Sys2Proof.Machine.execPopc l d a s
  | .sextB l d a => Sys2Proof.Machine.execSextB l d a s
  | .sextH l d a => Sys2Proof.Machine.execSextH l d a s
  | .sextW l d a => Sys2Proof.Machine.execSextW l d a s
  | .zextW l d a => Sys2Proof.Machine.execZextW l d a s
  | .cmp l comb k cond a b => Sys2Proof.Machine.execCmp l comb k cond a b s
  | .cmpi l comb k cond a imm => Sys2Proof.Machine.execCmpi l comb k cond a imm s
  | .ldb l d a imm parity => Sys2Proof.Machine.execLdb l d a imm parity s
  | .ldbu l d a imm parity => Sys2Proof.Machine.execLdbu l d a imm parity s
  | .ldh l d a imm parity => Sys2Proof.Machine.execLdh l d a imm parity s
  | .ldhu l d a imm parity => Sys2Proof.Machine.execLdhu l d a imm parity s
  | .ldw l d a imm parity => Sys2Proof.Machine.execLdw l d a imm parity s
  | .ldwu l d a imm parity => Sys2Proof.Machine.execLdwu l d a imm parity s
  | .ldd l d a imm parity => Sys2Proof.Machine.execLdd l d a imm parity s
  | .stb l d a imm => Sys2Proof.Machine.execStb l d a imm s
  | .sth l d a imm => Sys2Proof.Machine.execSth l d a imm s
  | .stw l d a imm => Sys2Proof.Machine.execStw l d a imm s
  | .std l d a imm => Sys2Proof.Machine.execStd l d a imm s
  | .flds l d a imm parity => Sys2Proof.Machine.execFlds l d a imm parity s
  | .fldd l d a imm parity => Sys2Proof.Machine.execFldd l d a imm parity s
  | .fsts l d a imm => Sys2Proof.Machine.execFsts l d a imm s
  | .fstd l d a imm => Sys2Proof.Machine.execFstd l d a imm s
  | .aswap l dbl ord d a b => Sys2Proof.Machine.execAswap l dbl ord d a b s
  | .aadd l dbl ord d a b => Sys2Proof.Machine.execAadd l dbl ord d a b s
  | .aand l dbl ord d a b => Sys2Proof.Machine.execAand l dbl ord d a b s
  | .aor l dbl ord d a b => Sys2Proof.Machine.execAor l dbl ord d a b s
  | .axor l dbl ord d a b => Sys2Proof.Machine.execAxor l dbl ord d a b s
  | .amin l dbl ord d a b => Sys2Proof.Machine.execAmin l dbl ord d a b s
  | .amax l dbl ord d a b => Sys2Proof.Machine.execAmax l dbl ord d a b s
  | .aminu l dbl ord d a b => Sys2Proof.Machine.execAminu l dbl ord d a b s
  | .amaxu l dbl ord d a b => Sys2Proof.Machine.execAmaxu l dbl ord d a b s
  | .acas l dbl ord d a b c => Sys2Proof.Machine.execAcas l dbl ord d a b c s
  | .imldI l d base x k off => Sys2Proof.Machine.execImldI l d base x k off s
  | .imldF l d base x k off => Sys2Proof.Machine.execImldF l d base x k off s
  | .imstI l d base off => Sys2Proof.Machine.execImstI l d base off s
  | .imstF l d base off => Sys2Proof.Machine.execImstF l d base off s
  | .imq l d base x k off => Sys2Proof.Machine.execImq l d base x k off s
  | .imts l d base x off => Sys2Proof.Machine.execImts l d base x off s
  | .fadd l dbl d a b => Sys2Proof.Machine.execFadd l dbl d a b s
  | .fsub l dbl d a b => Sys2Proof.Machine.execFsub l dbl d a b s
  | .fmul l dbl d a b => Sys2Proof.Machine.execFmul l dbl d a b s
  | .fdiv l dbl d a b => Sys2Proof.Machine.execFdiv l dbl d a b s
  | .fsqrt l dbl d a => Sys2Proof.Machine.execFsqrt l dbl d a s
  | .fmin l dbl d a b => Sys2Proof.Machine.execFmin l dbl d a b s
  | .fmax l dbl d a b => Sys2Proof.Machine.execFmax l dbl d a b s
  | .fabs l dbl d a => Sys2Proof.Machine.execFabs l dbl d a s
  | .fneg l dbl d a => Sys2Proof.Machine.execFneg l dbl d a s
  | .fmov l dbl d a => Sys2Proof.Machine.execFmov l dbl d a s
  | .fcvt l dbl d a => Sys2Proof.Machine.execFcvt l dbl d a s
  | .ftoi l dbl d a => Sys2Proof.Machine.execFtoi l dbl d a s
  | .itof l dbl d a => Sys2Proof.Machine.execItof l dbl d a s
  | .utof l dbl d a => Sys2Proof.Machine.execUtof l dbl d a s
  | .fmvtw l dbl d a => Sys2Proof.Machine.execFmvtw l dbl d a s
  | .fmvfw l dbl d a => Sys2Proof.Machine.execFmvfw l dbl d a s
  | .fmadd l dbl d a b c => Sys2Proof.Machine.execFmadd l dbl d a b c s
  | .fmsub l dbl d a b c => Sys2Proof.Machine.execFmsub l dbl d a b c s
  | .fnmadd l dbl d a b c => Sys2Proof.Machine.execFnmadd l dbl d a b c s
  | .fnmsub l dbl d a b c => Sys2Proof.Machine.execFnmsub l dbl d a b c s
  | .fcmpEq l dbl comb k a b => Sys2Proof.Machine.execFcmpEq l dbl comb k a b s
  | .fcmpLt l dbl comb k a b => Sys2Proof.Machine.execFcmpLt l dbl comb k a b s
  | .fcmpLe l dbl comb k a b => Sys2Proof.Machine.execFcmpLe l dbl comb k a b s
  | .fcmpUn l dbl comb k a b => Sys2Proof.Machine.execFcmpUn l dbl comb k a b s
  | .b l off => Sys2Proof.Machine.execB l off s
  | .bc l k t off => Sys2Proof.Machine.execBc l k t off s
  | .call l off => Sys2Proof.Machine.execCall l off s
  | .jr l a => Sys2Proof.Machine.execJr l a s
  | .callr l d a => Sys2Proof.Machine.execCallr l d a s
  | .nop l => Sys2Proof.Machine.execNop l s
  | .fenceLd l => Sys2Proof.Machine.execFenceLd l s
  | .fenceSt l => Sys2Proof.Machine.execFenceSt l s
  | .fenceAll l => Sys2Proof.Machine.execFenceAll l s
  | .fenceIo l => Sys2Proof.Machine.execFenceIo l s
  | .cwait l => Sys2Proof.Machine.execCwait l s
  | .holdpt l code => Sys2Proof.Machine.execHoldpt l code s
  | .trap l code => Sys2Proof.Machine.execTrap l code s
  | .eret l => Sys2Proof.Machine.execEret l s
  | .mfs l d num => Sys2Proof.Machine.execMfs l d num s
  | .mts l num a => Sys2Proof.Machine.execMts l num a s
  | .impreciseBusError l addr => Sys2Proof.Machine.execImpreciseBusError l addr s
  | .taskRelease t tableErr => Sys2Proof.Machine.execTaskRelease t tableErr s
  | .copyInDone => Sys2Proof.Machine.execCopyInDone s
  | .copyOutDone => Sys2Proof.Machine.execCopyOutDone s
  | .taskWatchdogExpiry t => Sys2Proof.Machine.execTaskWatchdogExpiry t s
  | .fixedFrameStart => Sys2Proof.Machine.execFixedFrameStart s
  | .modeDrainEnd => Sys2Proof.Machine.execModeDrainEnd s
  | .changeSwitch => Sys2Proof.Machine.execChangeSwitch s
  | .changeWaitTimeout => Sys2Proof.Machine.execChangeWaitTimeout s
  | .storeUpdateDone => Sys2Proof.Machine.execStoreUpdateDone s
  | .inputPhaseStart k => Sys2Proof.Machine.execInputPhaseStart k s
  | .inputFrame k payload => Sys2Proof.Machine.execInputFrame k payload s
  | .inputPhaseEnd k => Sys2Proof.Machine.execInputPhaseEnd k s
  | .stagePhaseStart k => Sys2Proof.Machine.execStagePhaseStart k s
  | .stageAckFrame k payload => Sys2Proof.Machine.execStageAckFrame k payload s
  | .commitDecision k => Sys2Proof.Machine.execCommitDecision k s
  | .commitSend k => Sys2Proof.Machine.execCommitSend k s
  | .serviceWindowStart k => Sys2Proof.Machine.execServiceWindowStart k s
  | .joinReqFrame k mac payload => Sys2Proof.Machine.execJoinReqFrame k mac payload s
  | .joinProofFrame k payload => Sys2Proof.Machine.execJoinProofFrame k payload s
  | .joinVerifyDone k n => Sys2Proof.Machine.execJoinVerifyDone k n s
  | .configAckFrame k payload => Sys2Proof.Machine.execConfigAckFrame k payload s
  | .stationSessionTimeout k n => Sys2Proof.Machine.execStationSessionTimeout k n s
  | .segmentKeySwitch k => Sys2Proof.Machine.execSegmentKeySwitch k s
  | .joinLockoutExpiry serial => Sys2Proof.Machine.execJoinLockoutExpiry serial s
  | .segmentStartDone k => Sys2Proof.Machine.execSegmentStartDone k s
  | .segmentStopDone k => Sys2Proof.Machine.execSegmentStopDone k s
  | .solveJobStart kat => Sys2Proof.Machine.execSolveJobStart kat s
  | .solveIteration ctx r => Sys2Proof.Machine.execSolveIteration ctx r s
  | .jobDeadlineExpiry ctx f => Sys2Proof.Machine.execJobDeadlineExpiry ctx f s
  | .queuedDeadlineExpiry ctx => Sys2Proof.Machine.execQueuedDeadlineExpiry ctx s
  | .runAheadParked ctx => Sys2Proof.Machine.execRunAheadParked ctx s
  | .contextExpiry ctx => Sys2Proof.Machine.execContextExpiry ctx s
  | .engineStartDone e kat => Sys2Proof.Machine.execEngineStartDone e kat s
  | .engineStopDone e => Sys2Proof.Machine.execEngineStopDone e s
  | .laneBringIn e => Sys2Proof.Machine.execLaneBringIn e s
  | .descStoreDone d => Sys2Proof.Machine.execDescStoreDone d s
  | .electricBlockEnd => Sys2Proof.Machine.execElectricBlockEnd s
  | .recordWriteDone n good => Sys2Proof.Machine.execRecordWriteDone n good s
  | .windowBoundary => Sys2Proof.Machine.execWindowBoundary s
  | .closeWaitExpiry m => Sys2Proof.Machine.execCloseWaitExpiry m s
  | .closingRecordWrite good => Sys2Proof.Machine.execClosingRecordWrite good s
  | .demandWindowEnd => Sys2Proof.Machine.execDemandWindowEnd s
  | .pulseOutput p => Sys2Proof.Machine.execPulseOutput p s
  | .portFrameReceived p frame => Sys2Proof.Machine.execPortFrameReceived p frame s
  | .linkUp p offers24 offers10 => Sys2Proof.Machine.execLinkUp p offers24 offers10 s
  | .linkDown p refused => Sys2Proof.Machine.execLinkDown p refused s
  | .fdbAgeing vid mac => Sys2Proof.Machine.execFdbAgeing vid mac s
  | .ptpSample p m => Sys2Proof.Machine.execPtpSample p m s
  | .ppsEdge => Sys2Proof.Machine.execPpsEdge s
  | .ptpMessageSend p kind => Sys2Proof.Machine.execPtpMessageSend p kind s
  | .syncTimeout => Sys2Proof.Machine.execSyncTimeout s
  | .holdoverExpiry => Sys2Proof.Machine.execHoldoverExpiry s
  | .refLost => Sys2Proof.Machine.execRefLost s
  | .rtcFollowUpdate => Sys2Proof.Machine.execRtcFollowUpdate s
  | .rtcCalLearn => Sys2Proof.Machine.execRtcCalLearn s
  | .rtcAlarmFire a => Sys2Proof.Machine.execRtcAlarmFire a s
  | .utcChangeScheduled => Sys2Proof.Machine.execUtcChangeScheduled s
  | .haltTicksOverflow => Sys2Proof.Machine.execHaltTicksOverflow s
  | .rtcAutoRelease => Sys2Proof.Machine.execRtcAutoRelease s
  | .canBusIntegration c => Sys2Proof.Machine.execCanBusIntegration c s
  | .canChannelStopped c => Sys2Proof.Machine.execCanChannelStopped c s
  | .canFrameReceived c f ago valid dominant => Sys2Proof.Machine.execCanFrameReceived c f ago valid dominant s
  | .canTransmitEnd c service r ago => Sys2Proof.Machine.execCanTransmitEnd c service r ago s
  | .busOff c => Sys2Proof.Machine.execBusOff c s
  | .busOffRecovered c => Sys2Proof.Machine.execBusOffRecovered c s
  | .canRefPeriod c => Sys2Proof.Machine.execCanRefPeriod c s
  | .canRefStale c => Sys2Proof.Machine.execCanRefStale c s
  | .lvbAgeStale b => Sys2Proof.Machine.execLvbAgeStale b s
  | .linkWaitExpiry => Sys2Proof.Machine.execLinkWaitExpiry s
  | .birlithTrained ident => Sys2Proof.Machine.execBirlithTrained ident s
  | .birlithLaneFailing lane => Sys2Proof.Machine.execBirlithLaneFailing lane s
  | .heartbeatSend => Sys2Proof.Machine.execHeartbeatSend s
  | .heartbeatMissed => Sys2Proof.Machine.execHeartbeatMissed s
  | .silentIndication => Sys2Proof.Machine.execSilentIndication s
  | .takeoverStart => Sys2Proof.Machine.execTakeoverStart s
  | .takeoverReady => Sys2Proof.Machine.execTakeoverReady s
  | .stateCopySend t => Sys2Proof.Machine.execStateCopySend t s
  | .stateCopyReceived c => Sys2Proof.Machine.execStateCopyReceived c s
  | .fullSyncPassEnd c => Sys2Proof.Machine.execFullSyncPassEnd c s
  | .stateCopyLate t => Sys2Proof.Machine.execStateCopyLate t s
  | .handoverReceived => Sys2Proof.Machine.execHandoverReceived s
  | .handoverAbandon => Sys2Proof.Machine.execHandoverAbandon s
  | .deadmanExpiry => Sys2Proof.Machine.execDeadmanExpiry s
  | .tamperTrip clock => Sys2Proof.Machine.execTamperTrip clock s
  | .rootSecretGenerate => Sys2Proof.Machine.execRootSecretGenerate s
  | .trngHealthFail => Sys2Proof.Machine.execTrngHealthFail s
  | .drbgReseed => Sys2Proof.Machine.execDrbgReseed s
  | .eventRaised src code a b => Sys2Proof.Machine.execEventRaised src code a b s
  | .eventRecordWrite good => Sys2Proof.Machine.execEventRecordWrite good s
  | .freezeLimitExpiry => Sys2Proof.Machine.execFreezeLimitExpiry s
  | .sensorSample v => Sys2Proof.Machine.execSensorSample v s
  | .equivTimeTick => Sys2Proof.Machine.execEquivTimeTick s
  | .ledgerWrite => Sys2Proof.Machine.execLedgerWrite s
  | .spareSelfTest phys pass => Sys2Proof.Machine.execSpareSelfTest phys pass s
  | .coreBringIn l => Sys2Proof.Machine.execCoreBringIn l s
  | .coreBringInWait l => Sys2Proof.Machine.execCoreBringInWait l s
  | .coreBringInRetry l => Sys2Proof.Machine.execCoreBringInRetry l s
  | .rowBringIn => Sys2Proof.Machine.execRowBringIn s
  | .scrubPass ddr corr uncorr => Sys2Proof.Machine.execScrubPass ddr corr uncorr s
  | .perfCounterWrap n => Sys2Proof.Machine.execPerfCounterWrap n s
  | .bandwidthWindowEnd => Sys2Proof.Machine.execBandwidthWindowEnd s
  | .rtcTick x => Sys2Proof.Machine.execRtcTick x s
  | .analogSample raw => Sys2Proof.Machine.execAnalogSample raw s
  | .heartbeatReceived h => Sys2Proof.Machine.execHeartbeatReceived h s
  | .birlithLinkDown => Sys2Proof.Machine.execBirlithLinkDown s
  | .spareLaneTrained => Sys2Proof.Machine.execSpareLaneTrained s
  | .busMasterEnableClear => Sys2Proof.Machine.execBusMasterEnableClear s
  | .illegalInstruction l word => Sys2Proof.Machine.execIllegalInstruction l word s
  | .pdBatPowerUp => Sys2Proof.Machine.execPdBatPowerUp s

end Sys2Proof.Machine
end

