-- ==== Sys2Proof/Machine/Step.lean ====
section
/-! DEFINITION. One step of the block: the command at the front of the queue, or one period of the raw count when no
command waits. -/

namespace Sys2Proof.Machine

/-- Takes the front command and answers exec of it with the queue's rest; on an empty queue one CK_PTP period passes
(R430, DESIGN CHOICE: the table has no row for it). [DESIGN CHOICE, log entries 1, 19; DEDUCED, log entries 3, 17] -/
def step (s : State) : Host.Outcome State Fault Refusal :=
  match s.pending with
  | [] => .next s.tick
  | c :: rest => exec c { s with pending := rest }

/-- The state with the command that a word spells put at the front of its queue. [DEDUCED, log entry 3] -/
def State.withFetchWord (s : State) (nbits w : Nat) : State :=
  match Sys2Proof.decodeTableWord nbits w with
  | some c => { s with pending := c :: s.pending }
  | none => s

end Sys2Proof.Machine
end

