-- ==== Sys2Proof/Safety.lean ====
section
/-! DEFINITION. The terms that the statements use: the canonical form of the tables that State keeps, a host command
that passes the checks, how a command row ends, and what stays unchanged. -/

namespace Sys2Proof.Machine

/-- Memory is in canonical form: addresses rise strictly and no cell holds the 0 that an unlisted address reads as. -/
abbrev Memory.wf (m : List Host.Cell) : Prop := tcanon (fun _ => (0 : Byte)) m = true

/-- The registers, the memories and the flash are in canonical form: keys rise and no entry holds what an unlisted
key reads as. -/
def State.Canonical (s : State) : Prop :=
  tcanon regReset s.regs = true ∧ Memory.wf s.mem ∧ tcanon (fun _ => (0xFF : Byte)) s.flash = true

/-- The command `c` in flight under `id` has opcode `op`, has not started, may start (step 6 of R103), and passes steps 7
to 10, which leave the state `s1`. -/
def Passes (op id : Nat) (c : Cmd) (s s1 : State) : Prop :=
  tget s.host.inflight id = some c ∧ c.opcode = op ∧ c.wait = none ∧ s.mayStart id c = true ∧
    State.step7 c = none ∧ s.step8 c = (s, none) ∧
      ∃ i, opInfo op = some i ∧ s.step9 i c = (s1, none) ∧ s1.step10 i = none

/-- The row `i` answers a next state, in which the command under `id` has ended as `r` says. -/
def Answers (i : Instr) (id : Nat) (s : State) (r : State × CmdEnd) : Prop :=
  exec i s = .next (State.finish id r).admitWaiting

/-- Every byte of memory reads as before. -/
def SameMemory (s t : State) : Prop := ∀ a, t.byteAt a = s.byteAt a

/-- Every register of the register space but those of a list holds what it held. -/
def SameRegs (but : List Nat) (s t : State) : Prop := ∀ a, a ∉ but → t.reg a = s.reg a

/-- Every logical core but one holds what it held. -/
def SameCores (l : Nat) (s t : State) : Prop := ∀ k, k ≠ l → t.core k = s.core k

/-! ### Logic cores -/

/-- Core `l` runs a task at a pc in code SRAM, and its registers are there. -/
def Ready (l : Fin 16) (s : State) : Prop :=
  s.coreRuns l = true ∧ inCode (s.core l).pc.toNat = true ∧ l.val < s.cores.length ∧
    (s.core l).w.length = 16 ∧ (s.core l).v.length = 16

/-- Core `l` becomes `c`; beside it only the performance counters, their overflow bits and the listed registers change. -/
def CoreBecomes (l : Fin 16) (c : CoreSt) (but : List Nat) (s t : State) : Prop :=
  t.core l = c ∧ SameCores l s t ∧ SameRegs (R.HLT_PERF_OVF_LO :: R.HLT_PERF_OVF_HI :: but) s t ∧
    t = { s with cores := t.cores, regs := t.regs, hlt := { s.hlt with perf := t.hlt.perf } }

/-- A core after a write of general register `d` by an instruction of `n` bytes. -/
def CoreSt.wrote (c : CoreSt) (d : Fin 16) (v n : Nat) : CoreSt :=
  { c with w := c.w.set d (BitVec.ofNat 64 v), pc := BitVec.ofNat 40 (c.pc.toNat + n) }

/-- A core after a write of floating-point register `d` by an instruction of `n` bytes. -/
def CoreSt.wroteV (c : CoreSt) (d : Fin 16) (v n : Nat) : CoreSt :=
  { c with v := c.v.set d (BitVec.ofNat 64 v), pc := BitVec.ofNat 40 (c.pc.toNat + n) }

/-- An integer as a register value. -/
def asWord (i : Int) : Nat := (i % 2 ^ 64).toNat

/-- A sign-extended immediate as an integer, and the bytes of its instruction (R160, R161). -/
def immValue {n : Nat} : Imm n → Int × Nat
  | .short v => (v.toInt, 4)
  | .literal w => (w.toInt, 8)

/-- The immediate of the logical forms: a literal is zero-extended (R161, R163). -/
def immBits {n : Nat} : Imm n → Nat × Nat
  | .short v => (asWord v.toInt, 4)
  | .literal w => (w.toNat, 8)

/-- The value of general register `i`. -/
def CoreSt.wv (c : CoreSt) (i : Fin 16) : Nat := (nth 0 c.w i).toNat

/-- The value of general register `i`, read as signed. -/
def CoreSt.wi (c : CoreSt) (i : Fin 16) : Int := toSigned 64 (c.wv i)

/-- The immediate and register forms of the integer instructions in plain arithmetic: core, destination, value, bytes
(R163, R164). -/
def integerResult (s : State) : Instr → Option (Fin 16 × Fin 16 × Nat × Nat)
  | .addi l d a imm => some (l, d, asWord ((s.core l).wi a + (immValue imm).1), (immValue imm).2)
  | .andi l d a imm => some (l, d, (s.core l).wv a &&& (immBits imm).1, (immBits imm).2)
  | .ori l d a imm => some (l, d, (s.core l).wv a ||| (immBits imm).1, (immBits imm).2)
  | .xori l d a imm => some (l, d, (s.core l).wv a ^^^ (immBits imm).1, (immBits imm).2)
  | .movhi l d a imm =>
    some (l, d, (immBits imm).1 % 2 ^ 32 * 2 ^ 32 + (s.core l).wv a % 2 ^ 32, (immBits imm).2)
  | .shli l d a n => some (l, d, (s.core l).wv a * 2 ^ n.val % 2 ^ 64, 4)
  | .shri l d a n => some (l, d, (s.core l).wv a / 2 ^ n.val, 4)
  | .sari l d a n => some (l, d, asWord ((s.core l).wi a / 2 ^ n.val), 4)
  | .rori l d a n =>
    some (l, d, (s.core l).wv a / 2 ^ n.val + (s.core l).wv a % 2 ^ n.val * 2 ^ (64 - n.val), 4)
  | .add l d a b => some (l, d, asWord ((s.core l).wi a + (s.core l).wi b), 4)
  | .sub l d a b => some (l, d, asWord ((s.core l).wi a - (s.core l).wi b), 4)
  | .and l d a b => some (l, d, (s.core l).wv a &&& (s.core l).wv b, 4)
  | .or l d a b => some (l, d, (s.core l).wv a ||| (s.core l).wv b, 4)
  | .xor l d a b => some (l, d, (s.core l).wv a ^^^ (s.core l).wv b, 4)
  | .andn l d a b => some (l, d, (s.core l).wv a &&& (2 ^ 64 - 1 - (s.core l).wv b), 4)
  | .shl l d a b => some (l, d, (s.core l).wv a * 2 ^ ((s.core l).wv b % 64) % 2 ^ 64, 4)
  | .shr l d a b => some (l, d, (s.core l).wv a / 2 ^ ((s.core l).wv b % 64), 4)
  | .sar l d a b => some (l, d, asWord ((s.core l).wi a / 2 ^ ((s.core l).wv b % 64)), 4)
  | .ror l d a b =>
    some (l, d, (s.core l).wv a / 2 ^ ((s.core l).wv b % 64) +
      (s.core l).wv a % 2 ^ ((s.core l).wv b % 64) * 2 ^ (64 - (s.core l).wv b % 64), 4)
  | .min l d a b => some (l, d, asWord (min ((s.core l).wi a) ((s.core l).wi b)), 4)
  | .max l d a b => some (l, d, asWord (max ((s.core l).wi a) ((s.core l).wi b)), 4)
  | .minu l d a b => some (l, d, min ((s.core l).wv a) ((s.core l).wv b), 4)
  | .maxu l d a b => some (l, d, max ((s.core l).wv a) ((s.core l).wv b), 4)
  | .sel l d a b k => some (l, d, if (s.core l).c.toNat.testBit k then (s.core l).wv a else (s.core l).wv b, 4)
  | .sextB l d a => some (l, d, asWord (toSigned 8 ((s.core l).wv a)), 4)
  | .sextH l d a => some (l, d, asWord (toSigned 16 ((s.core l).wv a)), 4)
  | .sextW l d a => some (l, d, asWord (toSigned 32 ((s.core l).wv a)), 4)
  | .zextW l d a => some (l, d, (s.core l).wv a % 2 ^ 32, 4)
  | _ => none

/-- Multiplication, division and the bit counts in plain arithmetic (R164). -/
def multiplyResult (s : State) : Instr → Option (Fin 16 × Fin 16 × Nat × Nat)
  | .mul l d a b => some (l, d, (s.core l).wv a * (s.core l).wv b % 2 ^ 64, 4)
  | .mulh l d a b => some (l, d, asWord ((s.core l).wi a * (s.core l).wi b / 2 ^ 64), 4)
  | .mulhu l d a b => some (l, d, (s.core l).wv a * (s.core l).wv b / 2 ^ 64, 4)
  | .div l d a b =>
    some (l, d, if (s.core l).wv b = 0 then 2 ^ 64 - 1 else asWord (((s.core l).wi a).tdiv ((s.core l).wi b)), 4)
  | .divu l d a b => some (l, d, if (s.core l).wv b = 0 then 2 ^ 64 - 1 else (s.core l).wv a / (s.core l).wv b, 4)
  | .rem l d a b =>
    some (l, d, if (s.core l).wv b = 0 then (s.core l).wv a else asWord (((s.core l).wi a).tmod ((s.core l).wi b)), 4)
  | .remu l d a b => some (l, d, if (s.core l).wv b = 0 then (s.core l).wv a else (s.core l).wv a % (s.core l).wv b, 4)
  | .clz l d a => some (l, d, (List.range 64).countP fun i => decide ((s.core l).wv a < 2 ^ i), 4)
  | .ctz l d a => some (l, d, (List.range 64).countP fun i => (s.core l).wv a % 2 ^ (i + 1) == 0, 4)
  | .popc l d a => some (l, d, (List.range 64).countP fun i => (s.core l).wv a / 2 ^ i % 2 == 1, 4)
  | _ => none

/-- The conditions of R165 in plain arithmetic. -/
def condHolds (cond : Cond) (x y : Nat) : Bool :=
  match cond with
  | .eq => decide (x = y)
  | .ne => decide (x ≠ y)
  | .lt => decide (toSigned 64 x < toSigned 64 y)
  | .ge => decide (toSigned 64 y ≤ toSigned 64 x)
  | .ltu => decide (x < y)
  | .geu => decide (y ≤ x)
  | .tst => decide (x &&& y ≠ 0)

/-- A flag after a compare with the result `r` (COMB of R165). -/
def flagAfter (comb : Comb) (old r : Bool) : Bool :=
  match comb with | .set => r | .and => old && r | .or => old || r

/-- A core whose flag `k` has taken a value in an instruction of `n` bytes. -/
def CoreSt.flagged (c : CoreSt) (comb : Comb) (k : Fin 4) (r : Bool) (n : Nat) : CoreSt :=
  let old := c.c.toNat.testBit k
  let new := flagAfter comb old r
  { c with c := BitVec.ofNat 4 (c.c.toNat - (if old then 2 ^ k.val else 0) + (if new then 2 ^ k.val else 0)),
           pc := BitVec.ofNat 40 (c.pc.toNat + n) }

/-- The pc moved by a signed count of words. -/
def CoreSt.branched (c : CoreSt) (words : Int) : CoreSt :=
  { c with pc := BitVec.ofInt 40 (c.pc.toNat + 4 * words) }

/-- The memory loads: core, address register, immediate, bytes, whether register space takes the form, parity failures,
and the core after the loaded number (R163). -/
def loadForm : Instr → Option (Fin 16 × Fin 16 × Imm 17 × Nat × Bool × Fin 4 × (Nat → Nat → CoreSt → CoreSt))
  | .ldb l d a imm p => some (l, a, imm, 1, false, p, fun v n c => c.wrote d (asWord (toSigned 8 v)) n)
  | .ldbu l d a imm p => some (l, a, imm, 1, false, p, fun v n c => c.wrote d v n)
  | .ldh l d a imm p => some (l, a, imm, 2, false, p, fun v n c => c.wrote d (asWord (toSigned 16 v)) n)
  | .ldhu l d a imm p => some (l, a, imm, 2, false, p, fun v n c => c.wrote d v n)
  | .ldw l d a imm p => some (l, a, imm, 4, true, p, fun v n c => c.wrote d (asWord (toSigned 32 v)) n)
  | .ldwu l d a imm p => some (l, a, imm, 4, true, p, fun v n c => c.wrote d v n)
  | .ldd l d a imm p => some (l, a, imm, 8, false, p, fun v n c => c.wrote d v n)
  | .flds l d a imm p => some (l, a, imm, 4, false, p, fun v n c => c.wroteV d v n)
  | .fldd l d a imm p => some (l, a, imm, 8, false, p, fun v n c => c.wroteV d v n)
  | _ => none

/-- The stores: core, address register, immediate, bytes, whether register space takes the form, and the number stored
(R163). -/
def storeForm (s : State) : Instr → Option (Fin 16 × Fin 16 × Imm 17 × Nat × Bool × Nat)
  | .stb l d a imm => some (l, a, imm, 1, false, (s.core l).wv d % 2 ^ 8)
  | .sth l d a imm => some (l, a, imm, 2, false, (s.core l).wv d % 2 ^ 16)
  | .stw l d a imm => some (l, a, imm, 4, true, (s.core l).wv d % 2 ^ 32)
  | .std l d a imm => some (l, a, imm, 8, false, (s.core l).wv d)
  | .fsts l d a imm => some (l, a, imm, 4, false, (nth 0 (s.core l).v d).toNat % 2 ^ 32)
  | .fstd l d a imm => some (l, a, imm, 8, false, (nth 0 (s.core l).v d).toNat)
  | _ => none

/-- The address that a load or store names (R168). -/
def namedAddress (s : State) (l a : Fin 16) (imm : Imm 17) : Nat :=
  (((s.core l).wv a + (immValue imm).1) % 2 ^ 40).toNat

/-- The atomics: core, size, registers D, A and B, and the new word from the old word, the operand and w[D]
(R171); ACAS names its flag. -/
def atomicForm : Instr →
    Option (Fin 16 × Bool × Fin 16 × Fin 16 × Fin 16 × Option (Fin 4) × (Nat → Nat → Nat → Nat → Option Nat))
  | .aswap l dbl _ d a b => some (l, dbl, d, a, b, none, fun _ _ x _ => some x)
  | .aadd l dbl _ d a b => some (l, dbl, d, a, b, none, fun bits m x _ => some ((m + x) % 2 ^ bits))
  | .aand l dbl _ d a b => some (l, dbl, d, a, b, none, fun _ m x _ => some (m &&& x))
  | .aor l dbl _ d a b => some (l, dbl, d, a, b, none, fun _ m x _ => some (m ||| x))
  | .axor l dbl _ d a b => some (l, dbl, d, a, b, none, fun _ m x _ => some (m ^^^ x))
  | .amin l dbl _ d a b => some (l, dbl, d, a, b, none, fun bits m x _ => some (if toSigned bits x < toSigned bits m then x else m))
  | .amax l dbl _ d a b => some (l, dbl, d, a, b, none, fun bits m x _ => some (if toSigned bits m < toSigned bits x then x else m))
  | .aminu l dbl _ d a b => some (l, dbl, d, a, b, none, fun _ m x _ => some (min m x))
  | .amaxu l dbl _ d a b => some (l, dbl, d, a, b, none, fun _ m x _ => some (max m x))
  | .acas l dbl _ d a b k => some (l, dbl, d, a, b, some k, fun _ m x w => if m = w then some x else none)
  | _ => none

/-- The floating-point instructions that write a v register: core, destination, precision of the result, its bits and
the sticky flags it sets (R154, R166, R167). -/
def floatResult (s : State) : Instr → Option (Fin 16 × Fin 16 × Bool × Nat × Nat)
  | .fadd l dbl d a b => let c := s.core l; of l d dbl (fpAdd (fmtOf dbl) c.rm (c.getF dbl a) (c.getF dbl b))
  | .fsub l dbl d a b => let c := s.core l; of l d dbl (fpSub (fmtOf dbl) c.rm (c.getF dbl a) (c.getF dbl b))
  | .fmul l dbl d a b => let c := s.core l; of l d dbl (fpMul (fmtOf dbl) c.rm (c.getF dbl a) (c.getF dbl b))
  | .fdiv l dbl d a b => let c := s.core l; of l d dbl (fpDiv (fmtOf dbl) c.rm (c.getF dbl a) (c.getF dbl b))
  | .fsqrt l dbl d a => let c := s.core l; of l d dbl (fpSqrt (fmtOf dbl) c.rm (c.getF dbl a))
  | .fmin l dbl d a b => let c := s.core l; of l d dbl (fpMinMax (fmtOf dbl) false (c.getF dbl a) (c.getF dbl b))
  | .fmax l dbl d a b => let c := s.core l; of l d dbl (fpMinMax (fmtOf dbl) true (c.getF dbl a) (c.getF dbl b))
  | .fcvt l dbl d a => let c := s.core l; of l d (!dbl) (fpConvert (fmtOf dbl) (fmtOf !dbl) c.rm (c.getF dbl a))
  | .itof l dbl d a => let c := s.core l; of l d dbl (fpOfInt (fmtOf dbl) c.rm (c.wi a))
  | .utof l dbl d a => let c := s.core l; of l d dbl (fpOfInt (fmtOf dbl) c.rm (c.wv a))
  | .fmadd l dbl d a b c =>
    let x := s.core l; of l d dbl (fpFma (fmtOf dbl) x.rm false false (x.getF dbl a) (x.getF dbl b) (x.getF dbl c))
  | .fmsub l dbl d a b c =>
    let x := s.core l; of l d dbl (fpFma (fmtOf dbl) x.rm false true (x.getF dbl a) (x.getF dbl b) (x.getF dbl c))
  | .fnmadd l dbl d a b c =>
    let x := s.core l; of l d dbl (fpFma (fmtOf dbl) x.rm true true (x.getF dbl a) (x.getF dbl b) (x.getF dbl c))
  | .fnmsub l dbl d a b c =>
    let x := s.core l; of l d dbl (fpFma (fmtOf dbl) x.rm true false (x.getF dbl a) (x.getF dbl b) (x.getF dbl c))
  | .fabs l dbl d a => let c := s.core l; some (l, d, dbl, (c.getF dbl a).shiftLeft 1 % 2 ^ (if dbl then 64 else 32) / 2, 0)
  | .fneg l dbl d a => let c := s.core l; some (l, d, dbl, c.getF dbl a ^^^ 2 ^ (if dbl then 63 else 31), 0)
  | .fmov l dbl d a => let c := s.core l; some (l, d, dbl, c.getF dbl a, 0)
  | .fmvfw l dbl d a => let c := s.core l; some (l, d, dbl, c.wv a, 0)
  | _ => none
where
  of (l d : Fin 16) (dbl : Bool) (r : FpRes) : Option (Fin 16 × Fin 16 × Bool × Nat × Nat) :=
    some (l, d, dbl, r.bits, r.flags)

/-- FCMP: core, how it combines, flag, and the comparison with the sticky flags it sets (R165, R167). -/
def floatCompare (s : State) : Instr → Option (Fin 16 × Comb × Fin 4 × Bool × Nat)
  | .fcmpEq l dbl comb k a b =>
    some (l, comb, k, fpCompare (fmtOf dbl) 0 ((s.core l).getF dbl a) ((s.core l).getF dbl b))
  | .fcmpLt l dbl comb k a b =>
    some (l, comb, k, fpCompare (fmtOf dbl) 1 ((s.core l).getF dbl a) ((s.core l).getF dbl b))
  | .fcmpLe l dbl comb k a b =>
    some (l, comb, k, fpCompare (fmtOf dbl) 2 ((s.core l).getF dbl a) ((s.core l).getF dbl b))
  | .fcmpUn l dbl comb k a b =>
    some (l, comb, k, fpCompare (fmtOf dbl) 3 ((s.core l).getF dbl a) ((s.core l).getF dbl b))
  | _ => none

/-- The index that an image instruction names: w[A], or 0, plus its unsigned offset (R174). -/
def imageIndex (s : State) (l : Fin 16) (base : Option (Fin 16)) (off : Imm 10) : Nat :=
  (((base.map (s.core l).wv).getD 0) + (match off with | .short v => v.toNat | .literal w => w.toNat)) % 2 ^ 64

/-- The address of an image entry of the task on core `l` (R172). -/
def imageEntry (s : State) (l : Fin 16) (out : Bool) (index : Nat) : Nat :=
  (if out then s.outSection (s.core l).task else s.inSection (s.core l).task) + 16 * index

/-- The system registers 0x00 to 0x0F of core `l` (R155). -/
def systemValues (s : State) (l : Fin 16) : List Nat :=
  let c := s.core l
  [c.task, l + 0x100 * c.phys, s.cycleNo c.task, (s.task c.task).release / 2 ^ 32, (s.task c.task).release % 2 ^ 32,
   s.nowSec, c.timeFrac.toNat, s.ccountNow c, (s.reg (R.CYC_IN_COUNT c.task)).toNat,
   (s.reg (R.CYC_OUT_COUNT c.task)).toNat, c.qtest.toNat, c.fcsr.toNat, c.tvec.toNat, c.tcause.toNat, c.tpc.toNat,
   c.tval.toNat]

/-! ### Host commands and direct accesses -/

/-- What the CMAC of the trailer covers (R107): the entry up to the trailer, the parameters of the EXT layout, and the
trailer's first 8 bytes. -/
def authMessageOf (c : Cmd) : List Byte :=
  c.entry.take 0x28 ++ (if c.ext then c.params else []) ++ (c.entry.drop 0x28).take 8

/-- The registers with an RWL field by rising address (R137). -/
def rwlRegsOf : List Nat :=
  [R.CYC_CTRL, R.STN_ETHERTYPE, R.NET_SWITCH_CFG, R.NET_PCP_MAP, R.NET_IPV4_ADDR] ++
    (List.range 21).map R.NET_PORT_LAT ++ [R.XING_COMPAT]

/-- The bytes of the reply that a request declares: a header of 16, and 24 and the padded reply buffer for each item
(R115, R116). -/
def declaredReplyOf (items : List (List Byte × List Byte)) : Nat :=
  items.foldl (fun n x =>
    n + 24 + 8 * (((if (fieldAt x.1 6 2).testBit 4 then fieldAt x.1 0x20 4 else 0) + 7) / 8)) 16

/-- The address that a direct-read row reads. -/
def directReadOf (ini : Fin 32) : Instr → Option Nat
  | .splitLoRead i a => if i = ini ∧ isLo a then some a else none
  | .rcRegisterRead i a => if i = ini ∧ !isLo a then some a else none
  | .timeNowRead i => if i = ini then some R.TIME_NOW_FRAC else none
  | .timeRawRead i => if i = ini then some R.TIME_RAW_W0 else none
  | .rtcCountRead i => if i = ini then some R.RTC_COUNT_FRAC else none
  | .measWord0Read i m => if i = ini then some (R.SYS_MEAS m 0) else none
  | .perfLoRead i n => if i = ini then some (R.HLT_PERF_LO n) else none
  | _ => none

/-- The address and value that a direct-write row writes. -/
def directWriteOf (ini : Fin 32) : Instr → Option (Nat × Word)
  | .splitLoWrite i a v => if i = ini ∧ isLo a then some (a, v) else none
  | .splitHiWrite i a v => if i = ini ∧ isHi a then some (a, v) else none
  | .registerWrite i a v => if i = ini ∧ !isLo a ∧ !isHi a then some (a, v) else none
  | .xingCompatWrite i v => if i = ini then some (R.XING_COMPAT, v) else none
  | _ => none

/-! ### Resets -/

/-- What a power-on reset (`por`) or another cold reset leaves (R143, R146): no command in flight, cores, tasks, stations,
solver, CAN and redundancy at their reset states, memory outside FeRAM cleared, the log kept, and the registers at their
reset values but those of PD_BAT, SYS.RESET_CAUSE and, except at power-on, SYS.LOCK. -/
def ResetTo (por : Bool) (s t : State) : Prop :=
  t.pending = s.pending ∧ t.host = HostSt.reset ∧ t.cores = coresReset ∧ t.cyc = CycSt.reset ∧ t.stn = StnSt.reset ∧
    t.solv = SolvSt.reset ∧ t.can = CanSt.reset ∧ t.red = RedSt.reset ∧ t.net = NetSt.reset ∧ t.poison = [] ∧ t.weak = [] ∧
    t.evr.log = s.evr.log ∧ t.evr.queue = [] ∧ t.key.slots = [] ∧ t.pwr.mgtRuns = false ∧
    (∀ a, ¬(0x3100000 ≤ a ∧ a < 0x3300000) → t.byteAt a = 0) ∧
    (∀ a, a ≠ R.SYS_RESET_CAUSE → (a = R.SYS_LOCK → por = true) →
      (∀ r j k, regRow a = some (r, j, k) → r.bat = false) → t.reg a = regReset a)

/-- The state in which the boot ROM checks the banks: FUSES and ROM steps done (R129, R130). -/
def bootStart (flash : Fin 17) (s : State) : State :=
  let u := ((s.modPwr fun p => { p with pfwLow := false }).setPhase 1).setRegField R.SYS_MEMCFG 12 8 flash
  let u := u.setRegBit R.KEY_STATUS 4 true
  (if u.key.root.isSome ∨ u.rootDeferred then u else u.newRoot).setPhase 2

end Sys2Proof.Machine
end

