-- ==== Sys2Proof/Certificates/Slice0/Obligations.lean ====
section
/-! DEFINITION. The statements about the model for the provers, by part of the spec. -/

open Sys2Proof Sys2Proof.Machine

/-! ### The block, host commands, rings and register access -/

/-- The command at the front of the queue is the one that a step executes, on the state with the queue's rest. -/
def Obligations.StepRunsTheFrontCommand : Prop :=
  ∀ (s : State) (c : Instr) (rest : List Instr),
    step { s with pending := c :: rest } = exec c { s with pending := rest }

/-- R430: (model's choice, see the log entry on the empty queue) with no command waiting one CK_PTP period passes, and
the raw count is all that changes. -/
def Obligations.EmptyQueuePassesOnePeriod : Prop :=
  ∀ s : State, s.pending = [] → step s = .next { s with time := { s.time with raw := s.time.raw + 1 } }

/-- R90, R129, R148, R151, R430: After reset every ring is DISABLED, every switched domain OFF, the boot phase
SUPPLY_WAIT, the raw count 0, the queue empty, and every register reads its reset value. -/
def Obligations.ResetLeavesTheStatedValues : Prop :=
  (∀ a, State.reset.reg a = regReset a) ∧ (∀ n : Fin 16, State.reset.ringState n = 0) ∧
    (∀ k : Fin 12, State.reset.domState k = 0) ∧ State.reset.phase = 0 ∧ State.reset.raw = 0 ∧
    State.reset.pending = [] ∧ State.reset.host.inflight = []

/-- The registers, memories and flash are in canonical form after reset. The model's choices it rests on: log entries
4, 5. -/
def Obligations.ResetStateIsCanonical : Prop :=
  State.reset.Canonical

/-- Every step keeps the registers, the memories and the flash in canonical form. The model's choices it rests on: log
entries 5, 6. -/
def Obligations.EveryStepKeepsCanonicalForm : Prop :=
  ∀ s t : State, s.Canonical → step s = .next t → t.Canonical

/-- R9, R10: A byte, a register and a little-endian number read back what was written, and no other byte or register
changes. The model's choices it rests on: log entries 5, 6. -/
def Obligations.WritesReadBackAndNothingElseChanges : Prop :=
  ∀ s : State, s.Canonical →
    (∀ (a : Nat) (b : Byte), (s.setByte a b).byteAt a = b ∧ ∀ x, x ≠ a → (s.setByte a b).byteAt x = s.byteAt x) ∧
    (∀ (a : Nat) (v : Word), (s.setReg a v).reg a = v ∧ ∀ x, x ≠ a → (s.setReg a v).reg x = s.reg x) ∧
    ∀ a n v : Nat, (s.setNum a n v).numAt a n = v % 256 ^ n ∧
      ∀ x, x < a ∨ a + n ≤ x → (s.setNum a n v).byteAt x = s.byteAt x

/-- R103: A command that may not start stays; one behind a failed chained command ends with ST_CHAIN_BROKEN, one past
its deadline with ST_DEADLINE, and one whose domain is not ON with ST_DOMAIN_OFF, in that order and without any other
effect of its own; a lateness that is no whole number of milliseconds is rounded either way. The model's choices it
rests on: log entries 10, 14, 31. -/
def Obligations.HostCommandChecksRefuseInOrder : Prop :=
  ∀ (op id : Nat) (body : Cmd → State → State × CmdEnd) (s : State) (c : Cmd) (i : OpInfo),
    tget s.host.inflight id = some c → c.opcode = op → c.wait = none → opInfo op = some i →
    (s.mayStart id c = false → hostRow op id body s = .next s.admitWaiting) ∧
    (s.mayStart id c = true →
      (∀ tag st, c.order = 1 → c.prevEnd = some (tag, st) → st ≠ .ok → st ≠ .pending →
        hostRow op id body s = .next (s.complete id .chainBroken tag 0 []).admitWaiting) ∧
      (State.step7 c = none →
        (c.deadline ≠ 0 → c.arrival + usToUnits c.deadline ≤ s.now →
          let late := (s.now - (c.arrival + usToUnits c.deadline)) * 1000
          ∃ (ms : Nat) (t : State), (∃ d, t = { s with draws := d }) ∧
            (ms = late / 2 ^ 32 ∨ (late % 2 ^ 32 ≠ 0 ∧ ms = late / 2 ^ 32 + 1)) ∧
            hostRow op id body s = .next (t.complete id .deadline (satTo 16 ms) 0 []).admitWaiting) ∧
        (s.step8 c = (s, none) → ∀ s1, s.step9 i c = (s1, none) →
          (∀ k, i.dom = .dom k → s1.domOn k = false →
            hostRow op id body s = .next (s1.complete id .domainOff k 0 []).admitWaiting) ∧
          (s1.step10 i = none → hostRow op id body s = .next (State.finish id (body c s1)).admitWaiting))))

/-- R107 to R111, R110: A command that is verified is refused in the lockout, without a trailer, without an operator
slot, with a wrong CMAC (counted and logged) and with a counter that is not higher; otherwise its counter is stored
and logged. The eighth ST_AUTH_FAIL within 60 s starts a lockout of 60 s, which CMD.AUTH_LOCK counts down and which
ends when its time has passed; fewer failures start none. The model's choices it rests on: log entries 33. -/
def Obligations.AuthorisationAndLockout : Prop :=
  (∀ (c : Cmd) (s : State),
     (s.lockedOut = true → s.authorise c = (s, some (.st .authLockout))) ∧
     (s.lockedOut = false →
       (c.auth = false → s.authorise c = (s, some (.st .authRequired))) ∧
       (c.auth = true →
         (s.operatorSlot c.authSlot = none → s.authorise c = (s, some (.st .authSlot))) ∧
         (∀ k, s.operatorSlot c.authSlot = some k → fieldAt c.entry 0x2A 2 = 0 →
           let old := (tget s.key.counters c.authSlot).getD 0
           (Config.aesCmac k.key (authMessageOf c) ≠ slice c.entry 0x30 16 →
             s.authorise c = (s.authFailed c, some (.st .authFail))) ∧
           (Config.aesCmac k.key (authMessageOf c) = slice c.entry 0x30 16 →
             (c.authCounter ≤ old → s.authorise c = (s, some (.st .authReplay (old % 65536) (old / 65536)))) ∧
             (old < c.authCounter → s.pwr.feramHold = false →
               s.authorise c =
                 (({ s with key := { s.key with counters := tput s.key.counters c.authSlot c.authCounter } }).raise srcHost
                   Ev.CMD_AUTHORISED (c.opcode + 0x10000 * c.authSlot) c.authCounter, none))))))) ∧
  ((∀ (c : Cmd) (s : State),
     let recent := s.host.authFails.filter fun t => decide (s.raw < t + 15000000000)
     let u := (s.bump16 R.CMD_AUTH_FAILS 1).raise srcHost Ev.CMD_AUTH_FAIL c.authSlot (c.opcode + 0x10000 * State.chanNumber c)
     (recent.length < 7 → s.authFailed c = { u with host := { u.host with authFails := recent ++ [s.raw] } }) ∧
     (7 ≤ recent.length → s.authFailed c = State.raise srcHost Ev.CMD_AUTH_LOCKOUT 60 0
         { u with host := { u.host with authFails := [], lockUntil := some (s.raw + 15000000000) } } ∧
       (s.authFailed c).lockedOut = true)) ∧
   ∀ (s : State) (t : Nat), s.host.lockUntil = some t →
     (t ≤ s.raw → exec .authLockoutExpiry s = .next { s with host := { s.host with lockUntil := none } }) ∧
     (s.raw < t → ∀ n, 250000000 * n < t - s.raw → t - s.raw ≤ 15000000000 →
       let later := { s with time := { s.time with raw := s.raw + 250000000 * n } }
       (later.regView 24 R.CMD_AUTH_LOCK).toNat + n = (s.regView 24 R.CMD_AUTH_LOCK).toNat ∧
         0 < (later.regView 24 R.CMD_AUTH_LOCK).toNat ∧ (s.regView 24 R.CMD_AUTH_LOCK).toNat ≤ 60))

/-- R94, R101: A command of a ring that completes without reply or notification leaves its place, and its 16 status
bytes and then the shadow word go to the host while Bus Master Enable is 1 and crossing 0 passes traffic; the status
tail moves on. -/
def Obligations.CompletionPostsOneStatusEntry : Prop :=
  ∀ (s : State) (id n : Nat) (c : Cmd) (st : Status) (r0 r1 : Nat), s.Canonical → s.host.bme = true → s.crossBlocked 0 = false →
    n < 16 → tget s.host.inflight id = some c → c.chan = .ring n → c.wantsNotify = false → st ≠ .busy → st ≠ .internal →
    s.host.inflight.Pairwise (fun x y => x.1 < y.1) →
    let t := s.complete id st r0 r1 []
    let tail := (s.reg (R.CMD_RING_CQ_TAIL n)).toNat
    tget t.host.inflight id = none ∧
      t.reg (R.CMD_RING_CQ_TAIL n) = BitVec.ofNat 32 ((tail + 1) % 2 ^ field (s.reg (R.CMD_RING_CFG n)) 7 4) ∧
      SameRegs [R.CMD_RING_CQ_TAIL n] s t ∧ SameMemory s t ∧
      ∃ shadow, t.out = .hostWrite (s.reg64 (R.CMD_RING_SHADOW_LO n) (R.CMD_RING_SHADOW_HI n)) shadow ::
        .hostWrite (s.reg64 (R.CMD_RING_CQ_BASE_LO n) (R.CMD_RING_CQ_BASE_HI n) + 16 * tail)
          (leBytes 2 c.tag ++ leBytes 2 st.code ++ leBytes 2 r0 ++ leBytes 2 r1 ++ leBytes 4 s.nowSec ++
            leBytes 4 (s.now % 2 ^ 32)) :: s.out

/-- R121, R122: SYS_NOP, SYS_HELLO, SYS_GET_INFO, SYS_LOCK, SYS_READ and SYS_WRITE that pass their checks: what they
reply and do, and the refusals of a misaligned, empty or denied range. The model's choices it rests on: log entries
28, 29. -/
def Obligations.SystemAccessCommands : Prop :=
  ∀ (id : Nat) (c : Cmd) (s s1 : State),
    (Passes Op.SYS_NOP id c s s1 → Answers (.sysNop id) id s (s1, .done .ok 0 0 [])) ∧
    (Passes Op.SYS_HELLO id c s s1 → Answers (.sysHello id) id s
      (s1, .done .ok ((s1.reg R.CMD_SESSION).toNat % 65536) ((s1.reg R.CMD_SESSION).toNat / 65536) [])) ∧
    (Passes Op.SYS_GET_INFO id c s s1 → 512 ≤ c.replyLen → s1.infoBlock.length = 512 →
      Answers (.sysGetInfo id) id s (s1, .done .ok 512 0 s1.infoBlock)) ∧
    (Passes Op.SYS_LOCK id c s s1 → (s1.reg R.SYS_LOCK).getLsbD 0 = false →
      Answers (.sysLock id) id s ((s1.setReg R.SYS_LOCK 1).extendDigest 2
        (Config.sha384 (rwlRegsOf.map fun a => leBytes 4 (s1.regView 24 a).toNat).flatten), .done .ok 0 0 [])) ∧
    (Passes Op.SYS_LOCK id c s s1 → (s1.reg R.SYS_LOCK).getLsbD 0 = true →
      Answers (.sysLock id) id s (s1, .done .ok 0 0 [])) ∧
    (let a := c.p 0 8
     let n := c.p 8 4
     (Passes Op.SYS_READ id c s s1 →
       (a % 4 ≠ 0 → Answers (.sysRead id) id s (s1, .done .badParam 0 0 [])) ∧
       (a % 4 = 0 → (n = 0 ∨ 16383 < n) → Answers (.sysRead id) id s (s1, .done .badParam 8 0 [])) ∧
       (a % 4 = 0 → 0 < n → n ≤ 16383 → a + 4 * n ≤ 2 ^ 40 →
         (∀ i, s1.firstDenied false a n = some i → Answers (.sysRead id) id s (s1, .done .badParam i 1 [])) ∧
         (s1.firstDenied false a n = none → 4 * n ≤ c.replyLen →
           Answers (.sysRead id) id s
             ((s1.cmdRead (chanLatch c) a n).2, replyOr c (s1.cmdRead (chanLatch c) a n).1)))) ∧
     (Passes Op.SYS_WRITE id c s s1 → a % 4 = 0 → 0 < n → n ≤ 16380 → a + 4 * n ≤ 2 ^ 40 → c.len = 12 + 4 * n →
       (∀ i, s1.firstDenied true a n = some i → Answers (.sysWrite id) id s (s1, .done .badParam i 1 [])) ∧
       (s1.firstDenied true a n = none →
         Answers (.sysWrite id) id s
           (s1.cmdWrite (chanLatch c) c.auth a n (c.params.drop 12), .done .ok n 0 []))))

/-- R79, R88, R90, R92, R93, R94, R96, R98, R102: Doorbells, enabling and disabling a ring, and the end of its
draining; a blocked crossing 0 passes none of the four. A ring with an entry count of 2^4 to 2^12 and 1 to 128
commands in flight becomes ACTIVE with its indices 0 and its shadow word written; any other configuration leaves it
DISABLED with CAUSE 3. A fetch that the ring allows moves the head on and gives the command a place; a relaxed command
without a place is answered ST_BUSY and any other waits, a failed read of the entry stops the ring, and nothing is
fetched otherwise. The model's choices it rests on: log entries 10, 12, 32, 144. -/
def Obligations.RingsAndTheirFetches : Prop :=
  (∀ (s : State) (n : Fin 16) (v : Word),
     let size := 2 ^ field (s.reg (R.CMD_RING_CFG n)) 7 4
     let head := (s.reg (R.CMD_RING_CQ_HEAD n)).toNat
     let tail := (s.reg (R.CMD_RING_CQ_TAIL n)).toNat
     (s.crossBlocked 0 = true →
       ∀ i ∈ [Instr.sqTailDoorbell n v, .cqHeadDoorbell n v, .ringEnable n v, .ringDisable n v], exec i s = .next s) ∧
     (s.crossBlocked 0 = false →
       (s.ringState n ≠ 1 → exec (.sqTailDoorbell n v) s = .next s ∧ exec (.cqHeadDoorbell n v) s = .next s) ∧
       (s.ringState n = 0 →
         exec (.ringEnable n v) s = .next ((s.setReg (R.CMD_RING_CFG n) ((v ||| 1) &&& 0x00FF0FF1)).ringActivate n)) ∧
       (s.ringState n = 1 ∨ s.ringState n = 3 →
         exec (.ringDisable n v) s = .next ((s.setRegBit (R.CMD_RING_CFG n) 0 false).ringDrain n))) ∧
     (s.crossBlocked 0 = false → s.ringState n = 1 →
       (v.toNat < size → exec (.sqTailDoorbell n v) s = .next (s.setReg (R.CMD_RING_SQ_TAIL n) v)) ∧
       (size ≤ v.toNat → exec (.sqTailDoorbell n v) s = .next (s.ringError n 1) ∧
         exec (.cqHeadDoorbell n v) s = .next (s.ringError n 1)) ∧
       (v.toNat < size → (v.toNat + size - head) % size ≤ (tail + size - head) % size →
         exec (.cqHeadDoorbell n v) s = .next (s.setReg (R.CMD_RING_CQ_HEAD n) v)) ∧
       (v.toNat < size → (tail + size - head) % size < (v.toNat + size - head) % size →
         exec (.cqHeadDoorbell n v) s = .next (s.ringError n 1))) ∧
     (s.ringState n = 2 → s.ringInflight n = 0 → s.regBit (R.CMD_RING_STATUS n) 2 = false →
       exec (.ringDrainEnd n) s = .next (s.setRegField (R.CMD_RING_STATUS n) 2 0 0)) ∧
     (s.ringState n = 2 → s.ringInflight n ≠ 0 → exec (.ringDrainEnd n) s = .next s)) ∧
  (∀ (s : State) (n : Fin 16), s.Canonical →
     let log2 := s.regField (R.CMD_RING_CFG n) 7 4
     let maxIn := s.regField (R.CMD_RING_CFG n) 23 16
     ((log2 < 4 ∨ 12 < log2 ∨ maxIn = 0 ∨ 128 < maxIn) →
       (s.ringActivate n).reg (R.CMD_RING_STATUS n) = 0x30 ∧
         SameRegs [R.CMD_RING_STATUS n] s (s.ringActivate n)) ∧
     (4 ≤ log2 → log2 ≤ 12 → 0 < maxIn → maxIn ≤ 128 →
       let t := s.ringActivate n
       t.ringState n = 1 ∧ t.regField (R.CMD_RING_CFG n) 23 16 = min maxIn (2 ^ log2 - 1) ∧
         t.reg (R.CMD_RING_SQ_HEAD n) = 0 ∧ t.reg (R.CMD_RING_SQ_TAIL n) = 0 ∧ t.reg (R.CMD_RING_CQ_HEAD n) = 0 ∧
         t.reg (R.CMD_RING_CQ_TAIL n) = 0 ∧ SameMemory s t)) ∧
  (∀ (s : State) (n : Fin 16) (entry buf : Option (List Byte)),
     (s.mayFetch n = false → exec (.ringFetch n entry buf) s = .next s) ∧
     (s.mayFetch n = true →
       exec (.ringFetch n none buf) s = .next (s.ringError n 2) ∧
       (∀ e, entry = some e → bit (BitVec.ofNat 16 (fieldAt (padTo 64 e) 6 2)) 4 = false →
         let c := { s.mkCmd (.ring n) e [] (nth ⟨none, none⟩ s.host.last n) with
           params := slice (padTo 64 e) 0x10 (min (fieldAt (padTo 64 e) 4 2) 48) }
         (s.host.inflight.length < 128 →
           exec (.ringFetch n entry buf) s = .next ((s.passHead n).takeCmd c true)) ∧
         (128 ≤ s.host.inflight.length → c.order = 0 →
           exec (.ringFetch n entry buf) s = .next ((s.passHead n).refuseBusy c)) ∧
         (128 ≤ s.host.inflight.length → c.order ≠ 0 → exec (.ringFetch n entry buf) s = .next s))))

/-- R79, R95, R102, R112 to R117, R144, R428, R615: Bus Master Enable releases the held writes in order, unless
crossing 0 is blocked, and then writes the status entries that wait for it; a commanded reset whose entry waited
follows 1 ms later; its clearing holds later ones, and a ring command whose execution ends meanwhile keeps its place.
PERST_N resets the endpoint with its MSI-X table and leaves every register of the block. A request datagram on the
command port of a served command association, the secure channel of its receive SA, is parsed; a new sequence number
makes its items arrive, a known one is answered from the kept reply, and a wrong header or length is dropped and
counted. The model's choices it rests on: log entries 10, 31, 145. -/
def Obligations.EndpointEventsAndDatagrams : Prop :=
  (∀ s : State,
     (let on (p : PwrSt) : State := { s with host := { s.host with bme := true, held := [], ended := [] }, pwr := p,
                                             out := s.host.held.reverse ++ s.out }
      let post (u : State) : State := (s.host.ended.foldl (fun u x =>
        u.completeNow x.1 x.2.1 x.2.2.1 x.2.2.2.1 x.2.2.2.2) u).admitWaiting
      (s.crossBlocked 0 = true →
        exec .busMasterEnableSet s = .next (post { s with host := { s.host with bme := true, ended := [] } })) ∧
      (s.crossBlocked 0 = false →
        (s.pwr.resetDue = none ∨ s.pwr.resetWaits = false → exec .busMasterEnableSet s = .next (post (on s.pwr)) ∧
          (s.host.ended = [] → s.host.datagrams = [] → exec .busMasterEnableSet s = .next (on s.pwr))) ∧
        (∀ at0 kind, s.pwr.resetDue = some (at0, kind) → s.pwr.resetWaits = true →
          exec .busMasterEnableSet s = .next (post (on { s.pwr with
            resetDue := some (s.raw + 250000, kind), resetWaits := false }))))) ∧
     (∀ (id r0 r1 : Nat) (c : Cmd) (st : Status) (reply : List Byte), tget s.host.inflight id = some c →
       c.fromRing = true → s.host.bme = false → c.wait ≠ some .busMaster →
       s.complete id st r0 r1 reply = { s with host := { s.host with
         inflight := tmod (fun d : Cmd => { d with wait := some .busMaster }) s.host.inflight id,
         ended := s.host.ended ++ [(id, st, r0, r1, reply)] } }) ∧
     exec .busMasterEnableClear s = .next { s with host := { s.host with bme := false } } ∧
     ∃ t, exec .perstNAssert s = .next t ∧ t.host = { s.host with bme := false } ∧
       (∀ a, a < 2 ^ 40 → t.reg a = s.reg a) ∧ (∀ a, 2 ^ 40 ≤ a → t.reg a = regReset a) ∧ SameMemory s t) ∧
  (∀ (s : State) (sa addr port udp : Nat) (bytes : List Byte),
     (s.crossBlocked 8 = true ∨ udp ≠ field (s.reg R.CMD_ETH_CFG) 31 16 →
       exec (.commandDatagram sa addr port udp bytes) s = .next s) ∧
     (s.crossBlocked 8 = false → s.domOn 6 = true → s.reg R.NET_IPV4_ADDR ≠ 0 → udp = field (s.reg R.CMD_ETH_CFG) 31 16 →
       (tget s.net.sas sa = none ∨ s.regBit R.CMD_ETH_CFG 0 = false ∨ s.phase ≠ 5 →
         exec (.commandDatagram sa addr port udp bytes) s = .next s.ethDrop) ∧
       (∀ a, tget s.net.sas sa = some a → a.rx = true → s.commandChannel a.channel = true →
         s.regBit R.CMD_ETH_CFG 0 = true → s.phase = 5 →
         ((bytes.length < 16 ∨ s.ethPayload < bytes.length ∨ fieldAt bytes 0 2 ≠ 0x5A47 ∨ fieldAt bytes 2 1 ≠ 1 ∨
             fieldAt bytes 3 1 ≠ 0 ∨ fieldAt bytes 4 1 = 0 ∨ 16 < fieldAt bytes 4 1 ∨ fieldAt bytes 5 3 ≠ 0) →
           exec (.commandDatagram sa addr port udp bytes) s = .next s.ethDrop) ∧
         (s.parseRequest bytes = none → exec (.commandDatagram sa addr port udp bytes) s = .next s.ethDrop) ∧
         (∀ items, s.parseRequest bytes = some items → tget s.host.assocs a.channel = none →
           declaredReplyOf items ≤ s.ethPayload →
           let d : Datagram := ⟨a.channel, addr, port, fieldAt bytes 8 4, fieldAt bytes 12 4, s.now, items, 0, [], items.length⟩
           exec (.commandDatagram sa addr port udp bytes) s = .next (({ s with host := { s.host with
             assocs := tput s.host.assocs a.channel ⟨s.reg R.CMD_SESSION, [fieldAt bytes 8 4], [], addr, port⟩,
             datagrams := tput s.host.datagrams s.host.nextDatagram d,
             nextDatagram := s.host.nextDatagram + 1 } }).admitItems s.host.nextDatagram 17)))))

/-- R10, R12, R13, R14, R16, R17, R34, R79, R87: A direct read waits while crossing 0 is blocked; one that is allowed
returns the register with what the read latches or restarts, whichever row names it; a refused one returns all ones to
the host and is logged. A direct write that is allowed goes to the register by its access codes; one of a privileged
register is ignored and logged, one of a low word is held, and a refused one is only logged. The model's choices it
rests on: log entries 22, 23, 26. -/
def Obligations.DirectReadsAndWrites : Prop :=
  (∀ (s : State) (ini : Fin 32) (i : Instr) (a : Nat), s.powered = true → directReadOf ini i = some a →
     (ini = 25 → s.crossBlocked 0 = true → exec i s = .next s) ∧
     (ini ≠ 25 ∨ s.crossBlocked 0 = false →
     (a % 4 = 0 → s.regMay ini false a = true →
       exec i s = .next ((s.regRead ini a).2.emit (.readData ini a (s.regRead ini a).1))) ∧
     (a % 4 = 0 → ini = 25 → s.regMay ini false a = false →
       exec i s = .next ((s.refuseAccess ini a).emit (.readData 25 a 0xFFFFFFFF))))) ∧
  (∀ (s : State) (ini : Fin 32) (i : Instr) (a : Nat) (v : Word), s.powered = true → directWriteOf ini i = some (a, v) →
     (ini = 25 → s.crossBlocked 0 = true → exec i s = .next s) ∧
     (ini ≠ 25 ∨ s.crossBlocked 0 = false → a % 4 = 0 →
     (s.regMay ini true a = false → exec i s = .next (s.refuseAccess ini a)) ∧
     (s.regMay ini true a = true → ∀ r j k, regRow a = some (r, j, k) →
       (r.priv = true → exec i s = .next (s.accessFault ini a)) ∧
       (r.priv = false → s.rowOff r = true → exec i s = .next s) ∧
       (r.priv = false → s.rowOff r = false → State.ringBase r.base = false → isLo a = true → State.rowTakes r = true →
         exec i s = .next { s with host := { s.host with heldLo := tput s.host.heldLo (State.holdKey ini a) v } }) ∧
       (r.priv = false → s.rowOff r = false → exec i s = .next (s.rowWrite r j k ini a v)))))

/-- R12, R34, R37, R39, R47, R60, R79, R85, R86: A host access to a hole or a region denied to it is logged, and its
read returns all ones; an AtomicOp request is answered as unsupported; shared SRAM is read and written; nothing passes
a blocked crossing 0. A register of a switched domain that is not ON reads 0 and ignores writes, and so does an
address of register space that names no register. The model's choices it rests on: log entries 24, 38. -/
def Obligations.HolesAndAbsentRegisters : Prop :=
  (∀ (s : State) (a : BitVec 40) (w : Fin 65) (data : List Byte), s.powered = true →
     (s.crossBlocked 0 = true → ∀ kind, exec (.holeAccess kind a w) s = .next s) ∧
     (s.crossBlocked 0 = false →
       exec (.holeAccess .atomic a w) s = .next (s.emit (.unsupported a.toNat)) ∧
       (s.regionOf a.toNat = .hole ∨ s.regionOf a.toNat = .config →
         exec (.holeAccess .read a w) s = .next ((s.accessFault 25 a.toNat).emit (.readData 25 a.toNat 0xFFFFFFFF)) ∧
         exec (.holeAccess (.write data) a w) s = .next (s.accessFault 25 a.toNat)) ∧
       (s.regionOf a.toNat = .shared → s.regionOf (a.toNat + w - 1) = .shared →
         (s.weak = [] → s.poison = [] →
           exec (.holeAccess .read a w) s = .next (s.emit (.memData a.toNat (s.bytesAt a.toNat w)))) ∧
         exec (.holeAccess (.write data) a w) s = .next (s.setBytes a.toNat (padTo w data))))) ∧
  (∀ (s : State) (who a : Nat) (v : Word) (auth : Bool),
     (regRow a = none → s.regRead who a = (0, s) ∧ s.regWrite who who auth a v = s) ∧
     (∀ r j k, regRow a = some (r, j, k) → s.rowOff r = true →
       s.regRead who a = (0, s) ∧ (r.priv = false → s.regWrite who who auth a v = s)))

/-! ### Start-up, power and crossings -/

/-- R47, R97, R143, R143 to R145, R146, R430, R619, R622, R632: A fall of VDD_CORE, a low RESET_N and a thermal reset
put the block back: no command in flight, every core, task and engine at its reset state, RESET_CAUSE as the kind
says, memory kept in FeRAM only; the release starts the raw count at 0. 1 ms after its status entry has been written
SYS_RESET kind 1 is a device reset and kind 2 a management-core reset; the watchdog resets the management core; the
third such reset within 600 s is a device reset; before its time nothing happens. The model's choices it rests on: log
entries 36, 48, 49. -/
def Obligations.ResetsPutTheBlockBack : Prop :=
  (∀ s : State,
     (s.pwr.main = true →
       (∃ t, exec (.vddCoreFall none) s = .next t ∧ ResetTo true s t ∧ t.pwr.main = false ∧ t.pwr.inReset = true ∧
         (s.Canonical → t.reg R.SYS_RESET_CAUSE = 1)) ∧
       ∃ t, exec .resetNLow s = .next t ∧ ResetTo false s t ∧ t.pwr.inReset = true ∧
         (s.Canonical → t.reg R.SYS_RESET_CAUSE = setBit (s.reg R.SYS_RESET_CAUSE) 1 true)) ∧
     (∀ torn : Fin 256 × Fin 256, s.pwr.main = true →
       exec (.vddCoreFall (some torn)) s = .next ((((s.bankTorn torn.1 torn.2).coldReset true 0)).modPwr fun p =>
         { p with main := false, inReset := true, pfwLow := true })) ∧
     (s.powered = true → ∃ t, exec .thermalReset s = .next t ∧ ResetTo true s t ∧ t.pwr.inReset = true) ∧
     (s.pwr.inReset = true → ∃ t, exec .powerOnReset s = .next t ∧ t.raw = 0 ∧ t.pwr.main = true ∧
       t.pwr.inReset = false ∧ t.time.tb = s.rtc.count * 2 ^ 32 ∧ t.regs = s.regs ∧ t.mem = s.mem)) ∧
  (∀ (s : State) (at_ : Nat),
     (s.pwr.resetDue = some (at_, 1) →
       (at_ ≤ s.raw → s.pwr.resetWaits = false → exec .deviceReset s = .next (s.ledgerWrite.coldReset false 2)) ∧
       (s.raw < at_ ∨ s.pwr.resetWaits = true → exec .deviceReset s = .next s)) ∧
     (s.pwr.resetDue = some (at_, 2) →
       (at_ ≤ s.raw → s.pwr.resetWaits = false → exec .managementCoreReset s = .next (s.mgtReset 4)) ∧
       (s.raw < at_ ∨ s.pwr.resetWaits = true → exec .managementCoreReset s = .next s)) ∧
     (s.powered = true → s.pwr.mgtRuns = true → exec .mgtWatchdogExpiry s = .next (s.mgtReset 5)) ∧
     (∀ cause, 2 ≤ (s.pwr.mgtResets.filter fun t => decide (s.raw < t + 250 * 600000000)).length →
       s.mgtReset cause = s.coldReset false 3) ∧
     (∀ cause, (s.pwr.mgtResets.filter fun t => decide (s.raw < t + 250 * 600000000)).length < 2 →
       (s.mgtReset cause).host.inflight = [] ∧ (s.mgtReset cause).pwr.resetDue = none ∧
         (s.mgtReset cause).cores = s.abortInflight.cores))

/-- R36, R129 to R136, R142: The boot ROM runs the selected bank when its checks pass, the other bank with an event
when only that one passes, and enters RECOVERY when neither does; it does nothing outside SUPPLY_WAIT. The end of DDR
training gives the installed size once, before a start-up ends, 0 for a size outside 2 to 16 GiB, and zeroing makes
DDR ready with every byte 0; both do nothing while they are not awaited. The model's choices it rests on: log entries
10, 42, 43, 44, 47. -/
def Obligations.BootRomAndDdr : Prop :=
  (∀ (s : State) (flash : Fin 17) (bad : Bool) (badLog : List (Fin 32768)),
     (s.phase ≠ 0 → exec (.pfwNHigh1ms flash bad badLog) s = .next s) ∧
     (s.phase = 0 → s.powered = true →
       let u := bootStart flash s
       let first := if bad then 0 else u.nv.bootSel.getD 0
       (u.bankFault first = none →
         exec (.pfwNHigh1ms flash bad badLog) s = .next (u.bootRun first bad (badLog.map (·.val)))) ∧
       (∀ k, u.bankFault first = some k → u.bankFault (1 - first) = none →
         exec (.pfwNHigh1ms flash bad badLog) s =
           .next (((u.setRegBit R.SYS_BOOT_STATUS 5 true).raise srcMgt Ev.SYS_FW_FALLBACK first k).bootRun (1 - first) bad
             (badLog.map (·.val)))) ∧
       (∀ k j, u.bankFault first = some k → u.bankFault (1 - first) = some j →
         exec (.pfwNHigh1ms flash bad badLog) s = .next u.bootRecovery))) ∧
  (∀ (s : State) (gib : Fin 17),
     (s.domOn 10 = false ∨ s.pwr.ddrWait = false → exec (.ddrTrainingDone gib) s = .next s) ∧
     (s.domOn 10 = true → s.pwr.ddrWait = true → s.pwr.gibSet = false → s.phase < 5 →
       exec (.ddrTrainingDone gib) s = .next (State.bootCheck
         (let u := (s.setRegField R.SYS_MEMCFG 4 0 (if 2 ≤ gib.val then gib.val else 0)).modPwr fun p =>
           { p with gibSet := true }
          u.modPwr fun p => { p with ddrWait := false, ddrZeroing := decide (2 ≤ gib.val) && u.regField R.SYS_MEMCFG 4 0 != 0 }))) ∧
     (s.domOn 10 = true → s.pwr.ddrWait = true → s.pwr.gibSet = true ∨ 5 ≤ s.phase →
       exec (.ddrTrainingDone gib) s = .next (s.modPwr fun p => { p with
         ddrWait := false, ddrZeroing := decide (2 ≤ gib.val) && s.regField R.SYS_MEMCFG 4 0 != 0 }).bootCheck) ∧
     (s.domOn 10 = true → s.pwr.ddrZeroing = true → s.Canonical → s.solv.restoreDue = false →
       ∃ t, exec .ddrZeroingDone s = .next t ∧ t.pwr.ddrZeroing = false ∧ t.regBit R.SYS_MEMCFG 16 = true ∧
         (∀ a, 0x1000000000 ≤ a → a < 0x1400000000 → t.byteAt a = 0) ∧
         (∀ a, a < 0x1000000000 → t.byteAt a = s.byteAt a) ∧ SameRegs [R.SYS_MEMCFG] s t))

/-- R126 to R128, R141, R397, R455: The fall of PFW_N holds FeRAM and saves, its return lets the held writes be made,
with those of a Pewter store that opened meanwhile, AUTOSTART enters Run once when nothing holds it up, and a power-up
of PD_BAT loses what PD_BAT held. The model's choices it rests on: log entries 10, 13, 50, 164. -/
def Obligations.PowerFailAndBatteryEvents : Prop :=
  ∀ s : State,
    (s.powered = false ∨ s.pwr.pfwLow = true → exec .pfwNFall s = .next s) ∧
    (s.powered = true → s.pwr.pfwLow = false → s.domOn 8 = false → s.met.frozen = false →
      let u := ((s.modPwr fun p => { p with pfwLow := true, feramHold := true }).notify 19).modPwr
        fun p => { p with saving := false }
      exec .pfwNFall s = .next (u.raise srcPower Ev.SYS_PFW (u.reg R.MET_SAVE_SEQ).toNat 0)) ∧
    (s.powered = true → s.pwr.feramHold = true →
      let u := (({ s with nv := s.nvNext }).modPwr fun p =>
        { p with pfwLow := false, feramHold := false, saving := false }).raise srcPower Ev.SYS_PFW_RECOVERED 0 0
      exec .pfwResume s = .next (if s.met.waits = true then u.metRestore.metSync.metShow else u.metResume)) ∧
    (s.powered = true → s.pwr.feramHold = false → exec .pfwResume s = .next s) ∧
    (s.phase ≠ 5 ∨ s.mode ≠ 0 ∨ s.role = 2 ∨ s.cyc.autostart = false → exec .autostart s = .next s) ∧
    (s.phase = 5 → s.cyc.autostart = true → s.loaded = true → s.mode = 0 →
      bit s.pwr.startCfg 10 = false → s.red.deciding = false → s.red.standbyDue = false → s.role ≠ 2 →
      s.claimUnknown = false → s.tampered = false → s.startRefusal = none →
      exec .autostart s = .next (s.enterRun true 1)) ∧
    (s.pwr.main = true → exec .pdBatPowerUp s = .next s) ∧
    (s.pwr.main = false → ∃ u, exec .pdBatPowerUp s = .next (State.rtcEvent Ev.RTC_LOST 0 0 u) ∧ u.key.root = none ∧
      u.rtc = RtcSt.reset ∧ u.mem = s.mem ∧
      ∀ a r j k, regRow a = some (r, j, k) → u.reg a = if r.bat then regReset a else s.reg a)

/-- R147 to R150, R148 to R150, R619: SYS_DOMAIN_ENABLE and SYS_DOMAIN_DISABLE by the state of the domain, with the
refusals of R150, and SYS_DOMAIN_STATUS. A domain reaches ON, reaches OFF, misses its power-good or loses its rail:
its state, its event, the commands that wait for it, and what its block does. The model's choices it rests on: log
entries 10, 37, 39, 148. -/
def Obligations.PowerDomains : Prop :=
  (∀ (id : Nat) (c : Cmd) (s s1 : State),
     let k := c.p 0 4
     (Passes Op.SYS_DOMAIN_ENABLE id c s s1 →
       (12 ≤ k → Answers (.sysDomainEnable id) id s (s1, .done .badParam 0 0 [])) ∧
       (k < 12 → s1.domState k = 2 → Answers (.sysDomainEnable id) id s (s1, .done .ok 0 0 [])) ∧
       (k < 12 → s1.domState k = 0 →
         Answers (.sysDomainEnable id) id s (s1.domStart k false, .later (.domainOn k))) ∧
       (k < 12 → s1.domState k = 1 → bit s1.pwr.disableWaiting k = false →
         Answers (.sysDomainEnable id) id s (s1, .later (.domainOn k))) ∧
       (k < 12 → (s1.domState k = 3 ∨ (s1.domState k = 1 ∧ bit s1.pwr.disableWaiting k = true)) →
         Answers (.sysDomainEnable id) id s (s1.setRegBit R.SYS_DOMAIN_PENDING k true, .done .pending 0 0 []))) ∧
     (Passes Op.SYS_DOMAIN_DISABLE id c s s1 →
       (12 ≤ k → Answers (.sysDomainDisable id) id s (s1, .done .badParam 0 0 [])) ∧
       (k < 12 → s1.domState k = 0 → Answers (.sysDomainDisable id) id s (s1, .done .ok 0 0 [])) ∧
       (s1.domState k ≠ 0 → (k < 2 ∨ k = 6 ∨ k = 10) → s1.mode ≠ 0 ∨ s1.regBit R.CYC_MODE 5 = true →
         Answers (.sysDomainDisable id) id s (s1, .done .mode 0 0 [])) ∧
       (s1.domState k ≠ 0 → k = 11 → s1.role ≠ 0 → s1.role ≠ 4 →
         Answers (.sysDomainDisable id) id s (s1, .done .role 0 0 [])) ∧
       (k < 12 → s1.domState k = 2 → s1.disableRefusal k = none → s1.domPending k = false →
         Answers (.sysDomainDisable id) id s ((s1.domIsolate k).setDom k 3, .later (.domainOff k))) ∧
       (k < 12 → s1.domState k = 1 → s1.disableRefusal k = none → s1.domPending k = false →
         Answers (.sysDomainDisable id) id s
           (s1.modPwr fun p => { p with disableWaiting := setBit p.disableWaiting k true }, .later (.domainOff k))) ∧
       (k < 12 → s1.domState k = 3 → s1.disableRefusal k = none → s1.domPending k = true →
         Answers (.sysDomainDisable id) id s
           ((s1.setRegBit R.SYS_DOMAIN_PENDING k false).raise srcPower Ev.SYS_DOMAIN_ENABLE_CANCELLED k 0,
             .later (.domainOff k)))) ∧
     (Passes Op.SYS_DOMAIN_STATUS id c s s1 → 12 ≤ c.replyLen →
       Answers (.sysDomainStatus id) id s (s1, .done .ok 12 0
         (leBytes 4 (s1.reg R.SYS_DOMAIN_STATE).toNat ++ leBytes 4 (s1.reg R.SYS_DOMAIN_PENDING).toNat ++
           leBytes 4 (s1.reg R.SYS_DOMAIN_FAULT).toNat)))) ∧
  (∀ (s : State) (k : Fin 12),
     (s.domState k ≠ 1 → s.domArriveOn k = s ∧
       exec (.domainPowerUpDone k) s = .next s.bootCheck.admitWaiting) ∧
     (s.domState k = 1 → bit s.pwr.disableWaiting k = false →
       let u := (s.setDom k 2).raise srcPower Ev.SYS_DOMAIN_ON k (if bit s.pwr.pendingStart k then 1 else 0)
       let v := State.domUp k (u.modPwr fun p => { p with pendingStart := setBit p.pendingStart k false })
       bit (v.completeWaiting (.domainOn k) .ok 0).pwr.disableWaiting k = false →
       exec (.domainPowerUpDone k) s = .next (v.completeWaiting (.domainOn k) .ok 0).bootCheck.admitWaiting) ∧
     (s.domState k ≠ 3 → exec (.domainShutdownDone k) s = .next s.admitWaiting) ∧
     (s.domState k = 3 →
       let u := ((s.domGone k).setDom k 0).raise srcPower Ev.SYS_DOMAIN_OFF k 0
       exec (.domainShutdownDone k) s =
         .next (State.domNext k (u.completeWaiting (.domainOff k) .ok 0)).admitWaiting) ∧
     (s.domState k = 1 → (nth 0 s.pwr.changedAt k) + 250 * (2000 * powerUpMs k) ≤ s.raw →
       let u := s.modPwr fun p => { p with disableWaiting := setBit p.disableWaiting k false,
                                           pendingStart := setBit p.pendingStart k false }
       let v := (((u.setDom k 0).setRegBit R.SYS_DOMAIN_FAULT k true).raise srcPower Ev.SYS_DOMAIN_FAULT k 0).alertUpdate
       exec (.domainPowerGoodTimeout k) s =
         .next (State.domNext k ((v.completeWaiting (.domainOn k) .domainOff k).completeWaiting (.domainOff k) .ok 0)).bootCheck.admitWaiting) ∧
     (∀ entries trans, s.domOn k = false →
       exec (.domainRailFault k entries trans) s = .next s.bootCheck.admitWaiting) ∧
     (∀ entries trans, s.domOn k = true → k.val < 6 → 2 ≤ k.val →
       exec (.domainRailFault k entries trans) s = .next
         (State.domFault k (State.domGone k (s.blockReset k (nth 0 entries 0)
           (nth [] (trans.map fun ts => ts.map fun t => (t.1.val, t.2)) 0)))).bootCheck.admitWaiting))

/-- R122, R131 to R135, R144: SYS_RESET sets when its reset takes effect, SYS_FW_WRITE writes the next chunk of an
image to the bank that does not run and discards the image when a later chunk does not continue it, and
SYS_FW_ACTIVATE selects a bank that passes its checks. The model's choices it rests on: log entries 12, 44, 47, 51,
147. -/
def Obligations.ResetAndFirmwareCommands : Prop :=
  ∀ (id : Nat) (c : Cmd) (s s1 : State),
    (Passes Op.SYS_RESET id c s s1 →
      (c.p 0 4 ≠ 1 → c.p 0 4 ≠ 2 → Answers (.sysReset id) id s (s1, .done .badParam 0 0 [])) ∧
      (c.p 0 4 = 1 → s1.role = 1 → Answers (.sysReset id) id s (s1, .done .role 0 0 [])) ∧
      (∀ kind, c.p 0 4 = kind → (kind = 2 ∨ (kind = 1 ∧ s1.role ≠ 1)) →
        Answers (.sysReset id) id s
          (s1.modPwr fun p => { p with
            resetDue := some (s1.raw + 250000, kind), resetWaits := c.fromRing && (!s1.host.bme || s1.crossBlocked 0) }, .done .ok 0 0 []))) ∧
    (∀ good, Passes Op.SYS_FW_WRITE id c s s1 →
      let bank := c.p 0 4
      let total := c.p 8 4
      let chunk := c.params.drop 12
      (1 < bank → Answers (.sysFwWrite id good) id s
        (if c.p 4 4 = 0 then s1 else s1.modPwr fun p => { p with fwWrite := none }, .done .badParam 0 0 [])) ∧
      (bank ≤ 1 → c.p 4 4 = 0 → 8192 ≤ total → total ≤ 16777216 → total % 4096 = 0 → 4 ≤ chunk.length →
        chunk.length ≤ 32768 → chunk.length % 4 = 0 → chunk.length ≤ total →
        (s1.phase ≠ 6 → bank = s1.regField R.SYS_BOOT_STATUS 4 4 →
          Answers (.sysFwWrite id good) id s (s1, .done .fwBank 0 0 [])) ∧
        (good = true → (s1.phase = 6 ∨ bank ≠ s1.regField R.SYS_BOOT_STATUS 4 4) →
          Answers (.sysFwWrite id good) id s
            (((s1.eraseFor (bank * 0x1000000) 0 chunk.length).setFlash (bank * 0x1000000) chunk).modPwr fun p =>
              { p with fwWrite := if chunk.length < total then some ⟨bank, total, chunk.length⟩ else none },
              .done .ok (chunk.length % 65536) (chunk.length / 65536) [])))) ∧
    (Passes Op.SYS_FW_ACTIVATE id c s s1 →
      (1 < c.p 0 4 → Answers (.sysFwActivate id) id s (s1, .done .badParam 0 0 [])) ∧
      (∀ k, c.p 0 4 ≤ 1 → s1.bankFault (c.p 0 4) = some k →
        Answers (.sysFwActivate id) id s (s1, .done .fwSignature k 0 [])) ∧
      (c.p 0 4 ≤ 1 → s1.bankFault (c.p 0 4) = none → s1.pwr.feramHold = false →
        Answers (.sysFwActivate id) id s (s1.updNv fun n => { n with bootSel := some (c.p 0 4) }, .done .ok 0 0 [])))

/-- R70, R75 to R77, R79 to R82, R84: A block reset blocks its crossing and counts what it discards, at most what its
two queues hold; the resynchronisation lets it through again with its event and the writes that waited, and a
transaction that waits longer than the limit is discarded with its event. An event input in native mode counts and
logs its edges; in compatibility mode a request is queued alone and acknowledged, or only shown on an input that is
not watched, or withheld while the queue has no room, logged once after 1 ms, and its release lowers the
acknowledgement. The model's choices it rests on: log entries 10, 14, 21, 52, 53, 54. -/
def Obligations.CrossingsAndEventInputs : Prop :=
  (∀ (s : State) (n : Fin 13),
     (∀ entries, s.regBit R.XING_RESYNC_STATUS n = false →
       exec (.blockReset n entries []) s = .next (((s.setRegBit R.XING_RESYNC_STATUS n true).modXing fun x =>
         { x with blockedAt := modNth (fun _ => s.raw) x.blockedAt n }).discard n
           (min entries (2 * nth 0 [64, 64, 32, 32, 32, 32, 16, 16, 64, 64, 32, 16, 64] n)))) ∧
     (∀ entries, s.regBit R.XING_RESYNC_STATUS n = true → exec (.blockReset n entries []) s = .next (s.discard n
       (min entries (2 * nth 0 [64, 64, 32, 32, 32, 32, 16, 16, 64, 64, 32, 16, 64] n)))) ∧
     (s.regBit R.XING_RESYNC_STATUS n = true →
       exec (.crossingResync n) s = .next (((((s.setRegBit R.XING_RESYNC_STATUS n false).bump16 (R.XING_RESYNCS n) 1).raise
         srcXing Ev.XING_RESYNC n (nth 0 s.xing.lost n)).modXing fun x => { x with lost := modNth (fun _ => 0) x.lost n }).releaseHeld)) ∧
     (s.regBit R.XING_RESYNC_STATUS n = false → exec (.crossingResync n) s = .next s) ∧
     (∀ (ini : Fin 32) (addr : BitVec 40) (read : Bool),
       (s.regBit R.XING_RESYNC_STATUS n = true →
         nth 0 s.xing.blockedAt n + 250 * s.regField R.XING_BLOCK_TIMEOUT 15 0 < s.raw →
         exec (.crossingBlockTimeout n ini (addr, read)) s = .next ((((s.discard n 1).setRegBit R.XING_BLOCKED n true).raise
           srcXing Ev.XING_BLOCK_TIMEOUT n ini).busErrorTo ini addr read)) ∧
       (s.regBit R.XING_RESYNC_STATUS n = false → exec (.crossingBlockTimeout n ini (addr, read)) s = .next s) ∧
       (∀ u : State, (∀ l, l < 16 → (u.core l).phys ≠ 25) →
         u.busErrorTo 25 addr read = if read = true then u.emit (.readData 25 addr.toNat 0xFFFFFFFF) else u))) ∧
  (∀ (s : State) (m : Fin 8),
     (∀ edges high, s.domOn 7 = true → s.evtCompat = false → s.regBit R.XING_COMPAT (8 + m) = true → edges ≠ 0 →
       exec (.evtEdge m edges high) s = .next ((((s.modXing fun x => { x with pins := setBit x.pins m high }).modReg (R.XING_EVT_EDGES m)
         (· + BitVec.ofNat 32 edges))).raise (0x28 + m) Ev.EVR_INPUT m edges)) ∧
     (∀ edges high, s.evtCompat = true → exec (.evtEdge m edges high) s = .next s) ∧
     (s.evtCompat = true → bit s.xing.pins m = true → exec (.evtRequest m) s = .next s) ∧
     (s.evtCompat = true → bit s.xing.pins m = false → s.evtOn m = false →
       exec (.evtRequest m) s = .next (s.modXing fun x => { x with pins := setBit x.pins m true })) ∧
     (s.evtCompat = true → s.evtOn m = true → bit s.xing.pins m = false →
       let u := (s.modXing fun x => { x with pins := setBit x.pins m true }).modReg (R.XING_EVT_EDGES m) (· + 1)
       (u.evtRoom = true → exec (.evtRequest m) s = .next (u.evtAccept m u.now)) ∧
       (u.evtRoom = false → exec (.evtRequest m) s = .next ((u.setRegBit R.XING_EVT_STATUS (16 + m) true).modXing fun x =>
         { x with evtStamp := modNth (fun _ => u.now) x.evtStamp m, evtRaw := modNth (fun _ => u.raw) x.evtRaw m,
                  evtLogged := setBit x.evtLogged m false }))) ∧
     (s.evtCompat = true →
       exec (.evtRequestRelease m) s = .next
         (((s.modXing fun x => { x with pins := setBit x.pins m false }).setRegBit R.XING_EVT_STATUS (8 + m) false).setRegBit
           R.XING_EVT_STATUS (16 + m) false)) ∧
     (s.domOn 7 = true → s.regBit R.XING_EVT_STATUS (16 + m) = true → s.evtRoom = true →
       exec (.evtAckAfterRoom m) s = .next (s.evtAccept m (nth 0 s.xing.evtStamp m))) ∧
     (s.evtRoom = false → exec (.evtAckAfterRoom m) s = .next s) ∧
     (s.domOn 7 = true → s.regBit R.XING_EVT_STATUS (16 + m) = true → bit s.xing.evtLogged m = false →
       nth 0 s.xing.evtRaw m + 250000 < s.raw →
       let waited := s.raw - nth 0 s.xing.evtRaw m
       ∃ (us : Nat) (t : State), (∃ d, t = { s with draws := d }) ∧
         (us = waited / 250 ∨ (waited % 250 ≠ 0 ∧ us = waited / 250 + 1)) ∧
         exec (.ackWithheldTimeout m) s = .next ((t.modXing fun x =>
           { x with evtLogged := setBit x.evtLogged m true }).raise srcXing Ev.XING_ACK_WITHHELD m (satTo 32 us))) ∧
     (s.raw ≤ nth 0 s.xing.evtRaw m + 250000 → exec (.ackWithheldTimeout m) s = .next s))

/-! ### Logic cores -/

/-- R163, R164: ADDI to RORI, the logical, shift, minimum and maximum forms, SEL and the extensions: w[D] takes the
value in plain arithmetic, the pc moves past the instruction, and nothing else of the state changes but performance
counts. MUL to REMU with the quotients of a division by zero, CLZ, CTZ and POPC: value, pc and frame. -/
def Obligations.AluInstructionResults : Prop :=
  (∀ (s : State) (i : Instr) (l d : Fin 16) (v n : Nat), integerResult s i = some (l, d, v, n) → Ready l s →
     ∃ t, exec i s = .next t ∧ CoreBecomes l ((s.core l).wrote d v n) [] s t) ∧
  (∀ (s : State) (i : Instr) (l d : Fin 16) (v n : Nat), multiplyResult s i = some (l, d, v, n) → Ready l s →
     ∃ t, exec i s = .next t ∧ CoreBecomes l ((s.core l).wrote d v n) [] s t)

/-- R165, R167: CMP, CMPI and the four FCMP forms write one flag by COMB, and FCMP its sticky flags; nothing else
changes. -/
def Obligations.CompareInstructionsWriteOneFlag : Prop :=
  (∀ (s : State) (l : Fin 16) (comb : Comb) (k : Fin 4) (cond : Cond) (a b : Fin 16), Ready l s →
    ∃ t, exec (.cmp l comb k cond a b) s = .next t ∧
      CoreBecomes l ((s.core l).flagged comb k (condHolds cond ((s.core l).wv a) ((s.core l).wv b)) 4) [] s t) ∧
  (∀ (s : State) (l : Fin 16) (comb : Comb) (k : Fin 4) (cond : Cond) (a : Fin 16) (imm : Imm 14), Ready l s →
    ∃ t, exec (.cmpi l comb k cond a imm) s = .next t ∧
      CoreBecomes l ((s.core l).flagged comb k (condHolds cond ((s.core l).wv a) (asWord (immValue imm).1))
        (immValue imm).2) [] s t) ∧
  ∀ (s : State) (i : Instr) (l : Fin 16) (comb : Comb) (k : Fin 4) (r : Bool × Nat),
    floatCompare s i = some (l, comb, k, r) → Ready l s →
    ∃ t, exec i s = .next t ∧
      CoreBecomes l (((s.core l).flagged comb k r.1 4).sticky r.2) [] s t

/-- R27, R37, R79, R163, R168, R184: An aligned load of code or shared data SRAM, or of DDR after its zeroing, where
no word holds an uncorrectable error, gives the destination the little-endian number at w[A] + imm modulo 2^40,
extended as its form says; single-bit errors that it meets are corrected first; fewer than three parity failures of
the line only count as refetches. An access to DDR waits while crossing 1 is blocked. LDW and LDWU of a register that
its chapter opens to the program read it, with what the read does (R13, R16). The model's choices it rests on: log
entries 5, 53, 59. -/
def Obligations.LoadsReadMemoryAndRegisters : Prop :=
  (∀ (s : State) (i : Instr) (l a : Fin 16) (imm : Imm 17) (n : Nat) (word : Bool) (p : Fin 4)
     (put : Nat → Nat → CoreSt → CoreSt),
     loadForm i = some (l, a, imm, n, word, p, put) → Ready l s →
     let addr := namedAddress s l a imm
     addr % n = 0 →
     (s.regionOf addr = .ddr → s.crossBlocked 1 = true → exec i s = .next s) ∧
     (p.val < 3 → s.poisoned addr = false →
     (s.regionOf addr = .code ∨ s.regionOf addr = .shared ∨
       (s.regionOf addr = .ddr ∧ s.ddrReady = true ∧ s.crossBlocked 1 = false)) →
     ∃ t, exec i s = .next t ∧
       CoreBecomes l (put (s.numAt addr n) (immValue imm).2 (s.core l)) [R.LC_PARITY_REFETCH l] (s.eccMeet addr n) t ∧
       (s.Canonical → t.reg (R.LC_PARITY_REFETCH l) = satAdd (s.reg (R.LC_PARITY_REFETCH l)) p))) ∧
  (∀ (s : State) (i : Instr) (l a : Fin 16) (imm : Imm 17) (p : Fin 4) (put : Nat → Nat → CoreSt → CoreSt),
     loadForm i = some (l, a, imm, 4, true, p, put) → Ready l s →
     let addr := namedAddress s l a imm
     addr % 4 = 0 → s.regionOf addr = .registers → s.progMay false addr = true →
     ∃ t, exec i s = .next t ∧
       t.core l = put ((s.regRead (s.core l).phys addr).1).toNat (immValue imm).2 (s.core l) ∧
       SameCores l s t ∧ SameMemory s t)

/-- R39, R66, R168, R169, R171, R176, R184: A load or store that is misaligned takes a MISALIGNED trap; one of a
region that it may not access takes a BUS_ERROR trap with the access logged; the third parity failure in a row takes a
MACHINE_CHECK trap; a load of a word with an uncorrectable error passes and takes an imprecise BUS_ERROR trap. An
atomic on any other memory or a misaligned one takes a BUS_ERROR trap. An image instruction whose index lies outside
its section takes an IMAGE_RANGE trap, and one on an entry of another class an IMAGE_TYPE trap; the third parity
failure in a row of the entry's line takes a MACHINE_CHECK trap. The model's choices it rests on: log entries 25, 58,
59, 60, 140. -/
def Obligations.RefusedAccessesTrap : Prop :=
  ((∀ (s : State) (i : Instr) (l a : Fin 16) (imm : Imm 17) (n : Nat) (word : Bool) (p : Fin 4)
     (put : Nat → Nat → CoreSt → CoreSt),
     loadForm i = some (l, a, imm, n, word, p, put) → Ready l s →
     let addr := namedAddress s l a imm
     (addr % n ≠ 0 → exec i s = .next (State.retire l s (s.trap l .misaligned (BitVec.ofNat 64 addr)))) ∧
     (addr % n = 0 → s.regionOf addr = .hole →
       exec i s = .next (State.retire l s
         ((s.accessFault (s.core l).phys addr).trap l .busError (BitVec.ofNat 64 addr)))) ∧
     (addr % n = 0 → p.val = 3 → s.regionOf addr = .shared →
       exec i s = .next (State.retire l s (((s.eccMeet addr n).bump (R.LC_PARITY_REFETCH l) 2).parityTrap l addr))) ∧
     (addr % n = 0 → p.val = 0 → s.regionOf addr = .shared → s.poisoned addr = true →
       let u := ((s.eccMeet addr n).modCore l fun c => c.advance (immValue imm).2).eccUncorrectable (addr / 8 * 8)
       exec i s = .next (State.retire l s (u.trapAt l .busError (u.core l).pc (BitVec.ofNat 64 addr) true)))) ∧
   ∀ (s : State) (i : Instr) (l a : Fin 16) (imm : Imm 17) (n : Nat) (word : Bool) (v : Nat),
     storeForm s i = some (l, a, imm, n, word, v) → Ready l s →
     let addr := namedAddress s l a imm
     (addr % n ≠ 0 → exec i s = .next (State.retire l s (s.trap l .misaligned (BitVec.ofNat 64 addr)))) ∧
     (addr % n = 0 → (s.regionOf addr = .code ∨ s.regionOf addr = .hole ∨ s.regionOf addr = .config) →
       exec i s = .next (State.retire l s
         ((s.accessFault (s.core l).phys addr).trap l .busError (BitVec.ofNat 64 addr))))) ∧
  (∀ (s : State) (i : Instr) (l : Fin 16) (dbl : Bool) (d a b : Fin 16) (f : Nat → Nat → Nat → Nat → Option Nat)
     (k : Option (Fin 4)), atomicForm i = some (l, dbl, d, a, b, k, f) → Ready l s →
     let addr := (s.core l).wv a % 2 ^ 40
     (s.regionOf addr = .shared → addr % (if dbl then 8 else 4) ≠ 0 →
       exec i s = .next (State.retire l s (s.trap l .busError (BitVec.ofNat 64 addr)))) ∧
     ((s.regionOf addr = .code ∨ s.regionOf addr = .registers ∨ s.regionOf addr = .hole) →
       exec i s = .next (State.retire l s
         ((s.accessFault (s.core l).phys addr).trap l .busError (BitVec.ofNat 64 addr))))) ∧
  (∀ (s : State) (l d : Fin 16) (base : Option (Fin 16)) (out : Bool) (k p : Fin 4) (off : Imm 10), Ready l s →
     let c := s.core l
     let index := imageIndex s l base off
     let addr := imageEntry s l out index
     let ty := (s.byteAt (addr + 9)).toNat
     let count := (s.reg (if out then R.CYC_OUT_COUNT c.task else R.CYC_IN_COUNT c.task)).toNat
     (count ≤ index → ∀ i, i = .imldI l d base ⟨out, p⟩ k off ∨ i = .imldF l d base ⟨out, p⟩ k off ∨ i = .imq l d base ⟨out, p⟩ k off ∨
         i = .imts l d base ⟨out, p⟩ off ∨ (out = true ∧ (i = .imstI l d base off ∨ i = .imstF l d base off)) →
       exec i s = .next (State.retire l s (s.trap l .imageRange (BitVec.ofNat 64 index)))) ∧
     (index < count → s.poisoned addr = false → s.poisoned (addr + 8) = false → p.val < 3 →
       (((ty = 8 ∨ ty = 9) → exec (.imldI l d base ⟨out, p⟩ k off) s = .next (State.retire l s
           (((s.eccMeet addr 16).parityCount l p).trap l .imageType (BitVec.ofNat 64 index)))) ∧
         (1 ≤ ty → ty ≤ 5 → exec (.imldF l d base ⟨out, p⟩ k off) s = .next (State.retire l s
           (((s.eccMeet addr 16).parityCount l p).trap l .imageType (BitVec.ofNat 64 index)))) ∧
         (out = true → ∀ i, ((ty = 8 ∨ ty = 9) ∧ i = .imstI l d base off) ∨ (1 ≤ ty ∧ ty ≤ 5 ∧ i = .imstF l d base off) →
           exec i s = .next (State.retire l s ((s.eccMeet addr 16).trap l .imageType (BitVec.ofNat 64 index)))))) ∧
     (index < count → p.val = 3 → ∀ i, i = .imldI l d base ⟨out, p⟩ k off ∨ i = .imldF l d base ⟨out, p⟩ k off ∨
         i = .imq l d base ⟨out, p⟩ k off ∨ i = .imts l d base ⟨out, p⟩ off →
       exec i s = .next (State.retire l s (((s.eccMeet addr 16).bump (R.LC_PARITY_REFETCH l) 2).parityTrap l addr))))

/-- R163, R168: An aligned store to shared data SRAM, or to DDR behind an open crossing 1, stores its low bytes,
little-endian, at w[A] + imm modulo 2^40; every other byte of memory, every register of the map but performance
overflow bits, and every other core keep what they held. -/
def Obligations.StoresWriteMemory : Prop :=
  ∀ (s : State) (i : Instr) (l a : Fin 16) (imm : Imm 17) (n : Nat) (word : Bool) (v : Nat), s.Canonical →
    storeForm s i = some (l, a, imm, n, word, v) → Ready l s →
    let addr := namedAddress s l a imm
    addr % n = 0 → (s.regionOf addr = .shared ∨ (s.regionOf addr = .ddr ∧ s.crossBlocked 1 = false)) →
    ∃ t, exec i s = .next t ∧ t.numAt addr n = v ∧
      (∀ x, x < addr ∨ addr + n ≤ x → t.byteAt x = s.byteAt x) ∧
      t.core l = { s.core l with pc := BitVec.ofNat 40 ((s.core l).pc.toNat + (immValue imm).2) } ∧
      SameCores l s t ∧ SameRegs [R.HLT_PERF_OVF_LO, R.HLT_PERF_OVF_HI] s t

/-- R66 to R68, R169, R171, R174 to R176, R184: An aligned atomic on shared data SRAM without an uncorrectable error
puts the old word, sign-extended, into w[D], writes the new word where its function gives one, and ACAS tells in its
flag whether it wrote; everything else keeps what it held, the counts of corrected errors apart. An image instruction,
where no word of the entry that it needs holds an uncorrectable error and the line has fewer than three parity
failures in a row, on an entry of its class in the section: IMLD and IMQ test the entry's quality against QTEST and
load its value or quality, IMTS loads its time, and IMST stores the low bytes of its type's size in the output
section. The model's choices it rests on: log entries 60, 61, 140. -/
def Obligations.AtomicsAndImageAccesses : Prop :=
  (∀ (s : State) (i : Instr) (l : Fin 16) (dbl : Bool) (d a b : Fin 16) (f : Nat → Nat → Nat → Nat → Option Nat)
     (k : Option (Fin 4)), s.Canonical → atomicForm i = some (l, dbl, d, a, b, k, f) → Ready l s →
     let n := if dbl then 8 else 4
     let addr := (s.core l).wv a % 2 ^ 40
     let new := f (8 * n) (s.numAt addr n) ((s.core l).wv b % 2 ^ (8 * n)) ((s.core l).wv d % 2 ^ (8 * n))
     addr % n = 0 → s.regionOf addr = .shared → s.poisoned addr = false →
     ∃ t, exec i s = .next t ∧ t.numAt addr n = new.getD (s.numAt addr n) ∧
       (∀ x, x < addr ∨ addr + n ≤ x → t.byteAt x = s.byteAt x) ∧
       t.core l = (match k with
         | some k => ((s.core l).wrote d (asWord (toSigned (8 * n) (s.numAt addr n))) 0).flagged .set k new.isSome 4
         | none => (s.core l).wrote d (asWord (toSigned (8 * n) (s.numAt addr n))) 4) ∧
       SameCores l s t ∧ SameRegs [R.HLT_PERF_OVF_LO, R.HLT_PERF_OVF_HI] (s.eccMeet addr n) t) ∧
  (∀ (s : State) (l d : Fin 16) (base : Option (Fin 16)) (out : Bool) (k p : Fin 4) (off : Imm 10), Ready l s →
     let c := s.core l
     let index := imageIndex s l base off
     let addr := imageEntry s l out index
     let ty := (s.byteAt (addr + 9)).toNat
     let q := (s.byteAt (addr + 8)).toNat
     let n := match off with | .short _ => 4 | .literal _ => 8
     let good := (q &&& c.qtest.toNat % 256) == c.qtest.toNat / 256 % 256
     index < (s.reg (if out then R.CYC_OUT_COUNT c.task else R.CYC_IN_COUNT c.task)).toNat →
     s.poisoned addr = false → s.poisoned (addr + 8) = false → p.val < 3 →
     let u := s.eccMeet addr 16
     ((1 ≤ ty ∧ ty ≤ 5) →
       (∃ t, exec (.imldI l d base ⟨out, p⟩ k off) s = .next t ∧
         CoreBecomes l (((c.flagged .set k good 0)).wrote d
           (if ty = 1 then s.numAt addr 1 else if ty = 2 then asWord (toSigned 32 (s.numAt addr 4))
             else if ty = 3 then s.numAt addr 4 else s.numAt addr 8) n) [R.LC_PARITY_REFETCH l] u t)) ∧
     ((ty = 8 ∨ ty = 9) →
       ∃ t, exec (.imldF l d base ⟨out, p⟩ k off) s = .next t ∧
         CoreBecomes l (((c.flagged .set k good 0)).wroteV d (s.numAt addr (if ty = 8 then 4 else 8)) n)
           [R.LC_PARITY_REFETCH l] u t) ∧
     ((1 ≤ ty ∧ ty ≤ 5 ∨ ty = 8 ∨ ty = 9) →
       (∃ t, exec (.imq l d base ⟨out, p⟩ k off) s = .next t ∧
         CoreBecomes l (((c.flagged .set k good 0)).wrote d q n) [R.LC_PARITY_REFETCH l] u t) ∧
       ∃ t, exec (.imts l d base ⟨out, p⟩ off) s = .next t ∧
         CoreBecomes l (c.wrote d (s.numAt (addr + 12) 4) n) [R.LC_PARITY_REFETCH l] u t) ∧
     (out = true → s.Canonical →
       (∀ i, (1 ≤ ty ∧ ty ≤ 5 ∧ i = .imstI l d base off) ∨ ((ty = 8 ∨ ty = 9) ∧ i = .imstF l d base off) →
         let size := if ty = 1 then 1 else if ty = 2 ∨ ty = 3 ∨ ty = 8 then 4 else 8
         let v := if ty = 8 ∨ ty = 9 then (nth 0 c.v d).toNat else if ty = 1 then min (c.wv d) 1 else c.wv d
         ∃ t, exec i s = .next t ∧ t.numAt addr size = v % 2 ^ (8 * size) ∧
           (∀ x, x < addr ∨ addr + size ≤ x → t.byteAt x = s.byteAt x) ∧
           t.core l = { c with pc := BitVec.ofNat 40 (c.pc.toNat + n) } ∧ SameCores l s t ∧
           SameRegs [R.HLT_PERF_OVF_LO, R.HLT_PERF_OVF_HI] u t)))

/-- R154, R166, R167: The floating-point instructions that write a v register: the bits of the precision with the
upper half cleared for FP32, the sticky flags of FCSR, the pc, and nothing else. FTOI truncates to a saturated 64-bit
integer with its flags, and FMVTW moves raw bits, both into w[D]. The model's choices it rests on: log entries 56. -/
def Obligations.FloatInstructionResults : Prop :=
  (∀ (s : State) (i : Instr) (l d : Fin 16) (dbl : Bool) (bits flags : Nat),
     floatResult s i = some (l, d, dbl, bits, flags) → Ready l s →
     ∃ t, exec i s = .next t ∧
       CoreBecomes l (((s.core l).wroteV d (if dbl then bits else bits % 2 ^ 32) 4).sticky flags) [] s t) ∧
  (∀ (s : State) (l d a : Fin 16) (dbl : Bool), Ready l s →
     let x := (nth 0 (s.core l).v a).toNat % 2 ^ (if dbl then 64 else 32)
     (∃ t, exec (.ftoi l dbl d a) s = .next t ∧
       CoreBecomes l (((s.core l).wrote d (asWord (fpToInt (fmtOf dbl) x).1) 4).sticky (fpToInt (fmtOf dbl) x).2)
         [] s t) ∧
     ∃ t, exec (.fmvtw l dbl d a) s = .next t ∧ CoreBecomes l ((s.core l).wrote d x 4) [] s t)

/-- R39, R61, R62, R163, R170, R178: B and BC move the pc by a signed count of words, CALL also writes the return
address to w15, and JR and CALLR go to an aligned address in code SRAM that w[A] holds; a misaligned target takes a
MISALIGNED trap and writes no link, and one outside code SRAM a BUS_ERROR trap with the access logged. A core whose pc
lies outside code SRAM takes a BUS_ERROR trap at fetch, with the access logged. NOP and the four fences only move the
pc: in a model of one sender in order every earlier access has been performed (log entry on ordering). The model's
choices it rests on: log entries 19. -/
def Obligations.BranchesNopAndFences : Prop :=
  (∀ (s : State) (l d a : Fin 16), Ready l s →
     let c := s.core l
     let back := BitVec.ofNat 40 (c.pc.toNat + 4)
     (∀ off : BitVec 26,
       (∃ t, exec (.b l off) s = .next t ∧ CoreBecomes l (c.branched off.toInt) [] s t) ∧
       ∃ t, exec (.call l off) s = .next t ∧
         CoreBecomes l { c.branched off.toInt with w := c.w.set 15 (back.zeroExtend 64) } [] s t) ∧
     (∀ (k : Fin 4) (want : Bool) (off : BitVec 22),
       ∃ t, exec (.bc l k want off) s = .next t ∧
         CoreBecomes l (c.branched (if c.c.toNat.testBit k = want then off.toInt else 1)) [] s t) ∧
     (c.wv a % 4 = 0 → c.wv a < 0x800000 →
       (∃ t, exec (.jr l a) s = .next t ∧ CoreBecomes l { c with pc := BitVec.ofNat 40 (c.wv a) } [] s t) ∧
       ∃ t, exec (.callr l d a) s = .next t ∧
         CoreBecomes l { c with pc := BitVec.ofNat 40 (c.wv a), w := c.w.set d (back.zeroExtend 64) } [] s t) ∧
     (c.wv a % 4 = 0 → 0x800000 ≤ c.wv a → nth 0 c.w a ≠ cycleEnd →
       exec (.jr l a) s = .next (State.retire l s
         ((State.accessFault c.phys (c.wv a) (s.setCore l { c with pc := BitVec.ofNat 40 (c.wv a) })).trapAt l .busError
           (BitVec.ofNat 40 (c.wv a)) (nth 0 c.w a) false))) ∧
     (c.wv a % 4 ≠ 0 → ∀ i, i = .jr l a ∨ i = .callr l d a →
       exec i s = .next (State.retire l s (s.trap l .misaligned (BitVec.ofNat 64 (c.wv a)))))) ∧
  (∀ (s : State) (l : Fin 16) (i : Instr),
     i = .nop l ∨ i = .fenceLd l ∨ i = .fenceSt l ∨ i = .fenceAll l ∨ i = .fenceIo l →
     (Ready l s → ∃ t, exec i s = .next t ∧
       CoreBecomes l { s.core l with pc := BitVec.ofNat 40 ((s.core l).pc.toNat + 4) } [] s t) ∧
     (s.coreRuns l = true → inCode (s.core l).pc.toNat = false →
       exec i s = .next ((s.accessFault (s.core l).phys (s.core l).pc.toNat).trap l .busError
         ((s.core l).pc.zeroExtend 64))))

/-- R155, R178: MFS reads the system registers 0x00 to 0x0F, TIME_SEC latching the fraction, and traps on any other
number; MTS writes QTEST, FCSR (its defined bits), TVEC and TPC, and traps on every other number. The model's choices
it rests on: log entries 18. -/
def Obligations.SystemRegistersReadAndWrite : Prop :=
  ∀ (s : State) (l d a : Fin 16) (num : Byte), Ready l s →
    let c := s.core l
    let x := nth 0 c.w a
    (num.toNat < 16 → num.toNat ≠ 5 →
      ∃ t, exec (.mfs l d num) s = .next t ∧
        CoreBecomes l (c.wrote d (nth 0 (systemValues s l) num.toNat % 2 ^ 64) 4) [] s t) ∧
    (num.toNat = 5 →
      ∃ t, exec (.mfs l d num) s = .next t ∧
        CoreBecomes l { c.wrote d (s.nowSec % 2 ^ 64) 4 with timeFrac := BitVec.ofNat 32 (s.now % 2 ^ 32) } [] s t) ∧
    (16 ≤ num.toNat → exec (.mfs l d num) s = .next (State.retire l s (s.trap l .illegal (sysWord d 0 num.toNat 0x20)))) ∧
    (∀ c', (num.toNat = 0x0A ∧ c' = { c with qtest := x &&& 0xFFFF }) ∨
          (num.toNat = 0x0B ∧ c' = { c with fcsr := x &&& 0x1F3 }) ∨
          (num.toNat = 0x0C ∧ c' = { c with tvec := x }) ∨ (num.toNat = 0x0E ∧ c' = { c with tpc := x }) →
      ∃ t, exec (.mts l num a) s = .next t ∧
        CoreBecomes l { c' with pc := BitVec.ofNat 40 (c.pc.toNat + 4) } [] s t) ∧
    (num.toNat ∉ [0x0A, 0x0B, 0x0C, 0x0E] →
      exec (.mts l num a) s = .next (State.retire l s (s.trap l .illegal (sysWord 0 a num.toNat 0x21))))

/-- R157, R160 to R178, R177, R178, R179, R180, R187, R200: A word names an instruction of a core, with the operands
in its fields, exactly when it is a legal word. TRAP takes a SOFTWARE trap with its code, a word that is no
instruction an ILLEGAL trap with the word, and a late error of a write an imprecise BUS_ERROR trap; ERET in a handler
goes back to TPC, and outside one takes an ILLEGAL trap. A trap of a running task with a handler: the cause, the pc
and the value are saved in TCAUSE, TPC and TVAL, the core goes on at TVEC, a multiple of 4, in its handler, and
LC.TRAPS counts it. Without a handler, or in one, the trap is logged and makes a task fault of kind 1; in a handler
its cause is the double fault. CWAIT ends the cycle: the task waits for its copy-out, which is requested, and the core
is free for the next task. HOLDPT holds the core where its enable is set, in Run outside a drain in SOLO or
MAINTENANCE, and is otherwise a counted NOP. The model's choices it rests on: log entries 57. -/
def Obligations.TrapsReturnAndHoldPoint : Prop :=
  (∀ (l : Fin 16) (w lit : Word),
     (decodeCoreWord l w lit).isSome = legalWord w ∧
     (∀ (d a : Fin 16) (v : BitVec 17),
       decodeCoreWord l (BitVec.ofNat 32 (0x02 * 2 ^ 26 + d * 2 ^ 22 + a * 2 ^ 18 + v.toNat)) lit = some (.addi l d a (.short v)) ∧
       decodeCoreWord l (BitVec.ofNat 32 (0x1B * 2 ^ 26 + d * 2 ^ 22 + a * 2 ^ 18 + 2 ^ 17)) lit = some (.std l d a (.literal lit))) ∧
     (∀ d a b : Fin 16,
       decodeCoreWord l (BitVec.ofNat 32 (0x01 * 2 ^ 26 + d * 2 ^ 22 + a * 2 ^ 18 + b * 2 ^ 14 + 0x015)) lit = some (.divu l d a b) ∧
       decodeCoreWord l (BitVec.ofNat 32 (0x28 * 2 ^ 26 + d * 2 ^ 22 + a * 2 ^ 18 + b * 2 ^ 14 + 0x202)) lit =
         some (.fmul l true d a b)) ∧
     (∀ (k : Fin 4) (t : Fin 2) (off : BitVec 22),
       decodeCoreWord l (BitVec.ofNat 32 (0x31 * 2 ^ 26 + k * 2 ^ 24 + t * 2 ^ 23 + off.toNat)) lit =
         some (.bc l k (t.val == 1) off)) ∧
     decodeCoreWord l 0xE0000000 lit = some (.nop l) ∧ decodeCoreWord l 0 lit = none) ∧
  (∀ (s : State) (l : Fin 16), Ready l s →
     let c := s.core l
     (∀ code, exec (.trap l code) s = .next (State.retire l s (s.trap l .software (code.zeroExtend 64)))) ∧
     (∀ w, legalWord w = false →
       exec (.illegalInstruction l w) s = .next (State.retire l s (s.trap l .illegal (w.zeroExtend 64)))) ∧
     (∀ addr, exec (.impreciseBusError l addr) s = .next (s.trapAt l .busError c.pc (addr.zeroExtend 64) true)) ∧
     (c.mode = .handler → c.tpc.toNat < 0x800000 → c.tpc.toNat % 4 = 0 →
       ∃ t, exec (.eret l) s = .next t ∧
         CoreBecomes l { c with mode := .running, pc := BitVec.ofNat 40 c.tpc.toNat } [] s t) ∧
     (c.mode ≠ .handler → exec (.eret l) s = .next (State.retire l s (s.trap l .illegal (sysWord 0 0 0 0x13))))) ∧
  ((∀ (s : State) (l : Fin 16) (cause : State.Cause) (tval : DWord), s.Canonical → l.val < s.cores.length →
     (s.core l).mode = .running → (s.core l).tvec ≠ 0 →
     let c := s.core l
     let t := s.trap l cause tval
     t.core l = { c with mode := .handler, tcause := BitVec.ofNat 64 cause.code, tpc := c.pc.zeroExtend 64, tval := tval,
                         pc := c.tvec.truncate 40 &&& ~~~3#40 } ∧
       SameCores l s t ∧ SameMemory s t ∧ t.reg (R.LC_TRAPS l) = satAdd (s.reg (R.LC_TRAPS l)) 1 ∧
       t.reg (R.LC_LAST_CAUSE l) = BitVec.ofNat 32 (cause.code + 0x200 + 0x10000 * c.task) ∧
       t.reg64 (R.LC_LAST_PC_LO l) (R.LC_LAST_PC_HI l) = c.pc.toNat ∧
       t.reg64 (R.LC_LAST_VAL_LO l) (R.LC_LAST_VAL_HI l) = tval.toNat) ∧
   ∀ (s : State) (l : Fin 16) (cause : State.Cause) (tval : DWord),
     let c := s.core l
     ((c.mode = .running ∧ c.tvec = 0) → s.trap l cause tval =
       ((s.recordTrap l cause.code c.pc.toNat tval.toNat false false).raise c.phys Ev.LC_TASK_FAULT
         (cause.code + 0x100 * c.task + 0x10000 * l) c.pc.toNat).taskFault c.task 1) ∧
     (c.mode = .handler → s.trap l cause tval =
       ((s.recordTrap l 8 c.pc.toNat cause.code false false).raise c.phys Ev.LC_TASK_FAULT
         (8 + 0x100 * c.task + 0x10000 * l) c.pc.toNat).taskFault c.task 1)) ∧
  (∀ (s : State) (l : Fin 16), Ready l s →
     let c := s.core l
     let u := (s.modTask c.task fun x => { x with phase := .copyOut }).pushXfer c.task true
     exec (.cwait l) s = .next (State.retire l s ((u.setCore l (CoreSt.empty (u.core l).phys)).dispatchCore l)) ∧
     (∀ code : BitVec 12,
       (s.regBit (R.LC_DEBUG l) 0 = true → (s.role = 0 ∨ s.role = 4) → s.mode = 1 → s.isDraining = false →
         exec (.holdpt l code) s = .next (State.retire l s
           ((((((s.modCore l fun c => c.advance 4).saveTask l .held).raise c.phys Ev.LC_HOLDPT
             (code.toNat + 0x10000 * c.task + 0x1000000 * l.val) c.pc.toNat).changeMode 2 2).dispatchCore l)))) ∧
       (s.regBit (R.LC_DEBUG l) 0 = false ∨ (s.role ≠ 0 ∧ s.role ≠ 4) ∨ s.mode ≠ 1 ∨ s.isDraining = true →
         exec (.holdpt l code) s = .next (State.retire l s
           ((s.modCore l fun c => c.advance 4).bump (R.LC_HOLDPT_SKIPS l) 1)))))

/-! ### Cyclic execution -/

/-- R123, R194, R214, R233, R236, R243, R517, R636: The commands of the cycle engine that act are refused with ST_ROLE
in STANDBY and SILENT, with no other effect. Loading a program chunk by chunk in Stop, the mode commands, and the
configuration of a task. -/
def Obligations.ProgramAndModeCommands : Prop :=
  (∀ (id : Nat) (c : Cmd) (s s1 : State) (op : Nat) (i : Instr),
     (op, i) ∈ [(Op.CYC_LOAD_PROGRAM, Instr.cycLoadProgram id), (Op.CYC_START, .cycStart id), (Op.CYC_STOP, .cycStop id),
       (Op.CYC_HOLD, .cycHold id), (Op.CYC_TASK_CONFIG, .cycTaskConfig id), (Op.CYC_FORCE_SET, .cycForceSet id),
       (Op.CYC_FORCE_RELEASE, .cycForceRelease id), (Op.CYC_CHANGE_LOAD, .cycChangeLoad id),
       (Op.CYC_CHANGE_APPLY, .cycChangeApply id), (Op.CYC_CHANGE_VALUES, .cycChangeValues id),
       (Op.CYC_CHANGE_CANCEL, .cycChangeCancel id), (Op.CYC_WRITE_SIGNALS, .cycWriteSignals id)] →
     Passes op id c s s1 → (s1.role = 2 ∨ s1.role = 3) → Answers i id s (s1, .done .role 0 0 [])) ∧
  (∀ (id : Nat) (c : Cmd) (s s1 : State), (s1.role = 0 ∨ s1.role = 1 ∨ s1.role = 4) →
     (Passes Op.CYC_LOAD_PROGRAM id c s s1 →
       (s1.mode ≠ 0 ∨ s1.isDraining = true → Answers (.cycLoadProgram id) id s (s1, .done .mode 0 0 [])) ∧
       (s1.mode = 0 → s1.isDraining = false → s1.changeState = 0 →
         let chunk := c.params.drop 8
         let total := c.p 4 4
         (c.p 0 4 = 0 → chunk.length < total →
           Answers (.cycLoadProgram id) id s
             ({ s1 with cyc := { s1.cyc with load := some ⟨total, chunk⟩ } }, .done .ok 0 0 [])) ∧
         (c.p 0 4 = 0 → chunk.length = total → s1.pwr.feramHold = true →
           Answers (.cycLoadProgram id) id s (s1, .done .busy 3 0 [])) ∧
         (c.p 0 4 = 0 → chunk.length = total → s1.pwr.feramHold = false → ∀ k, imageFault s1.imageEnv chunk = some k →
           Answers (.cycLoadProgram id) id s
             ({ s1 with cyc := { s1.cyc with load := none } }, .done .imageInvalid k 0 [])) ∧
         (c.p 0 4 = 0 → chunk.length = total → s1.pwr.feramHold = false → imageFault s1.imageEnv chunk = none →
           let slot := 1 - s1.nvNext.activeSlot
           let u := (({ s1 with cyc := { s1.cyc with load := none } }).writeSlot slot chunk).updNv fun n =>
             { n with activeSlot := slot }
           let v := (u.placeProgram chunk).offlineSegs
           let v := { v with cyc := { v.cyc with tasks := List.replicate 32 TaskSt.empty, store := [], autostart := false } }
           Answers (.cycLoadProgram id) id s (((v.rebind).emptyDescs slot).rebindDescs.solvShow, .done .ok 0 0 [])))) ∧
     (Passes Op.CYC_START id c s s1 →
       (s1.loaded = true → 2 ≤ c.p 0 4 → Answers (.cycStart id) id s (s1, .done .badParam 0 0 [])) ∧
       (s1.loaded = false → Answers (.cycStart id) id s (s1, .done .mode 0 0 [])) ∧
       (c.p 0 4 < 2 → s1.loaded = true → s1.mode = 1 → Answers (.cycStart id) id s (s1, .done .ok 0 0 [])) ∧
       (c.p 0 4 < 2 → s1.loaded = true → s1.startRefusal = none →
         (s1.mode = 0 → Answers (.cycStart id) id s (s1.enterRun (c.p 0 4 == 1) 0, .done .ok 0 0 [])) ∧
         (s1.mode = 2 → Answers (.cycStart id) id s (s1.resumeRun (c.p 0 4 == 1), .done .ok 0 0 [])))) ∧
     (Passes Op.CYC_STOP id c s s1 →
       (s1.mode = 0 → c.p 0 4 < 2 → Answers (.cycStop id) id s (s1, .done .ok 0 0 [])) ∧
       (s1.mode ≠ 0 → c.p 0 4 = 0 → Answers (.cycStop id) id s (s1.enterStop 0, .done .ok 0 0 [])) ∧
       (s1.mode ≠ 0 → c.p 0 4 = 1 → Answers (.cycStop id) id s (s1.stopNow, .done .ok 0 0 [])) ∧
       (2 ≤ c.p 0 4 → Answers (.cycStop id) id s (s1, .done .badParam 0 0 []))) ∧
     (Passes Op.CYC_HOLD id c s s1 →
       (s1.role = 1 → Answers (.cycHold id) id s (s1, .done .role 0 0 [])) ∧
       (s1.role ≠ 1 → s1.mode = 0 → Answers (.cycHold id) id s (s1, .done .mode 0 0 [])) ∧
       (s1.role ≠ 1 → s1.mode = 1 → Answers (.cycHold id) id s (s1.changeMode 2 0, .done .ok 0 0 [])) ∧
       (s1.role ≠ 1 → s1.mode = 2 → Answers (.cycHold id) id s (s1, .done .ok 0 0 []))) ∧
     (Passes Op.CYC_TASK_CONFIG id c s s1 → s1.mode = 0 → s1.isDraining = false → s1.loaded = true →
       (32 ≤ c.p 0 4 → Answers (.cycTaskConfig id) id s (s1, .done .badParam 0 0 [])) ∧
       (c.p 0 4 < 32 →
         let e := taskEntAt c.params 4
         let ctx := s1.regCtx (c.p 0 4) e
         (∀ w, firstFault ctx e = some w → Answers (.cycTaskConfig id) id s (s1, .done .badParam w 0 [])) ∧
         (firstFault ctx e = none →
           Answers (.cycTaskConfig id) id s
             ((((s1.installTask 0 (c.p 0 4) ⟨e.words.take 14 ++ [runCount ctx.inRuns, runCount ctx.outRuns]⟩).installOut
                 s1.outEntries (c.p 0 4)).showFrame.rebind).rebindDescs.solvShow,
               .done .ok 0 0 [])))))

/-- R217 to R221, R242, R243: Status, forces and signals: what they reply, store and log, and their refusals. The
model's choices it rests on: log entries 64. -/
def Obligations.ForceAndSignalCommands : Prop :=
  ∀ (id : Nat) (c : Cmd) (s s1 : State),
    (Passes Op.CYC_STATUS id c s s1 → 1040 ≤ c.replyLen →
      let w (a : Nat) : List Byte := leBytes 4 (s1.reg a).toNat
      let bytes := w R.CYC_MODE ++ w R.CYC_CHANGE_STATUS ++ leBytes 4 s1.cyc.forces.length ++ w R.CYC_LAST_SWITCH ++
        ((List.range 32).map s1.taskGroup).flatten
      Answers (.cycStatus id) id s (s1, replyOr c bytes)) ∧
    (Passes Op.CYC_FORCE_SET id c s s1 → (s1.role = 0 ∨ s1.role = 1 ∨ s1.role = 4) →
      (s1.symById (c.p 0 4) = none → Answers (.cycForceSet id) id s (s1, .done .symbolUnknown 0 0 [])) ∧
      (∀ y, s1.symById (c.p 0 4) = some y →
        ((y.kind < 1 ∨ 3 < y.kind) → Answers (.cycForceSet id) id s (s1, .done .badParam 0 0 [])) ∧
        (y.kind = 1 → c.p 5 3 = 0 → s1.cyc.change = none → s1.cyc.forces.length < 4096 →
          (s1.cyc.forces.any fun f => f.id == c.p 0 4) = false →
          let f : Force := ⟨c.p 0 4, BitVec.ofNat 8 (c.p 4 1), BitVec.ofNat 8 y.type, slice c.params 8 (typeSize y.type)⟩
          Answers (.cycForceSet id) id s
            (({ s1 with cyc := { s1.cyc with forces := s1.cyc.forces ++ [f] } }).raise srcCyc Ev.CYC_FORCE_SET (c.p 0 4)
              (c.p 8 4), .done .ok 0 0 [])))) ∧
    (Passes Op.CYC_FORCE_RELEASE id c s s1 → (s1.role = 0 ∨ s1.role = 1 ∨ s1.role = 4) →
      (c.p 0 4 ≠ 0xFFFFFFFF → s1.symById (c.p 0 4) = none →
        Answers (.cycForceRelease id) id s (s1, .done .symbolUnknown 0 0 [])) ∧
      (c.p 0 4 = 0xFFFFFFFF →
        Answers (.cycForceRelease id) id s
          (s1.cyc.forces.foldl (fun s f => s.raise srcCyc Ev.CYC_FORCE_RELEASED f.id 0)
            { s1 with cyc := { s1.cyc with forces := [] } }, .done .ok s1.cyc.forces.length 0 []))) ∧
    (Passes Op.CYC_FORCE_LIST id c s s1 →
      let fs := (s1.cyc.forces.drop (c.p 0 4)).take (c.replyLen / 16)
      Answers (.cycForceList id) id s (s1, replyOr c (fs.map fun f =>
        leBytes 4 f.id ++ [f.quality, f.type] ++ zeros 2 ++ padTo 8 f.value).flatten)) ∧
    (Passes Op.CYC_READ_SIGNALS id c s s1 →
      let n := c.p 0 4
      ((n = 0 ∨ 4096 < n) → Answers (.cycReadSignals id) id s (s1, .done .badParam 0xFFFF 0 [])) ∧
      (n = 1 → c.params.length = 8 →
        (s1.symById (c.p 4 4) = none → Answers (.cycReadSignals id) id s (s1, .done .symbolUnknown 0 0 [])) ∧
        (∀ y, s1.symById (c.p 4 4) = some y → 1 ≤ y.kind → y.kind ≤ 3 →
          let e := s1.bytesAt (s1.entryAddr y.loc) 16
          Answers (.cycReadSignals id) id s (s1, replyOr c
            (e.take 10 ++ [if s1.cyc.forces.any (·.id == c.p 4 4) then 1 else 0, 0] ++ e.drop 12))))) ∧
    (Passes Op.CYC_WRITE_SIGNALS id c s s1 → (s1.role = 0 ∨ s1.role = 1 ∨ s1.role = 4) →
      (s1.mode = 1 → Answers (.cycWriteSignals id) id s (s1, .done .mode 0 0 [])) ∧
      (s1.mode ≠ 1 → c.p 0 4 = 1 → c.params.length = 20 → c.p 8 4 = 0 →
        ∀ y, s1.symById (c.p 4 4) = some y → 2 ≤ y.kind → y.kind ≤ 3 →
          (s1.cyc.forces.any fun f => f.id == c.p 4 4) = false →
          Answers (.cycWriteSignals id) id s
            (s1.setBytes (s1.entryAddr y.loc) (padTo 8 (slice c.params 12 (typeSize y.type))), .done .ok 0 0 [])))

/-- R222 to R231, R243, R524: Online change: loading a package, which a primary also sends to its peer, applying it, a
change of values, and cancelling. The model's choices it rests on: log entries 64, 68, 149, 151. -/
def Obligations.OnlineChangeCommands : Prop :=
  ∀ (id : Nat) (c : Cmd) (s s1 : State), (s1.role = 0 ∨ s1.role = 1 ∨ s1.role = 4) →
    (Passes Op.CYC_CHANGE_LOAD id c s s1 →
      (s1.loaded = false → Answers (.cycChangeLoad id) id s (s1, .done .imageInvalid 9 0 [])) ∧
      (s1.loaded = true → s1.changeState ≠ 0 → Answers (.cycChangeLoad id) id s (s1, .done .changeActive 0 0 [])) ∧
      (s1.loaded = true → s1.changeState = 0 → hLen s1.progImage ≤ 0x400000 → c.p 0 4 = 0 →
        let chunk := c.params.drop 8
        (chunk.length < c.p 4 4 →
          Answers (.cycChangeLoad id) id s
            ({ s1 with cyc := { s1.cyc with changeLoad := some ⟨c.p 4 4, chunk⟩ } }, .done .ok 0 0 [])) ∧
        (chunk.length = c.p 4 4 → hLen chunk ≤ 0x400000 →
          let u := { s1 with cyc := { s1.cyc with changeLoad := none } }
          let img := chunk.take (hLen chunk)
          let map := chunk.drop (hLen chunk)
          changeFault u.imageEnv s1.progImage img map = none →
          let v := (u.placeCode img (State.halfBase (if u.regBit R.CYC_MODE 4 then 0 else 1))).placeTables img
          let v := if v.role = 1 ∧ v.linkUpNow = true then v.emit (.changePackage img) else v
          let w := { v with cyc := { v.cyc with change := some ⟨false, img, map, false, 0⟩ } }
          Answers (.cycChangeLoad id) id s
            ((w.setRegField R.CYC_CHANGE_STATUS 2 0 1).setRegBit R.CYC_CHANGE_STATUS 3 false, .done .ok 0 0 [])))) ∧
    (Passes Op.CYC_CHANGE_APPLY id c s s1 →
      (s1.mode = 2 → Answers (.cycChangeApply id) id s (s1, .done .mode 0 0 [])) ∧
      (s1.mode ≠ 2 → s1.cyc.change = none → Answers (.cycChangeApply id) id s (s1, .done .badParam 0xFFFF 0 [])) ∧
      (∀ ch, s1.mode ≠ 2 → s1.cyc.change = some ch →
        (2 ≤ s1.changeState → Answers (.cycChangeApply id) id s (s1, .done .changeActive 0 0 [])) ∧
        (s1.changeState < 2 → c.p 0 4 = 0 → ch.values = false →
          (∀ f, s1.cyc.forces.find? (State.forceConflict (symbols ch.image)) = some f →
            Answers (.cycChangeApply id) id s (s1, .done .forceConflict (f.id % 65536) (f.id / 65536) []))) ∧
        (s1.changeState < 2 → c.p 0 4 = 1 →
          Answers (.cycChangeApply id) id s
            (({ s1 with cyc := { s1.cyc with change := some { ch with releaseForces := true, waitFrom := s1.raw } } }).setRegField
              R.CYC_CHANGE_STATUS 2 0 2, .done .pending 0 0 [])))) ∧
    (Passes Op.CYC_CHANGE_VALUES id c s s1 → s1.loaded = true → s1.changeState = 0 →
      c.p 0 4 = hProgramId s1.progImage → c.p 4 8 = hBuildId s1.progImage → 0 < c.p 12 4 → c.p 12 4 ≤ 4096 →
      ∀ items, splitValues (c.p 12 4) (c.params.drop 16) = some items →
        (∀ i, badItem s1.syms items = some i → Answers (.cycChangeValues id) id s (s1, .done .badParam i 0 [])) ∧
        (badItem s1.syms items = none → s1.valuesFit c.params = true →
          Answers (.cycChangeValues id) id s
            ((({ s1 with cyc := { s1.cyc with change := some ⟨true, [], c.params, false, s1.raw⟩ } }).setRegField
              R.CYC_CHANGE_STATUS 2 0 2).setRegBit R.CYC_CHANGE_STATUS 3 true, .done .pending 0 0 []))) ∧
    (Passes Op.CYC_CHANGE_CANCEL id c s s1 →
      (s1.changeState = 3 → Answers (.cycChangeCancel id) id s (s1, .done .changeActive 0 0 [])) ∧
      (s1.changeState ≠ 3 →
        Answers (.cycChangeCancel id) id s
          (((({ s1 with cyc := { s1.cyc with change := none } }).setRegField R.CYC_CHANGE_STATUS 2 0 0).setRegBit
            R.CYC_CHANGE_STATUS 3 false).flushDelayed, .done .ok 0 0 [])))

/-- R50, R65, R190, R199 to R211, R214, R225 to R232: A mode change takes its value at once; MODE_DRAIN_END raises
EV_CYC_MODE and ends the drain once the last cycle begun before it has ended, and does nothing before. A release on
the task's grid, made or delayed behind a change, a late or damaged one as a scheduler fault, the ends of copy-in,
which waits for the input phase of the task's segments, and of copy-out, the watchdog, and a frame of fixed-period
execution; each does nothing where its situation does not exist. The switch of a waiting change happens when no task
is inside a cycle, the wait ends in ST_CHANGE_TIMEOUT, and the program store is written after the switch. The duration
of a switch lies within R227's bounds. The model's choices it rests on: log entries 10, 63, 65, 66. -/
def Obligations.CycleAndChangeEvents : Prop :=
  (∀ s : State,
     (s.Canonical → ∀ new cause, new < 4 → (s.changeMode new cause).mode = new) ∧
     (∀ old new cause, s.cyc.drain = some (old, new, cause) → s.isDraining = true → s.drainingTasks = [] →
       exec .modeDrainEnd s = .next ((((({ s with cyc := { s.cyc with drain := none } }).setRegBit R.CYC_MODE 5 false).raise
         srcCyc Ev.CYC_MODE (new + 0x100 * old) cause).notify 22))) ∧
     (s.isDraining = false ∨ s.drainingTasks ≠ [] → exec .modeDrainEnd s = .next s)) ∧
  (∀ (s : State) (t : Fin 32),
     let i := tickOf s.now
     (s.releasable t = false ∨ s.fixedRun = true ∨ s.onGrid t i = false →
       ∀ e, exec (.taskRelease t e) s = .next s) ∧
     (s.releasable t = true → s.fixedRun = false → s.onGrid t i = true →
       exec (.taskRelease t true) s = .next (s.schedFault 2) ∧
       (s.now ≤ tickAt i + usToUnits 50 →
         s.holdsRelease = false → s.inside t = false → exec (.taskRelease t false) s = .next (s.release t i)) ∧
       (tickAt i + usToUnits 50 < s.now → s.holdsRelease = false → s.inside t = false →
         let u := s.release t i
         exec (.taskRelease t false) s = .next (if u.madeLate t i = true then u.schedFault 1 else u)) ∧
       (s.now ≤ tickAt i + usToUnits 50 → s.holdsRelease = true →
         let u := s.modTask t fun x => { x with seenTick := i }
         (tget u.cyc.delayed t.val = none → exec (.taskRelease t false) s =
           .next { u with cyc := { u.cyc with delayed := u.cyc.delayed ++ [(t.val, i)] } }) ∧
         (tget u.cyc.delayed t.val ≠ none → exec (.taskRelease t false) s = .next (u.skipRelease t)))) ∧
     (∀ k rest, s.cyc.xfer = (k, false) :: rest →
       let ix := s.inIndices k
       let u := s.copyInto (s.inSection k) ix
       let v := (u.forceInputs (u.inSection k) ix).modTask k fun x => { x with phase := .ready }
       (s.inputOpen k = true → exec .copyInDone s = .next s) ∧
       (s.inputOpen k = false → exec .copyInDone s = .next (v.popXfer.dispatchCore (v.lcore k)))) ∧
     ((∀ k rest, s.cyc.xfer ≠ (k, false) :: rest) → exec .copyInDone s = .next s) ∧
     ((∀ k rest, s.cyc.xfer ≠ (k, true) :: rest) → exec .copyOutDone s = .next s) ∧
     (∀ k rest, s.cyc.xfer = (k, true) :: rest →
       let u := s.checkOverrun k
       ((u.task k).phase ≠ .copyOut → exec .copyOutDone s = .next u) ∧
       ((u.task k).phase = .copyOut → ∃ v : State, exec .copyOutDone s = .next (v.popXfer.dispatchCore (v.lcore k)) ∧
         (k < v.cyc.tasks.length → (v.task k).phase = .idle ∧ (v.task k).draining = false))) ∧
     (s.inside t = true → tickAt ((s.task t).releaseTick + s.wdogTicks t) ≤ s.now →
       exec (.taskWatchdogExpiry t) s =
         .next ((s.raise srcCyc Ev.CYC_WATCHDOG t (satTo 32 ((s.raw - (s.task t).releaseRaw) / 250))).taskFault t 2)) ∧
     (s.inside t = false → exec (.taskWatchdogExpiry t) s = .next s) ∧
     (s.cyc.fixedDue = none → (s.mode ≠ 1 ∨ s.fixedRun = false) → exec .fixedFrameStart s = .next s) ∧
     (s.cyc.fixedDue = none → s.mode = 1 → s.fixedRun = true → i % max 1 (s.reg R.CYC_FRAME).toNat = 0 →
       ((List.range 32).all fun t => s.dueCount t i == 0) = true →
       exec .fixedFrameStart s = .next ((List.range 32).foldl (fun s t => s.dropUnstarted t i) s))) ∧
  (∀ s : State,
     (s.cyc.change = none ∨ s.changeState ≠ 2 ∨ (List.range 32).any s.inside = true → s.changeSwitch = s ∧
       exec .changeSwitch s = .next s.solvShow) ∧
     (∀ ch, s.cyc.change = some ch → s.changeState = 2 → (List.range 32).any s.inside = false →
       let bounds := State.switchBounds ch (decide (0x1000000000 ≤ (s.cyc.prog.map fun p => hDataBase p.image).getD 0))
       ∃ (v : State) (ts : List (Nat × Nat)) (us : Nat), bounds.1 ≤ us ∧ us ≤ bounds.2 ∧
         v.cyc.change = none ∧ v.cyc.delayed = [] ∧
         exec .changeSwitch s = .next ((((ts.foldl (fun s x => if s.releasable x.1 then s.release x.1 x.2 else s)
           v).raise srcCyc Ev.CYC_CHANGE_DONE (if ch.values then 1 else 0) us).notify 23).solvShow)) ∧
     (∀ ch, s.cyc.change = some ch → s.changeState = 2 →
       (ch.waitFrom + 250 * (1000 * s.regField R.CYC_CHANGE_WAIT_MAX 15 0) ≤ s.raw →
         exec .changeWaitTimeout s = .next (s.abandonChange .changeTimeout)) ∧
       (s.raw < ch.waitFrom + 250 * (1000 * s.regField R.CYC_CHANGE_WAIT_MAX 15 0) →
         exec .changeWaitTimeout s = .next s)) ∧
     (s.cyc.store = [] → exec .storeUpdateDone s = .next s) ∧
     (∀ j rest, s.cyc.store = j :: rest → j.values = true →
       exec .storeUpdateDone s = .next ((({ s with cyc := { s.cyc with store := rest } }).appendOverlay j.slot j.bytes).raise
         srcCyc Ev.CYC_STORE_UPDATED j.slot (fieldAt j.bytes 4 8 % 2 ^ 32))))

/-! ### Stations -/

/-- R245 to R271, R247, R265, R271, R284, R292, R293, R517: The commands on segments and stations: the refusal of a
segment above 19 and of a unit in STANDBY or SILENT, and what each accepted command stores and answers. The commands
on one station: admission into a free position, removal, after which the segment key is renewed, Boxwood data and the
two queries. The model's choices it rests on: log entries 70. -/
def Obligations.SegmentAndStationCommands : Prop :=
  (∀ (id : Nat) (c : Cmd) (s s1 : State),
     let k := c.p 0 4
     (∀ (op : Nat) (i : Instr), (op, i) ∈ [(Op.STN_SEGMENT_CONFIG, Instr.stnSegmentConfig id),
         (Op.STN_SEGMENT_ENABLE, .stnSegmentEnable id), (Op.STN_SEGMENT_DISABLE, .stnSegmentDisable id),
         (Op.STN_ADMIT, .stnAdmit id), (Op.STN_REMOVE, .stnRemove id), (Op.STN_TOKEN_ISSUE, .stnTokenIssue id),
         (Op.STN_BOXWOOD_SET, .stnBoxwoodSet id)] → Passes op id c s s1 →
       ((s1.role = 2 ∨ s1.role = 3) → Answers i id s (s1, .done .role 0 0 [])) ∧
       (s1.role ≠ 2 → s1.role ≠ 3 → 19 < k → Answers i id s (s1, .done .badParam 0 0 []))) ∧
     (s1.role ≠ 2 → s1.role ≠ 3 → k ≤ 19 →
       (Passes Op.STN_SEGMENT_CONFIG id c s s1 →
         (s1.segState k ≠ 0 → Answers (.stnSegmentConfig id) id s (s1, .done .mode 0 0 [])) ∧
         (let g : SegCfg := ⟨c.p 4 1, c.p 5 1 == 1, c.p 6 2, c.p 8 2, c.p 0xA 2, c.p 0xC 4, c.p 0x10 4, c.p 0x14 4⟩
          s1.segState k = 0 → s1.segPositions k = [] → s1.pwr.feramHold = false → 1 ≤ g.n → g.n ≤ 64 → c.p 5 1 ≤ 1 →
          1 ≤ g.w → g.w ≤ 64 → 8 ≤ g.bIn → g.bIn ≤ 4096 → g.bIn % 8 = 0 → 4 ≤ g.bOut → g.bOut ≤ 1448 → g.bOut % 4 = 0 →
          1 ≤ g.dmax → g.dmax ≤ 2000 → g.unbound ≤ 240000 → 100 ≤ g.sessionMs → g.sessionMs ≤ 3700000 →
          Answers (.stnSegmentConfig id) id s
            (((((s1.updNv fun n => { n with segs := tput n.segs k g }).setReg (R.STN_SEG_MIN_CYCLE k)
              (BitVec.ofNat 32 (minCycleUs k g))).setReg (R.STN_SEG_STAGE_WIN k)
              (BitVec.ofNat 32 (stageWinNs k g / 1000))).setReg (R.STN_SEG_DMAX k) (BitVec.ofNat 32 g.dmax)).rebind,
              .done .ok 0 0 []))) ∧
       (Passes Op.STN_SEGMENT_ENABLE id c s s1 → (s1.segCfg k).isSome = true →
         let u := s1.updNv fun n => { n with segOn := setBit n.segOn k true }
         (s1.segState k = 2 → Answers (.stnSegmentEnable id) id s (u, .done .ok 0 0 [])) ∧
         (s1.segState k = 0 → Answers (.stnSegmentEnable id) id s (u.segStart k false, .done .pending 0 0 [])) ∧
         (s1.segState k = 3 →
           Answers (.stnSegmentEnable id) id s (u.setRegBit (R.STN_SEG_STATE k) 2 true, .done .pending 0 0 []))) ∧
       (Passes Op.STN_SEGMENT_DISABLE id c s s1 →
         ((s1.boundTask k).isSome = true → s1.mode ≠ 0 ∨ s1.isDraining = true →
           Answers (.stnSegmentDisable id) id s (s1, .done .mode 0 0 [])) ∧
         (s1.mode = 0 → s1.isDraining = false → s1.regBit (R.STN_SEG_STATE k) 2 = false →
           let u := s1.updNv fun n => { n with segOn := setBit n.segOn k false }
           (s1.segState k = 0 → Answers (.stnSegmentDisable id) id s (u, .done .ok 0 0 [])) ∧
           (s1.segState k = 2 → Answers (.stnSegmentDisable id) id s (u.segStop k, .later (.segmentOff k))) ∧
           (s1.segState k = 1 →
             Answers (.stnSegmentDisable id) id s (u.modSeg k fun g => { g with wantOff := true }, .later (.segmentOff k))))) ∧
       (Passes Op.STN_TOKEN_ISSUE id c s s1 → c.p 4 4 ≤ 63 → 1 ≤ c.p 0x18 4 → c.p 0x18 4 ≤ 2592000 →
         s1.nvNext.tokens = [] → s1.drbgOk = true → s1.pwr.feramHold = false →
         let r := s1.issueToken (64 * k + c.p 4 4)
           (if allZero (slice c.params 8 16) then none else some (slice c.params 8 16))
           (some (s1.now + c.p 0x18 4 * 2 ^ 32)) true
         Answers (.stnTokenIssue id) id s (r.2, replyOr c (leBytes 4 r.1.1 ++ r.1.2))))) ∧
  (∀ (id : Nat) (c : Cmd) (s s1 : State),
     let k := c.p 0 4
     let pos := 64 * k + c.p 4 4
     k ≤ 19 →
     (s1.role ≠ 2 → s1.role ≠ 3 →
       (Passes Op.STN_ADMIT id c s s1 →
         (s1.segCfg k = none → Answers (.stnAdmit id) id s (s1, .done .segmentFull 0 0 [])) ∧
         (let a : Adm := ⟨slice c.params 8 16, slice c.params 0x18 48, c.p 0x48 4, 0, c.p 0x50 4, 0, c.p 0x58 4, [], none⟩
          ∀ cfg, s1.segCfg k = some cfg → (s1.segPositions k).length < cfg.n → c.p 4 4 ≤ 63 → c.p 0x5C 4 = 0 →
           c.params.length = 0x60 → s1.adm pos = none → c.p 0x4C 4 = 0 → c.p 0x54 4 = 0 → 10 ≤ a.holdMs →
           a.holdMs ≤ 3600000 → a.holdMs < cfg.sessionMs → 8 ≤ cfg.bIn → s1.stn.ctxs.length < 1024 →
           s1.pwr.feramHold = false →
           Answers (.stnAdmit id) id s
             (((((s1.updNv fun nv => { nv with adms := tput nv.adms pos a }).setCtx pos (s1.newCtx a)).countContexts).segCounts k).offlineSegs,
               .done .ok (s1.newCtx a).ix 0 []))) ∧
       (Passes Op.STN_REMOVE id c s s1 →
         (s1.adm pos = none → Answers (.stnRemove id) id s (s1, .done .stationUnknown 0 0 [])) ∧
         (∀ a, s1.adm pos = some a → c.p 4 4 ≤ 63 → (s1.seg k).key ≠ [] → s1.drbgOk = false →
           Answers (.stnRemove id) id s (s1, .done .internal 0 0 [])) ∧
         (∀ a, s1.adm pos = some a → c.p 4 4 ≤ 63 → s1.ctx pos = none → ((s1.seg k).key = [] ∨ s1.drbgOk = true) →
           s1.pwr.feramHold = false →
           let u := s1.modSeg k fun g => { g with svcq := g.svcq.filter fun x => x.1 != pos % 64 }
           let u := (u.setQualities a.inFirst a.inCount 0x06).updNv fun nv =>
             { nv with adms := tdel nv.adms pos, tokens := nv.tokens.filter fun t => t.2.pos != pos }
           let u := ({ u with stn := { u.stn with ctxs := tdel u.stn.ctxs pos } }).modSeg k fun g =>
             { g with joins := tdel g.joins (pos % 64) }
           let v := ((u.countContexts).segCounts k).raise srcStn Ev.STN_REMOVED (State.stnParam pos) 0
           Answers (.stnRemove id) id s (v.renewKey k, .done .ok 0 0 []))) ∧
       (Passes Op.STN_BOXWOOD_SET id c s s1 →
         (s1.adm pos = none → Answers (.stnBoxwoodSet id) id s (s1, .done .stationUnknown 0 0 [])) ∧
         (∀ a g, s1.adm pos = some a → s1.segCfg k = some g → c.p 4 4 ≤ 63 → c.params.length = 8 + g.bOut →
           s1.pwr.feramHold = false → s1.ctx pos = none →
           Answers (.stnBoxwoodSet id) id s (s1.updNv fun nv => { nv with
             adms := tput nv.adms pos { a with boxCrc := some (crc32 (c.params.drop 8)).toNat } }, .done .ok 0 0 [])))) ∧
     (Passes Op.STN_STATUS id c s s1 →
       (s1.adm pos = none → Answers (.stnStatus id) id s (s1, .done .stationUnknown 0 0 [])) ∧
       (∀ a x, s1.adm pos = some a → s1.ctx pos = some x → c.p 4 4 ≤ 63 →
         Answers (.stnStatus id) id s (s1, replyOr c (padTo 48 (leBytes 4 x.state ++ leBytes 4 x.ix ++ a.serial ++
           leBytes 4 x.claim ++ leBytes 4 x.delayUs ++ leBytes 4 x.absentCount ++ leBytes 4 x.joinCount ++
           leBytes 4 (a.boxCrc.getD 0)))))) ∧
     (Passes Op.STN_LIST id c s s1 →
       Answers (.stnList id) id s (s1, replyOr c (((List.range 64).map fun n => leBytes 4
         (match s1.ctx (64 * k + n) with
           | some x => x.state + (if x.boxActive then 8 else 0) + 16 * (x.delayUs % 2 ^ 28)
           | none => 7)).flatten))))

/-- R249, R258, R259, R262, R267, R272 to R279, R279, R286, R291, R294: The phases of a bus cycle in their order: the
input phase begins, with the classes that hold for it, and ends; the outputs of the cycle that the boundary stages go
out in STAGE frames; the commit is decided for every staged station, and sent; each does nothing out of its phase. For
one staged station in session the decision sets its commit bit when it has acknowledged, and otherwise makes it ABSENT
once, counted and logged; a COMMIT makes a station whose bit is set ACTIVE, logged as admitted when it is new and
SYNCING and as rejoined otherwise. The model's choices it rests on: log entries 10, 72. -/
def Obligations.BusCyclesAndCommits : Prop :=
  (∀ (s : State) (k : Fin 20),
     (s.segState k ≠ 2 → exec (.inputPhaseStart k) s = .next s ∧ exec (.stagePhaseStart k) s = .next s) ∧
     (s.segState k = 2 → ((s.seg k).phase = .idle ∨ (s.seg k).phase = .service) → ∀ b p, s.nextBoundary k = some (b, p) →
       s.segPositions k = [] →
       exec (.inputPhaseStart k) s = .next (s.modSeg k fun g =>
         { g with phase := .input, boundary := b, period := p, staged := none, classes := s.classRegs,
                  newKey := g.newKey.map fun w => { w with cycles := w.cycles + 1 } })) ∧
     ((s.seg k).phase ≠ .input → exec (.inputPhaseEnd k) s = .next s) ∧
     ((s.seg k).phase = .input →
       exec (.inputPhaseEnd k) s =
         .next ((if s.loaded then s.ageSegment k else s).modSeg k fun g => { g with phase := .inputDone })) ∧
     (∀ t c, s.boundTask k = some t → s.segCfg k = some c → s.segState k = 2 → (s.seg k).phase = .inputDone →
       s.claiming = false → (s.task t).phase = .idle →
       exec (.stagePhaseStart k) s =
         .next ((s.modSeg k fun g => { g with phase := .stage, staged := none }).setReg (R.STN_SEG_DMEAS k) 0)) ∧
     ((s.seg k).phase ≠ .stage → exec (.commitDecision k) s = .next s) ∧
     ((s.seg k).phase = .stage → s.boundTask k = none → (s.seg k).staged = none → k.val < s.stn.segs.length →
       exec (.commitDecision k) s = .next (s.modSeg k fun g => { g with phase := .decided })) ∧
     ((s.seg k).phase ≠ .decided → exec (.commitSend k) s = .next s) ∧
     ((s.seg k).phase = .decided → (s.seg k).staged = none → k.val < s.stn.segs.length →
       exec (.commitSend k) s = .next (s.modSeg k fun g => { g with phase := .commit })) ∧
     (∀ t cycle, s.boundTask k = some t → s.segState k = 2 → (s.seg k).phase = .inputDone →
       let b := (s.seg k).boundary
       let u := ((s.modSeg k fun g => { g with phase := .stage, staged := none }).setReg (R.STN_SEG_DMEAS k) 0).checkOverrun t
       u.claiming = true → (u.seg k).settle = 0 → u.stageSource t b = some cycle → u.finalMarked t = false →
       let frames := u.stageFrames k (u.stageNums k)
       exec (.stagePhaseStart k) s = .next ((u.modSeg k fun g => { g with staged := some ⟨cycle, (u.reg R.RED_CLAIM).toNat,
         u.stageNums k, u.now % 2 ^ 32, sendOffsets k 0 frames, 0⟩ }).sendStages k cycle
           (State.applyTime b (u.reg (R.STN_APPLY_DELAY t)).toNat) frames)) ∧
     (∀ t g, s.boundTask k = some t → (s.seg k).phase = .stage →
       let u := (s.checkOverrun t).modSeg k fun g => { g with phase := .decided }
       (u.seg k).staged = some g →
       exec (.commitDecision k) s = .next (g.nums.foldl (fun s n => s.decideStation k g.cycle n) u)) ∧
     (∀ t g, s.boundTask k = some t → (s.seg k).phase = .decided → (s.seg k).staged = some g → k.val < s.stn.segs.length →
       s.claiming = true → s.finalMarked t = false → (s.task t).faultBoundary ≠ some (s.seg k).boundary →
       (s.reg R.RED_CLAIM).toNat = g.claim →
       let u := (s.modSeg k fun g => { g with phase := .commit }).sendGroup k 0x13 0 0
         (leBytes 8 g.cycle ++ leBytes 4 g.claim ++ leBytes 8 g.bitmap)
       let v := u.gapEnd ((u.seg k).boundary + usToUnits (u.reg (R.STN_APPLY_DELAY t)).toNat)
       exec (.commitSend k) s = .next (g.nums.foldl (fun s n => s.commitStation k g n) v))) ∧
  (∀ (s : State) (k cycle n : Nat) (c : Ctx), s.ctx (64 * k + n) = some c →
     (c.acked = true → 3 ≤ c.state → c.state ≤ 5 → s.decideStation k cycle n =
       s.modSeg k fun g => { g with staged := g.staged.map fun x => { x with bitmap := x.bitmap ||| 2 ^ n } }) ∧
     (c.state < 3 ∨ 5 < c.state ∨ (c.acked = false ∧ c.state = 5) → s.decideStation k cycle n = s) ∧
     (c.acked = false → (c.state = 3 ∨ c.state = 4) → s.decideStation k cycle n =
       State.segCounts k (((((s.modCtx (64 * k + n) fun c => { c with
         state := 5, absentAt := s.raw, absentCount := c.absentCount + 1, away := 0 }).bump (R.STN_SEG_ABSENT k) 1).raise srcStn
         Ev.STN_ABSENT (State.stnParam (64 * k + n)) cycle).notify 25))) ∧
     ∀ g : Staged,
       (g.bitmap.testBit n = false ∨ c.state < 3 ∨ 5 < c.state → s.commitStation k g n = s) ∧
       (g.bitmap.testBit n = true →
         let u := s.modCtx (64 * k + n) fun c => { c with claim := g.claim }
         let act (v : State) : State := State.notify 25 (State.segCounts k
           (v.modCtx (64 * k + n) fun c => { c with state := 4, fresh := false, away := 0 }))
         (c.state = 4 → s.commitStation k g n = u) ∧
         (c.state = 3 → c.fresh = true →
           s.commitStation k g n = act (u.raise srcStn Ev.STN_ADMITTED (State.stnParam (64 * k + n)) c.ix)) ∧
         (c.state = 5 ∨ (c.state = 3 ∧ c.fresh = false) →
           s.commitStation k g n = act (u.raise srcStn Ev.STN_REJOINED (State.stnParam (64 * k + n)) c.away))))

/-- R258, R260, R261, R264, R268, R272, R285, R288, R510: Frames from stations are ignored while the segment does not
listen, counted as bad in another phase or form, and otherwise taken or counted by their tag and sequence. What a
well-formed frame of a station does once its tag and sequence are accepted: the acknowledgement is noted with the
measured delay, an INPUT is collected by fragments, a CONFIG_ACK ends its wait. The model's choices it rests on: log
entries 12. -/
def Obligations.StationFrames : Prop :=
  (∀ (s : State) (k : Fin 20) (p : List Byte),
     (s.segListens k = false → ∀ i, i = .inputFrame k p ∨ i = .stageAckFrame k p ∨ (∃ mac, i = .joinReqFrame k mac p) ∨
       i = .joinProofFrame k p ∨ i = .configAckFrame k p → exec i s = .next s) ∧
     (s.segListens k = true →
       ((s.seg k).phase ≠ .input → exec (.inputFrame k p) s = .next (s.bump R.STN_BAD_FRAMES 1)) ∧
       ((s.seg k).phase ≠ .stage → (s.seg k).phase ≠ .decided → exec (.stageAckFrame k p) s = .next (s.bump R.STN_BAD_FRAMES 1)) ∧
       ((s.seg k).phase ≠ .service → ∀ i, (∃ mac, i = .joinReqFrame k mac p) ∨ i = .joinProofFrame k p ∨
         i = .configAckFrame k p → exec i s = .next (s.bump R.STN_BAD_FRAMES 1)) ∧
       (s.ctx (64 * k + fieldAt p 5 1) = none →
         ((s.seg k).phase = .input → State.frameOk k 0x10 true p = true → 16 ≤ fieldAt p 2 2 → fieldAt p 2 2 ≤ 1476 →
           fieldAt p 6 1 % 16 ≤ fieldAt p 6 1 / 16 →
           exec (.inputFrame k p) s = .next (s.bump R.STN_TAG_FAILS 1)) ∧
         (((s.seg k).phase = .stage ∨ (s.seg k).phase = .decided) → State.frameOk k 0x12 true p = true →
           fieldAt p 2 2 = 16 → exec (.stageAckFrame k p) s = .next (s.bump R.STN_TAG_FAILS 1)) ∧
         ((s.seg k).phase = .service → State.frameOk k 0x07 true p = true → fieldAt p 2 2 = 8 →
           exec (.configAckFrame k p) s = .next (s.bump R.STN_TAG_FAILS 1))))) ∧
  (∀ (s : State) (k : Fin 20) (p : List Byte), s.segListens k = true →
     let b := State.bodyOf p
     (((s.seg k).phase = .stage ∨ (s.seg k).phase = .decided) → State.frameOk k 0x12 true p = true → fieldAt p 2 2 = 16 →
       fieldAt p 7 1 = 1 →
       exec (.stageAckFrame k p) s = .next (match s.acceptStation k p with
         | (u, some pos) =>
           match (u.seg k).staged with
           | some g =>
             let sent := g.sendFrac + (tget g.sentAt (pos % 64)).getD 0
             let us := (fieldAt b 12 4 + 2 ^ 32 - sent % 2 ^ 32) % 2 ^ 32 * 1000000 / 2 ^ 32
             let v := if g.nums.contains (pos % 64) then
                 (u.regMax (R.STN_SEG_DMEAS k) (satTo 12 us)).modCtx pos fun c => { c with delayUs := us }
               else u
             v.modCtx pos fun c => { c with
               boxActive := false, acked := c.acked || (fieldAt b 0 8 == g.cycle && fieldAt b 8 4 == g.claim) }
           | none => u
         | (u, none) => u)) ∧
     ((s.seg k).phase = .input → State.frameOk k 0x10 true p = true → 16 ≤ fieldAt p 2 2 → fieldAt p 2 2 ≤ 1476 →
       fieldAt p 6 1 % 16 ≤ fieldAt p 6 1 / 16 →
       exec (.inputFrame k p) s = .next (match s.acceptStation k p with
         | (u, some pos) =>
           match u.adm pos, u.ctx pos with
           | some a, some c =>
             let v := u.modCtx pos fun c => { c with boxActive := fieldAt b 12 4 / 4 % 2 == 1 }
             if v.loaded = false ∨ (c.state ≠ 4 ∧ (c.state ≠ 3 ∨ (u.boundTask k).isSome = true)) then v
             else
               let fs := tput c.frags (fieldAt p 6 1 % 16) (b.drop 16)
               match State.allFrags (fieldAt p 6 1 / 16 + 1) fs with
               | none => v.modCtx pos fun c => { c with frags := fs }
               | some data => (v.modCtx pos fun c => { c with frags := [] }).takeInput k pos a (instantOf b) data
           | _, _ => u
         | (u, none) => u)) ∧
     ((s.seg k).phase = .service → State.frameOk k 0x07 true p = true → fieldAt p 2 2 = 8 →
       exec (.configAckFrame k p) s = .next (match s.acceptStation k p with
         | (u, some pos) =>
           match (u.seg k).cfgWait.find? fun x => x.1 == fieldAt b 0 4 && x.2.1 == pos % 64 with
           | some w =>
             let v := u.modSeg k fun g => { g with
               cfgWait := g.cfgWait.filter fun x => !(x.1 == fieldAt b 0 4 && x.2.1 == pos % 64) }
             if fieldAt b 4 4 ≠ 0 then v
             else if w.2.2 = 3 then
               v.modSeg k fun g => { g with newKey := g.newKey.map fun x => { x with left := x.left.filter (· != pos % 64) } }
             else
               (v.raise srcStn Ev.STN_BOXWOOD_LOADED (State.stnParam pos) (((v.adm pos).bind (·.boxCrc)).getD 0)).modCtx pos
                 fun c => { c with state := if c.state = 2 then 3 else c.state }
           | none => u
         | (u, none) => u)))

/-- R263, R266 to R269, R271, R287, R293, R294: The service window opens where the bus cycle lets it; a JOIN_REQ
beyond the eighth of a window is counted and ignored, one without a position fails with its cause, one with a position
gets a challenge, signed in mode 0; a JOIN_PROOF is kept until its verification, which ends in an admission, where a
context is free, or a failure. A session times out, a segment key is switched, a join lockout ends, and a segment
reaches ACTIVE or DISABLED; none of them before its time. The model's choices it rests on: log entries 10, 70, 71. -/
def Obligations.JoiningAndStationTimers : Prop :=
  (∀ (s : State) (k : Fin 20) (mac : Nat) (p : List Byte),
     let b := State.bodyOf p
     (s.segListens k = true → (s.seg k).phase = .service → State.frameOk k 0x02 false p = true → fieldAt b 16 1 = 1 →
       b.length = 60 →
       let u := s.modSeg k fun g => { g with joinReqs := (s.seg k).joinReqs + 1 }
       (8 ≤ (s.seg k).joinReqs →
         exec (.joinReqFrame k mac p) s = .next (u.bump (R.STN_SEG_JOINS_DEFERRED k) 1)) ∧
       ((s.seg k).joinReqs < 8 → u.serialLocked (b.take 16) = true →
         exec (.joinReqFrame k mac p) s = .next (u.joinFail k (b.take 16) 4)) ∧
       (∀ cause, (s.seg k).joinReqs < 8 → u.serialLocked (b.take 16) = false → u.joinPosition k b = .inr cause →
         exec (.joinReqFrame k mac p) s = .next (u.joinFail k (b.take 16) cause))) ∧
     (s.segListens k = true → (s.seg k).phase = .service → State.frameOk k 0x02 false p = true →
       (s.seg k).joinReqs < 8 → s.drbgOk = true →
       let u := s.modSeg k fun g => { g with joinReqs := (s.seg k).joinReqs + 1 }
       let ask (v : State) (n : Nat) (j : Join) (answer : List Byte) : State :=
         State.sendCelkin k mac (celkinHeader 0x03 answer.length k n 0 0 0 0 ++ answer)
           ((v.modSeg k fun g => { g with joins := tput g.joins n j }).modCtx (64 * k + n) fun c =>
             { c with state := if c.state = 0 then 1 else c.state })
       let r := u.drawBytes 32
       u.serialLocked (b.take 16) = false → ∀ n, u.joinPosition k b = .inl n →
       (fieldAt b 16 1 = 1 → b.length = 60 →
         exec (.joinReqFrame k mac p) s = .next (ask (r.2.draw 6).2 n
           ⟨1, b.take 16, mac, fieldAt b 24 4, some (fieldAt b 20 4), b, r.1, r.1, [], none⟩ r.1)) ∧
       (fieldAt b 16 1 = 0 → b.length = 156 →
         let e := r.2.drawBytes 48
         let ch := r.1 ++ Config.p384Pub e.1
         exec (.joinReqFrame k mac p) s = .next (ask (e.2.draw 6).2 n
           ⟨0, b.take 16, mac, fieldAt b 24 4, none, b, ch, r.1, e.1, none⟩
             (ch ++ Config.ecdsaSign (e.2.identity.getD []) (b ++ ch) (e.2.draw 6).1)))) ∧
     (s.segListens k = true → (s.seg k).phase = .service → State.frameOk k 0x04 false p = true →
       (tget (s.seg k).joins (fieldAt p 5 1) = none → exec (.joinProofFrame k p) s = .next s) ∧
       (∀ j, tget (s.seg k).joins (fieldAt p 5 1) = some j → j.mode = 1 → fieldAt p 2 2 = 16 →
         exec (.joinProofFrame k p) s = .next (s.modSeg k fun g =>
           { g with joins := tput g.joins (fieldAt p 5 1) { j with proof := some b } }))) ∧
     (s.segCfg k = none → exec (.serviceWindowStart k) s = .next s) ∧
     (∀ c, s.segCfg k = some c → s.segState k = 2 → ((s.seg k).phase = .commit ∨ (s.seg k).phase = .idle) →
       (s.seg k).svcq = [] → k.val < s.stn.segs.length →
       let w := State.adjustW c (s.seg k).joinReqs (s.seg k).w
       let u := (s.modSeg k fun g => { g with phase := .service, w := w, joinReqs := 0, svcq := [] }).setReg
         (R.STN_SEG_JOIN_WINDOW k) (BitVec.ofNat 32 w)
       let v := u.sendGroup k 0x01 0 0 (u.announceBody k c)
       let x := if 2 ^ 31 - 2 ^ 20 ≤ (v.seg k).txSeq ∧ (v.seg k).newKey = none then v.renewKey k else v
       s.serviceStart k = x ∧
         exec (.serviceWindowStart k) s =
           .next (if (x.seg k).phase = .service then (x.modSeg k fun g => { g with lineFree := x.now }).drainPort k else x)) ∧
     (∀ n : Fin 64,
       (tget (s.seg k).joins n = none → exec (.joinVerifyDone k n) s = .next s) ∧
       (∀ j c proof, tget (s.seg k).joins n = some j → s.segCfg k = some c → j.proof = some proof →
         s.segListens k = true → (s.seg k).phase = .service → s.pwr.mgtRuns = true → s.drbgOk = true →
         let u := s.modSeg k fun g => { g with joins := tdel g.joins n }
         exec (.joinVerifyDone k n) s = .next (match s.checkProof (64 * k + n) j proof with
           | .inl secret =>
             if (s.adm (64 * k + n)).isSome = true ∨ s.stn.ctxs.length < 1024 then u.admitStation k n j secret c
             else u.joinFail k j.serial 1
           | .inr cause => (u.modCtx (64 * k + n) fun c => { c with state := if c.state = 1 then 0 else c.state }).joinFail k
               j.serial cause)))) ∧
  (∀ (s : State) (k : Fin 20),
     (∀ (n : Fin 64) c g, s.ctx (64 * k + n) = some c → s.segCfg k = some g →
       (c.state = 5 → c.absentAt + 250 * (1000 * g.sessionMs) ≤ s.raw →
         exec (.stationSessionTimeout k n) s = .next (s.loseStation (64 * k + n))) ∧
       (c.state ≠ 5 ∨ s.raw < c.absentAt + 250 * (1000 * g.sessionMs) →
         exec (.stationSessionTimeout k n) s = .next s)) ∧
     ((s.seg k).newKey = none → exec (.segmentKeySwitch k) s = .next s) ∧
     (∀ w, (s.seg k).newKey = some w →
       (w.left = [] → exec (.segmentKeySwitch k) s =
         .next (s.modSeg k fun g => { g with
           key := w.key, epoch := w.epoch, txSeq := 0, peerSeq := 0, newKey := none })) ∧
       (w.left ≠ [] → w.cycles < 64 → exec (.segmentKeySwitch k) s = .next s)) ∧
     (∀ serial t, tget s.stn.locks (leNat serial) = some t →
       (t ≤ s.raw → exec (.joinLockoutExpiry serial) s =
         .next { s with stn := { s.stn with locks := tdel s.stn.locks (leNat serial) } }) ∧
       (s.raw < t → exec (.joinLockoutExpiry serial) s = .next s)) ∧
     (s.segState k ≠ 1 → exec (.segmentStartDone k) s = .next s.admitWaiting) ∧
     (s.segState k = 1 →
       let w := ((s.segCfg k).map (·.w)).getD 1
       let u := State.raise srcStn Ev.STN_SEGMENT_UP k (if (s.seg k).pended then 1 else 0)
         (((s.modSeg k fun g => { g with phase := .idle, w := w, joinReqs := 0, pended := false }).setRegField
           (R.STN_SEG_STATE k) 1 0 2).setReg (R.STN_SEG_JOIN_WINDOW k) (BitVec.ofNat 32 w))
       ((s.seg k).wantOff = false → exec (.segmentStartDone k) s = .next u.admitWaiting) ∧
       ((s.seg k).wantOff = true → exec (.segmentStartDone k) s = .next (u.segStop k).admitWaiting)) ∧
     (s.segState k ≠ 3 → exec (.segmentStopDone k) s = .next s.admitWaiting) ∧
     (s.segState k = 3 →
       let u := ((s.setRegField (R.STN_SEG_STATE k) 1 0 0).raise srcStn Ev.STN_SEGMENT_DOWN k 0).completeWaiting
         (.segmentOff k) .ok 0
       exec (.segmentStopDone k) s =
         .next (if s.regBit (R.STN_SEG_STATE k) 2 then u.segStart k true else u).admitWaiting))

/-! ### Optimiser -/

/-- R306 to R310, R318 to R321, R325, R343, R351, R352, R354, R363: The solver's commands: the refusal in STANDBY and
SILENT, loads and removals of descriptors, submissions, cancels, queries and result reads. A submission is checked in
the order of the spec; an accepted one is queued under its job ID, or takes over the run-ahead work of its slot that
it confirms; a write of PSUBMIT_HI submits the record at the address it completes. The model's choices it rests on:
log entries 30, 157. -/
def Obligations.SolverCommandsAndSubmissions : Prop :=
  (∀ (id : Nat) (c : Cmd) (s s1 : State),
     ((s1.role = 2 ∨ s1.role = 3) → ∀ (op : Nat) (i : Instr),
       (op, i) ∈ [(Op.SOLV_DESCRIPTOR_LOAD, Instr.solvDescriptorLoad id), (Op.SOLV_SUBMIT, .solvSubmit id),
         (Op.SOLV_CANCEL, .solvCancel id)] → Passes op id c s s1 → Answers i id s (s1, .done .role 0 0 [])) ∧
     (s1.role ≠ 2 → s1.role ≠ 3 →
       (Passes Op.SOLV_DESCRIPTOR_LOAD id c s s1 →
         let k := c.p 0 4
         let chunk := c.params.drop 0x18
         let load (l : Option (Nat × Nat × Nat × List Byte)) := s1.modSolv fun x => { x with load := l }
         (16 ≤ k → (c.p 4 4 = 0 ∨ ∀ l, s1.solv.load = some l → l.1 < 16) →
           Answers (.solvDescriptorLoad id) id s (load none, .done .badParam 0 0 [])) ∧
         (k < 16 → c.p 0xC 4 = 0 → c.p 4 4 ≠ 0 →
           (∀ bytes, s1.solv.load = some (k, c.p 8 4, c.p 0x10 8, bytes) → bytes.length = c.p 4 4 →
             c.p 8 4 < c.p 4 4 + chunk.length) →
           Answers (.solvDescriptorLoad id) id s (load none, .done .badParam 4 0 [])) ∧
         (k < 16 → c.p 0xC 4 = 0 → c.p 4 4 = 0 →
           ((s1.descSlot k).old ≠ [] → Answers (.solvDescriptorLoad id) id s (load none, .done .busy 4 0 [])) ∧
           ((s1.descSlot k).old = [] → c.p 8 4 = 0 → Answers (.solvDescriptorLoad id) id s
             (((load none).modDescSlot k fun x => { x with emptying := true }).settleSlot k, .done .ok 0 0 [])) ∧
           ((s1.descSlot k).old = [] → 256 ≤ c.p 8 4 → c.p 8 4 ≤ 0x400000 → c.p 8 4 < chunk.length →
             Answers (.solvDescriptorLoad id) id s (load none, .done .badParam 4 0 []))) ∧
         (k < 16 → c.p 0xC 4 = 0 → (s1.descSlot k).old = [] → 256 ≤ c.p 8 4 → c.p 8 4 ≤ 0x400000 →
           ∀ bytes, (c.p 4 4 = 0 ∧ bytes = [] ∨
             c.p 4 4 ≠ 0 ∧ s1.solv.load = some (k, c.p 8 4, c.p 0x10 8, bytes)) → bytes.length = c.p 4 4 →
             let d := bytes ++ chunk
             (d.length < c.p 8 4 → Answers (.solvDescriptorLoad id) id s
               (load (some (k, c.p 8 4, c.p 0x10 8, d)), .done .ok 0 0 [])) ∧
             (d.length = c.p 8 4 → s1.ddrReady = true → (load none).homeBad k (c.p 0x10 8) d = false →
               (load none).otherDescBytes k + d.length ≤ 7 * 2 ^ 20 → Answers (.solvDescriptorLoad id) id s
                 (match (load none).descFault k d with
                   | some (st, r0) => (load none, .done st r0 0 [])
                   | none => ((((load none).installDesc k (c.p 0x10 8) d).raise srcMgt Ev.SOLV_DESC_LOADED k
                       (dProblem d)).logUnbound k, .done .ok 0 0 []))))) ∧
       (Passes Op.SOLV_SUBMIT id c s s1 →
         let r := s1.submit true none c.params
         Answers (.solvSubmit id) id s (r.2.solvShow, .done r.1.1 r.1.2 0 [])) ∧
       (Passes Op.SOLV_CANCEL id c s s1 → c.p 3 1 = 0 →
         (c.p 0 2 = 0xFFFF → 16 ≤ c.p 2 1 → Answers (.solvCancel id) id s (s1, .done .badParam 0 0 [])) ∧
         (c.p 0 2 = 0xFFFF → c.p 2 1 < 16 → (∀ x ∈ s1.solv.jobs, x.2.slot = c.p 2 1 → 2 ≤ x.2.state) →
           (∀ x ∈ s1.solv.ahead, x.2.slot ≠ c.p 2 1) →
           Answers (.solvCancel id) id s (s1.solvShow, .done .ok 0 0 [])) ∧
         (c.p 0 2 ≠ 0xFFFF → (∀ x ∈ s1.solv.jobs, x.2.id ≠ c.p 0 2) →
           Answers (.solvCancel id) id s (s1, .done .badParam 0 0 [])) ∧
         (c.p 0 2 ≠ 0xFFFF → c.p 2 1 = 0 → ∀ ctx j, s1.solv.jobs.find? (fun x => x.2.id == c.p 0 2) = some (ctx, j) →
           (j.state = 2 → Answers (.solvCancel id) id s (s1, .done .badParam 1 0 [])) ∧
           (j.state ≠ 2 → Answers (.solvCancel id) id s ((s1.cancelJob ctx).solvShow, .done .ok 1 0 []))))) ∧
     (Passes Op.SOLV_STATUS id c s s1 →
       (65536 ≤ c.p 0 4 → c.p 0 4 ≠ 0xFFFFFFFF → Answers (.solvStatus id) id s (s1, .done .badParam 0 0 [])) ∧
       (c.p 0 4 = 0xFFFFFFFF → Answers (.solvStatus id) id s (s1, replyOr c
         (leBytes 4 s1.solvQueue ++ ((List.range 4).map fun e => leBytes 4 (s1.reg (R.SOLV_ENG_STATE e)).toNat).flatten ++
           ((List.range 4).map fun e => leBytes 4 (s1.reg (R.SOLV_ENG_LANES e)).toNat).flatten ++
           ((List.range 16).map fun d => leBytes 4 (s1.descState d)).flatten ++
           ((List.range 16).map fun d => leBytes 4 (s1.bankUse d)).flatten))) ∧
       (c.p 0 4 < 65536 → ∀ ctx j, s1.solv.jobs.find? (fun x => x.2.id == c.p 0 4) = some (ctx, j) →
         Answers (.solvStatus id) id s (s1, replyOr c (leBytes 2 j.id ++
           leBytes 2 (if j.state = 2 then j.status else .pending).code ++ leBytes 1 j.state ++ leBytes 1 j.slot ++
           leBytes 1 j.prio ++ leBytes 1 j.engines ++ leBytes 2 j.iters ++ zeros 2 ++ leBytes 4 j.tag)))) ∧
     (Passes Op.SOLV_RESULT_READ id c s s1 →
       ((65536 ≤ c.p 0 4 ∨ ∀ x ∈ s1.solv.jobs, x.2.id ≠ c.p 0 4) →
         Answers (.solvResultRead id) id s (s1, .done .badParam 0 0 [])) ∧
       (c.p 0 4 < 65536 → ∀ ctx j, s1.solv.jobs.find? (fun x => x.2.id == c.p 0 4) = some (ctx, j) → j.state = 2 →
         ((c.p 4 4 % 4 ≠ 0 ∨ j.record.length ≤ c.p 4 4) →
           Answers (.solvResultRead id) id s (s1, .done .badParam 4 0 [])) ∧
         (c.p 4 4 % 4 = 0 → c.p 4 4 < j.record.length →
           let bytes := (j.record.drop (c.p 4 4)).take c.replyLen
           let reads := (c.p 4 4, bytes.length) :: j.reads
           let all := ∀ i < j.record.length / 4, ∃ x ∈ reads, x.1 ≤ 4 * i ∧ 4 * i + 4 ≤ x.1 + x.2
           (all → Answers (.solvResultRead id) id s ({ s1 with solv := { s1.solv with jobs := tdel s1.solv.jobs ctx } },
             .done .ok (bytes.length % 65536) (bytes.length / 65536) bytes)) ∧
           (¬ all → Answers (.solvResultRead id) id s (s1.modJob ctx fun x => { x with reads := reads },
             .done .ok (bytes.length % 65536) (bytes.length / 65536) bytes)))))) ∧
  (∀ (host : Bool) (task : Option Nat) (r : List Byte) (s : State),
     let slot := fieldAt r 0 4
     let bank := fieldAt r 4 2 % 2
     let refused (st : Status) (r0 : Nat) := ((st, r0), s.bump R.SOLV_SUBMIT_REFUSED 1)
     ((16 ≤ slot ∨ (s.descSlot slot).cur = none) → s.submit host task r = refused .badParam 0) ∧
     (slot < 16 → ∀ v, (s.descSlot slot).cur = some v →
       (v.unbound = true → s.submit host task r = refused .symbolUnknown 0) ∧
       (v.unbound = false → ∀ off, State.submitBad r (dBanked v.bytes) (128 + 4 * planWords v.bytes) = some off →
         s.submit host task r = refused .badParam off) ∧
       (v.unbound = false → State.submitBad r (dBanked v.bytes) (128 + 4 * planWords v.bytes) = none →
         (v.place < 2 → (∀ e < 4, s.engState e ≠ 2) → s.submit host task r = refused .domainOff 2) ∧
         (2 ≤ v.place → ∀ e < 4, s.engState e ≠ 2 → (∀ k < e, s.engState k = 2) →
           s.submit host task r = refused .domainOff (2 + e)) ∧
         ((v.place < 2 ∧ (∃ e < 4, s.engState e = 2) ∨ 2 ≤ v.place ∧ ∀ e < 4, s.engState e = 2) →
           (s.areaInDdr (dBank v.bytes bank, dBankLen v.bytes) = true → s.ddrReady = false →
             s.submit host task r = refused .noDdr 0) ∧
           ((s.areaInDdr (dBank v.bytes bank, dBankLen v.bytes) = false ∨ s.ddrReady = true) →
             (s.solv.ahead = [] → s.freeCtx = none → s.submit host task r = refused .busy 2) ∧
             (∀ ctx, ((∀ x ∈ s.solv.ahead, x.2.slot ≠ slot) ∧ s.freeCtx = some ctx ∨
                 ∃ w, s.solv.ahead.find? (fun x => x.2.slot == slot) = some (ctx, w)) →
               (descSum (s.bytesAt v.home v.bytes.length) ≠ v.sum →
                 s.submit host task r = refused .solvDescriptor 0) ∧
               (descSum (s.bytesAt v.home v.bytes.length) = v.sum →
                 (∀ i, s.readInputs slot v task = .error i → s.submit host task r = refused .badParam (0x8000 + i)) ∧
                 (∀ inputs subs, s.readInputs slot v task = .ok (inputs, subs) →
                   (instantOf (slice r 8 12) = 0 ∨ s.now < instantOf (slice r 8 12)) →
                   let u := nth 0 s.solv.uses ctx
                   let t := (s.submit host task r).2
                   let j : Job :=
                     { id := ctx + 64 * u, slot := slot, ver := v.ver, bank := bank,
                       noApply := fieldAt r 4 2 / 2 % 2 == 1, prio := fieldAt r 6 1, deadline := instantOf (slice r 8 12),
                       resAddr := fieldAt r 0x18 8, tag := fieldAt r 0x20 4, host := host, order := s.solv.nextOrder,
                       state := 0, inputs := inputs, subst := subs.length, submitted := s.now, started := none,
                       startRaw := s.raw, engines := 0, iters := 0, spec := 0, ranAhead := false, gen := 0, data := [],
                       pt := [], pivots := 0, retries := 0, refine := 0, firstRetry := 0, inertia := false, refineLimit := false,
                       mism := [], status := .pending, record := [], reads := [], endRaw := 0 }
                   (s.submit host task r).1 = (.pending, ctx + 64 * u) ∧
                   (∀ k, k ≠ ctx → tget t.solv.jobs k = tget s.solv.jobs k) ∧
                   tget t.solv.ahead ctx = none ∧
                   ((tget s.solv.ahead ctx = none ∨ ∃ w, tget s.solv.ahead ctx = some w ∧
                       (if j.resAddr = 0 then s else s.setNum j.resAddr 4 (Status.pending.code + 0x10000 * j.id)).confirms
                         w v bank inputs = false) →
                     tget t.solv.jobs ctx = some j ∧
                     (j.resAddr ≠ 0 → t.numAt j.resAddr 4 = Status.pending.code + 0x10000 * j.id % 2 ^ 32) ∧
                     ∀ a, (j.resAddr = 0 ∨ a < j.resAddr ∨ j.resAddr + 4 ≤ a) → t.byteAt a = s.byteAt a) ∧
                   (∀ w, tget s.solv.ahead ctx = some w →
                     let m := if j.resAddr = 0 then s else s.setNum j.resAddr 4 (Status.pending.code + 0x10000 * j.id)
                     m.confirms w v bank inputs = true →
                     (v.place % 2 = 1 ∨ bankFaultAt w.data v.bytes inputs = none) →
                     tget t.solv.jobs ctx = some { j with
                       state := 1, started := some s.now, engines := w.engines, spec := w.iters, ranAhead := true,
                       gen := w.gen, data := w.data, pt := w.pt })))))))) ∧
     (∀ (who : Fin 34) (v : Word),
       let a := (s.heldLo who R.SOLV_PSUBMIT_LO).toNat / 64 * 64 + 2 ^ 32 * (v.toNat % 256)
       let shown (st : Status) (r0 : Nat) (u : State) : State :=
         ((({ u with solv := { u.solv with psub := tput u.solv.psub who (BitVec.ofNat 32 (st.code + 0x10000 * r0)) } }).setReg
           R.SOLV_PSUBMIT_HI (v &&& 0xFF)).dropHeld who R.SOLV_PSUBMIT_LO).solvShow
       (sramBase ≤ a → a + 48 ≤ sramBase + sramSize →
         let x := s.submit false (s.taskOfInitiator who) (s.bytesAt a 48)
         exec (.psubmitHiWrite who v) s = .next (shown x.1.1 x.1.2 x.2)) ∧
       (¬ (sramBase ≤ a ∧ a + 48 ≤ sramBase + sramSize) → ∃ n,
         exec (.psubmitHiWrite who v) s =
           .next (shown .badParam n ((s.draw 23).2.bump R.SOLV_SUBMIT_REFUSED 1)))))

/-- R316, R318, R322, R328, R337, R342, R344, R345, R361: The queue of jobs holds exactly the queued ones, none before
one that its priority, then its deadline, then its submission put before it; the first whose engines are ON starts on
an idle engine, or is waited for. An end gives the job the status of its reason: success on convergence, the best
effort for a feasible iterate at a limit, otherwise the fall-back; its record goes to its result address and frees its
context, or stays with the context; an ended job does not end again. Four engines take consecutive ranges of the
stages, the longer ones first; a pivot below its limit is replaced by δ with its sign, or with the sign of its part
where it is zero; the tail plan is its source moved on by one stage. The model's choices it rests on: log entries 73,
155, 163. -/
def Obligations.JobsAreOrderedAndEnd : Prop :=
  (∀ s : State,
     s.jobQueue.Perm (s.solv.jobs.filter fun x => x.2.state == 0) ∧
     s.jobQueue.Pairwise (fun a b => a.2.prio < b.2.prio ∨ a.2.prio = b.2.prio ∧
       let at' (x : Nat × Job) := if x.2.deadline = 0 then 2 ^ 96 else x.2.deadline
       (at' a < at' b ∨ at' a = at' b ∧ a.2.order ≤ b.2.order)) ∧
     (∀ c j m, s.pickJob s.jobQueue = some (c, j, m) → (c, j) ∈ s.jobQueue ∧
       ∀ e < 4, m / 2 ^ e % 2 = 1 → s.engState e = 2 ∧ s.engJob e = none ∧ s.lanePending e = false)) ∧
  (∀ (s : State) (ctx reason stage : Nat) (kat : List Nat) (j : Job) (v : DescVer),
     tget s.solv.jobs ctx = some j → s.descVer j.slot j.ver = some v →
     let t := s.endJob ctx reason stage kat
     let p := State.jobProb v j
     let m := if 0 < j.iters ∨ reason = 0 then p.metrics j.pt else State.noIterate
     let good := 0 < j.iters ∧ feasible v.bytes m = true
     (j.state = 2 → t = s) ∧
     (j.state ≠ 2 → reason ≤ 7 → ∃ st rec,
       (reason = 0 → st = .ok) ∧ (reason ∈ [1, 2, 3] → good → st = .solvBestEffort) ∧
       (reason ∈ [1, 2, 3] → ¬ good → st = .solvFallback) ∧ (reason = 4 → st = .solvNumeric) ∧
       (reason = 5 → st = .solvCancelled) ∧ (reason = 6 → st = .solvDescriptor) ∧ (reason = 7 → st = .solvFallback) ∧
       (∀ k, k ≠ ctx → tget t.solv.jobs k = tget s.solv.jobs k) ∧
       (rec.length = 128 ∨ rec.length = 128 + 4 * (p.planOf j.pt).length ∨
         ∃ z, s.tailPlan j.slot v.bytes = some z ∧ rec.length = 128 + 4 * z.length) ∧
       rec.take 2 = leBytes 2 st.code ∧ slice rec 2 2 = leBytes 2 j.id ∧ slice rec 4 4 = leBytes 4 j.tag ∧
       slice rec 0xC 2 = leBytes 1 j.slot ++ leBytes 1 reason ∧
       (slice rec 0x44 20 = leBytes 4 m.primal ++ leBytes 4 m.dual ++ leBytes 4 m.mu ++ leBytes 4 m.objective ++
         leBytes 4 m.slack) ∧
       ((reason = 0 ∨ reason ∈ [1, 2, 3] ∧ good) → rec.drop 128 = (p.planOf j.pt).flatMap fun w => leBytes 4 w) ∧
       (reason ∈ [4, 7] ∨ reason ∈ [1, 2, 3] ∧ ¬ good → rec.drop 128 = ((s.tailPlan j.slot v.bytes).getD []).flatMap fun w => leBytes 4 w) ∧
       (reason = 5 ∨ reason = 6 → rec.length = 128) ∧
       (j.resAddr = 0 → SameMemory s t ∧ tget t.solv.jobs ctx = some { j with
         state := 2, status := st, record := rec, reads := [], endRaw := s.raw }) ∧
       (j.resAddr ≠ 0 → tget t.solv.jobs ctx = none ∧ (∀ i < rec.length, t.byteAt (j.resAddr + i) = nth 0 rec i) ∧
         ∀ a, (a < j.resAddr ∨ j.resAddr + rec.length ≤ a) → t.byteAt a = s.byteAt a))) ∧
  ((∀ d : List Byte, rangeStart d 0 = 1 ∧ (∀ r < 3, rangeStart d (r + 1) = rangeStart d r + rangeLen d r ∧
       rangeLen d (r + 1) ≤ rangeLen d r ∧ rangeLen d 0 ≤ rangeLen d (r + 1) + 1) ∧
     rangeStart d 3 + rangeLen d 3 = dN d + 1) ∧
   (∀ (primal : Bool) (limit delta x : Nat),
     (ltL (absL x) limit = true →
       (x % 2 ^ 31 = 0 → pivotRule primal limit delta x = (if primal then delta else negL delta, true, false)) ∧
       (x % 2 ^ 31 ≠ 0 → ltL x 0 = true → pivotRule primal limit delta x = (negL delta, true, false)) ∧
       (x % 2 ^ 31 ≠ 0 → ltL x 0 = false → pivotRule primal limit delta x = (delta, true, false))) ∧
     (ltL (absL x) limit = false →
       pivotRule primal limit delta x = (x, false, (!overflowed x && (ltL x 0 == primal))))) ∧
   (∀ (d : List Byte) (z : List Nat) (k i : Nat), z.length = planWords d → 1 ≤ k → k ≤ dN d →
     (i < dNx d → planX d (shiftPlan d z) k i = planX d z (min (k + 1) (dN d)) i) ∧
     (i < dNu d → planU d (shiftPlan d z) (k - 1) i = planU d z (min k (dN d - 1)) i)))

/-- R308, R318, R322, R329 to R347, R355 to R358, R363: What happens to jobs and run-ahead work: a start, an iteration
and the ends by convergence, limit, deadline, numeric failure and cancellation, parking, and the freeing of an ended
job's context. Engines and lanes: the enable and disable commands by the state of the engine, the end of a start and
of a stop, a lane's bring-in, and the stored copy of a descriptor. The model's choices it rests on: log entries 10,
73, 75, 77, 130, 155, 158. -/
def Obligations.SolverEventsAndLanes : Prop :=
  (∀ (s : State) (ctx : Fin 64),
     (∀ kat, s.dropExpired.pickJob s.dropExpired.jobQueue = none →
       exec (.solveJobStart kat) s = .next s.dropExpired.solvShow) ∧
     (∀ c j m v, (∀ x ∈ s.solv.jobs, x.2.state = 0 → x.2.deadline = 0 ∨ s.now < x.2.deadline) →
       s.pickJob s.jobQueue = some (c, j, m) → tget s.solv.jobs c = some j → s.descVer j.slot j.ver = some v →
       (∀ x ∈ s.solv.ahead, x.2.engines &&& m = 0) →
       let r := (s.showLocal m).readBank v.bytes j.bank
       let p : Prob := { d := v.bytes, bank := r.1, inputs := j.inputs }
       let t := r.2.modJob c fun x => { x with
         state := 1, started := some r.2.now, startRaw := r.2.raw, engines := m, gen := fieldAt r.1 0 8, data := r.1,
         pt := p.startPoint (r.2.tailPlan j.slot v.bytes) }
       ((v.place % 2 = 1 ∨ bankFaultAt r.1 v.bytes j.inputs = none) →
         exec (.solveJobStart []) s = .next t.solvShow) ∧
       (v.place % 2 = 0 → bankFaultAt r.1 v.bytes j.inputs ≠ none →
         exec (.solveJobStart []) s = .next (t.endJob c 6 0 []).solvShow)) ∧
     (∀ j0 v r, tget s.solv.jobs ctx = some j0 → j0.state = 1 → s.descVer j0.slot j0.ver = some v →
       let u := s.sweepBank ctx j0 v
       let j := (tget u.solv.jobs ctx).getD j0
       let moved := v.place % 2 = 1 ∧ u.bankGen v.bytes j.bank ≠ j.gen
       let late := j.deadline ≠ 0 ∧ j.deadline ≤ u.now
       (moved → exec (.solveIteration ctx r) s = .next
         ((u.endJob ctx 5 0 []).raise (srcSolv j.engines) Ev.SOLV_BANK_WRITTEN j.slot j.id).solvShow) ∧
       (¬ moved → late → exec (.solveIteration ctx r) s = .next (u.endJob ctx 1 0 r.kat).solvShow) ∧
       (¬ moved → ¬ late → ∀ k, v.place % 2 = 1 → j.iters = 0 → bankFaultAt j.data v.bytes j.inputs = some k →
         exec (.solveIteration ctx r) s = .next (u.endJob ctx 6 k []).solvShow) ∧
       (¬ moved → ¬ late → ¬ (v.place % 2 = 1 ∧ j.iters = 0 ∧ bankFaultAt j.data v.bytes j.inputs ≠ none) → r.mism = [] →
         let p := State.jobProb v j
         (converges v.bytes (p.metrics j.pt) = true →
           exec (.solveIteration ctx r) s = .next (u.endJob ctx 0 0 r.kat).solvShow) ∧
         (converges v.bytes (p.metrics j.pt) = false → dIterLimit v.bytes ≤ j.iters →
           exec (.solveIteration ctx r) s = .next (u.endJob ctx 2 0 r.kat).solvShow) ∧
         (converges v.bytes (p.metrics j.pt) = false → j.iters < dIterLimit v.bytes →
           let out := iteration p (State.fourEngines v.place) j.pt
           let w := u.addTally ctx out.tally
           (∀ k, out.res = .error k → exec (.solveIteration ctx r) s = .next (w.endJob ctx 4 k r.kat).solvShow) ∧
           (∀ pt, out.res = .ok pt → exec (.solveIteration ctx r) s =
               .next (w.modJob ctx fun x => { x with pt := pt, iters := x.iters + 1 }).solvShow)))) ∧
     (∀ w v r, tget s.solv.jobs ctx = none → tget s.solv.ahead ctx = some w → s.descVer w.slot w.ver = some v →
       v.place % 2 = 0 → w.parked = false → converges v.bytes ((State.aheadProb v w).metrics w.pt) = false →
       w.iters < dIterLimit v.bytes → r.mism = [] →
       let out := iteration (State.aheadProb v w) (State.fourEngines v.place) w.pt
       (∀ pt, out.tally.retries = 0 → out.res = .ok pt → exec (.solveIteration ctx r) s = .next
         (s.modSolv fun x => { x with ahead := tput x.ahead ctx { w with pt := pt, iters := w.iters + 1 } }).solvShow) ∧
       (out.tally.retries ≠ 0 → exec (.solveIteration ctx r) s = .next (s.squash ctx).solvShow)) ∧
     (∀ f j v, tget s.solv.jobs ctx = some j → s.descVer j.slot j.ver = some v → j.state = 1 → j.deadline ≠ 0 →
       j.deadline ≤ s.now → f.mism = [] →
       let u := s.sweepBank ctx j v
       let cs := State.jobChecks ((tget u.solv.jobs ctx).getD j) v
       let x := u.cutAt ctx (min f.check cs.length) cs
       exec (.jobDeadlineExpiry ctx f) s = .next (x.2.endJob ctx 1 x.1 f.kat).solvShow) ∧
     (∀ f j, tget s.solv.jobs ctx = some j →
       (¬ (j.state = 1 ∧ j.deadline ≠ 0 ∧ j.deadline ≤ s.now) → exec (.jobDeadlineExpiry ctx f) s = .next s.solvShow) ∧
       (j.state = 0 ∧ j.deadline ≠ 0 ∧ j.deadline ≤ s.now → exec (.queuedDeadlineExpiry ctx) s =
         .next (s.endJob ctx 7 0 []).solvShow) ∧
       (¬ (j.state = 0 ∧ j.deadline ≠ 0 ∧ j.deadline ≤ s.now) →
         exec (.queuedDeadlineExpiry ctx) s = .next s.solvShow) ∧
       (j.state = 2 → j.endRaw + 15000000000 ≤ s.raw → exec (.contextExpiry ctx) s =
         .next { s with solv := { s.solv with jobs := tdel s.solv.jobs ctx } }) ∧
       (¬ (j.state = 2 ∧ j.endRaw + 15000000000 ≤ s.raw) → exec (.contextExpiry ctx) s = .next s)) ∧
     (∀ w v, tget s.solv.ahead ctx = some w → s.descVer w.slot w.ver = some v →
       ((w.parked = true ∨ converges v.bytes ((State.aheadProb v w).metrics w.pt) = false) →
         exec (.runAheadParked ctx) s = .next s.solvShow) ∧
       (w.parked = false → converges v.bytes ((State.aheadProb v w).metrics w.pt) = true → exec (.runAheadParked ctx) s =
         .next ((s.addTime R.SOLV_ENG_SPEC_US w.engines w.startRaw).modSolv fun x => { x with
           ahead := tput x.ahead ctx { w with parked := true } }).solvShow)) ∧
     (∀ f r, tget s.solv.jobs ctx = none → tget s.solv.ahead ctx = none →
       exec (.jobDeadlineExpiry ctx f) s = .next s.solvShow ∧ exec (.queuedDeadlineExpiry ctx) s = .next s.solvShow ∧
       exec (.contextExpiry ctx) s = .next s ∧ exec (.runAheadParked ctx) s = .next s.solvShow ∧
       exec (.solveIteration ctx r) s = .next s.solvShow)) ∧
  (∀ (id : Nat) (c : Cmd) (s s1 : State),
     (∀ (op : Nat) (i : Instr), (op, i) ∈ [(Op.SOLV_ENGINE_ENABLE, Instr.solvEngineEnable id),
         (Op.SOLV_ENGINE_DISABLE, .solvEngineDisable id)] → Passes op id c s s1 →
       ((s1.role = 2 ∨ s1.role = 3) → Answers i id s (s1, .done .role 0 0 [])) ∧
       (s1.role ≠ 2 → s1.role ≠ 3 → 4 ≤ c.p 0 4 → Answers i id s (s1, .done .badParam 0 0 []))) ∧
     (s1.role ≠ 2 → s1.role ≠ 3 → ∀ e, c.p 0 4 = e → e < 4 →
       (Passes Op.SOLV_ENGINE_ENABLE id c s s1 →
         (s1.domOn (2 + e) = false → Answers (.solvEngineEnable id) id s (s1, .done .domainOff (2 + e) 0 [])) ∧
         (s1.domOn (2 + e) = true →
           ((s1.laneMap e).inUse.length < 32 → Answers (.solvEngineEnable id) id s (s1, .done .noSpare 0 0 [])) ∧
           (32 ≤ (s1.laneMap e).inUse.length →
             let held := s1.setRegBit (R.SOLV_ENG_STATE e) 2 true
             (s1.engState e = 0 → Answers (.solvEngineEnable id) id s
               ((s1.engineStart e false).solvShow, .later (.engineOn e))) ∧
             (s1.engState e = 1 → bit s1.solv.disableWaiting e = false →
               Answers (.solvEngineEnable id) id s (s1, .later (.engineOn e))) ∧
             (s1.engState e = 2 → Answers (.solvEngineEnable id) id s (s1, .done .ok 0 0 [])) ∧
             ((s1.engState e = 3 ∨ s1.engState e = 1 ∧ bit s1.solv.disableWaiting e = true) →
               Answers (.solvEngineEnable id) id s (held, .done .pending 0 0 []))))) ∧
       (Passes Op.SOLV_ENGINE_DISABLE id c s s1 →
         (s1.engState e = 0 → Answers (.solvEngineDisable id) id s (s1, .done .ok 0 0 [])) ∧
         (s1.engState e ≠ 0 → ∃ u, Answers (.solvEngineDisable id) id s (u.solvShow, .later (.engineOff e)) ∧
           (s1.engState e = 2 → u = (s1.setRegField (R.SOLV_ENG_STATE e) 1 0 3).engineClear e) ∧
           (s1.engState e = 3 → s1.regBit (R.SOLV_ENG_STATE e) 2 = false → u = s1) ∧
           (s1.engState e = 1 → s1.regBit (R.SOLV_ENG_STATE e) 2 = false →
             u = s1.modSolv fun x => { x with disableWaiting := setBit x.disableWaiting e true }) ∧
           (s1.engState e ≠ 2 → s1.regBit (R.SOLV_ENG_STATE e) 2 = true → bit u.solv.disableWaiting e =
             (decide (s1.engState e = 1) || bit s1.solv.disableWaiting e) ∧
             u.regBit (R.SOLV_ENG_STATE e) 2 = false)))) ∧
     (∀ e : Fin 4,
       (∀ kat, s.engState e ≠ 1 → exec (.engineStartDone e kat) s = .next s.solvShow) ∧
       (s.engState e = 1 → s.lanePending e = false → bit s.solv.disableWaiting e = false →
         32 ≤ (s.laneMap e).inUse.length →
         let u := (((s.setRegField (R.SOLV_ENG_STATE e) 1 0 2).setRegBit (R.SOLV_ENG_STATE e) 3
           (decide ((s.laneMap e).inUse.length < 64))).raise (20 + e) Ev.SOLV_ENGINE_ON e
             (if bit s.solv.startPending e then 1 else 0)).completeWaiting (.engineOn e) .ok 0
         exec (.engineStartDone e []) s = .next (State.solvShow (u.modSolv fun x => { x with
           disableWaiting := setBit x.disableWaiting e false, startPending := setBit x.startPending e false }))) ∧
       (s.engState e ≠ 3 → exec (.engineStopDone e) s = .next s.solvShow) ∧
       (s.engState e = 3 → s.regBit (R.SOLV_ENG_STATE e) 2 = false →
         exec (.engineStopDone e) s = .next (((s.setRegField (R.SOLV_ENG_STATE e) 3 0 0).raise (20 + e) Ev.SOLV_ENGINE_OFF
           e 0).completeWaiting (.engineOff e) .ok 0).solvShow) ∧
       ((s.lanePending e = false ∨ s.engState e = 0 ∨ (s.engJob e).isSome = true ∨ (s.engAhead e).isSome = true) →
         exec (.laneBringIn e) s = .next s.solvShow) ∧
       (∀ x, s.solv.laneDue.find? (fun x => x / 128 == e.val) = some x → s.engState e ≠ 0 → s.engJob e = none →
         s.engAhead e = none → ∀ sp, s.spareLane e = some sp →
         let u := s.modSolv fun v => { v with laneDue := v.laneDue.filter (· != x) }
         exec (.laneBringIn e) s = .next ((((u.setLanes e fun m => { m with
             inUse := m.inUse.map fun l => if l = x % 128 then sp else l }).raise (20 + e) Ev.SOLV_LANE_SPARED e
               (x % 128 + 256 * sp)).spared 1 e (256 * e + x % 128)).solvShow))) ∧
     (∀ d : Fin 16,
       ((s.descSlot d).cur = none → exec (.descStoreDone d) s = .next s) ∧
       (∀ v, (s.descSlot d).cur = some v →
         (v.stored = true → exec (.descStoreDone d) s = .next s) ∧
         (v.stored = false → exec (.descStoreDone d) s = .next
           ((({ s with descArea := tput s.descArea (16 * s.nv.activeSlot + d) (v.home, v.bytes) }).modDescSlot d fun x =>
             { x with cur := some { v with stored := true } }).raise srcMgt Ev.SOLV_DESC_STORED d 0)))))

/-! ### Metering -/

/-- R123, R367, R371, R376, R385, R391, R402, R411, R517: The metering commands: the refusals in STANDBY and SILENT
and while FeRAM is held, those for unknown channels and bad tables, what an accepted configuration stores, and the two
readings. The model's choices it rests on: log entries 81. -/
def Obligations.MeteringCommands : Prop :=
  ∀ (id : Nat) (c : Cmd) (s s1 : State),
    (∀ (op : Nat) (i : Instr), (op, i) ∈ [(Op.MET_CHANNEL_CONFIG, Instr.metChannelConfig id),
        (Op.MET_METER_CONFIG, .metMeterConfig id), (Op.MET_USER_CAL_WRITE, .metUserCalWrite id),
        (Op.MET_MEDIUM_TABLE_WRITE, .metMediumTableWrite id), (Op.MET_TARIFF_CONFIG, .metTariffConfig id),
        (Op.MET_PULSE_CONFIG, .metPulseConfig id)] → Passes op id c s s1 →
      ((s1.role = 2 ∨ s1.role = 3) → Answers i id s (s1, .done .role 0 0 [])) ∧
      (s1.role ≠ 2 → s1.role ≠ 3 → s1.pwr.feramHold = true → Answers i id s (s1, .done .busy 3 0 []))) ∧
    (s1.role ≠ 2 → s1.role ≠ 3 → s1.pwr.feramHold = false →
      let store (f : MetCfg → MetCfg) := s1.updNv fun n => { n with met := f n.met }
      (Passes Op.MET_CHANNEL_CONFIG id c s s1 →
        (1024 ≤ c.p 0 4 → Answers (.metChannelConfig id) id s (s1, .done .badParam 0 0 [])) ∧
        (c.p 0 4 < 1024 → 31 < c.p 0 4 % 256 → Answers (.metChannelConfig id) id s (s1, .done .meterUnknown 0 0 [])) ∧
        (c.p 0 4 < 1024 → c.p 0 4 % 256 ≤ 31 → c.p 0 4 / 256 % 2 = 0 →
          (c.params.length ≠ 24 → Answers (.metChannelConfig id) id s (s1, .done .badLength 24 24 [])) ∧
          (c.params.length = 24 → c.p 4 1 ≤ 2 → c.p 5 3 = 0 →
            (∀ x ∈ s1.nvNext.met.sets, x.2.enable = true →
              (x.2.v = c.p 0 4 % 256 → c.p 4 1 = 1) ∧ (x.2.i = c.p 0 4 % 256 → c.p 4 1 = 2)) →
            let k : AnCfg := ⟨c.p 4 1, c.p 8 4, c.p 0xC 4, c.p 0x10 4, c.p 0x14 4⟩
            let t := store fun m => { m with chans := tput m.chans (c.p 0 4 % 256) k }
            Answers (.metChannelConfig id) id s (if s1.met.blkN = 0 then t.metSync else t, .done .ok 0 0 []))) ∧
        (let i := c.p 0 4 % 256
         let clear := c.p 0 4 / 512 % 2 = 1
         let k : SetCfg := ⟨c.p 4 1, c.p 5 1, c.p 6 1 % 2 == 1, c.p 6 1 / 2 == 1, c.p 8 4⟩
         let old := tget s1.nvNext.met.sets i
         let on := ∃ o, old = some o ∧ o.enable = true
         c.p 0 4 < 1024 → i ≤ 31 → c.p 0 4 / 256 % 2 = 1 →
         (c.params.length ≠ 16 → Answers (.metChannelConfig id) id s (s1, .done .badLength 16 16 [])) ∧
         (c.params.length = 16 → k.v ≤ 31 → k.i ≤ 31 → c.p 6 1 < 4 → c.p 7 1 = 0 → 2 ^ 12 ≤ k.t → k.t ≤ 2 ^ 20 →
          c.p 0xC 4 = 0 →
          (k.enable = true → ((tget s1.nvNext.met.chans k.v).map (·.kind)) = some 1 ∧
            ((tget s1.nvNext.met.chans k.i).map (·.kind)) = some 2 ∧
            ∀ x ∈ s1.nvNext.met.sets, x.1 = i ∨ x.2.enable = false ∨ x.2.i ≠ k.i) →
          (¬ on → k.enable = false → (old ≠ some k ∨ clear) →
            Answers (.metChannelConfig id) id s (s1, .done .badParam 4 0 [])) ∧
          ((on ∨ k.enable = true ∨ old = some k ∧ ¬ clear) → ∀ on' clear' : Bool, (on' = true ↔ on) → (clear' = true ↔ clear) →
            let u := if on' then s1.flushCh (2048 + i) else s1
            let u := if clear' then u.clearFlags (2048 + i) else u
            let u := u.updNv fun n => { n with met := { n.met with sets := tput n.met.sets i k } }
            let u := if on' then u else u.windowOpen (2048 + i)
            Answers (.metChannelConfig id) id s (if u.met.blkN = 0 then u.metSync else u, .done .ok 0 0 []))))) ∧
      (Passes Op.MET_METER_CONFIG id c s s1 →
        (2048 ≤ c.p 0 4 → Answers (.metMeterConfig id) id s (s1, .done .meterUnknown 0 0 [])) ∧
        (let n := c.p 0 4
         let k := meterOf c
         let clear := c.p 5 1 / 8 % 2 = 1
         let old := tget s1.nvNext.met.meters n
         let on := ∃ o, old = some o ∧ o.mode ≠ 0
         n < 2048 → k.mode ≤ 3 → c.p 5 1 < 16 → k.medium ≤ 16 → k.seg ≤ 19 → k.stn ≤ 63 → c.p 9 3 = 0 →
         k.fwd ≤ 383 → (k.rev = 0xFFFF ∨ k.rev ≤ 383 ∧ bindingBad s1 k k.rev [3, 5] = false) → k.sup ≤ 383 → k.ret ≤ 383 →
         bindingBad s1 k k.fwd [3, 5] = false → bindingBad s1 k k.sup [8, 9] = false → bindingBad s1 k k.ret [8, 9] = false →
         1 ≤ k.countVol → k.countVol ≤ 10000000 → 2 ^ 12 ≤ k.t → k.t ≤ 2 ^ 23 → fp32In 0x3DCCCCCD 0x40200000 k.pressure = true →
         fp32In 0 0x40A00000 k.dMin = true → fp32In 0xBF800000 0x3F800000 k.offS = true →
         fp32In 0xBF800000 0x3F800000 k.offR = true → 1 ≤ k.gap → k.gap ≤ 3600 → 1 ≤ k.age → k.age ≤ 3600 →
         c.p 0x38 8 = 0 →
         (¬ on → k.mode = 0 → (old ≠ some k ∨ clear) →
           Answers (.metMeterConfig id) id s (s1, .done .badParam 4 0 [])) ∧
         ((on ∨ k.mode ≠ 0 ∨ old = some k ∧ ¬ clear) → ∀ on' clear' keep : Bool, (on' = true ↔ on) → (clear' = true ↔ clear) →
           (keep = true ↔ on ∧ ∃ o, old = some o ∧ o.seg = k.seg ∧ o.stn = k.stn ∧ o.fwd = k.fwd ∧ o.rev = k.rev ∧
             o.sup = k.sup ∧ o.ret = k.ret ∧ o.countVol = k.countVol) →
           let u := if on' then s1.flushCh n else s1
           let u := if clear' then u.clearFlags n else u
           let u := u.updNv fun v => { v with met := { v.met with meters := tput v.met.meters n k } }
           let u := u.modMetCh n fun x =>
             { x with flags := setBit x.flags 2 (bit k.flags 0), base := if keep then x.base else none }
           Answers (.metMeterConfig id) id s (if on' then u else u.windowOpen n, .done .ok 0 0 [])))) ∧
      (Passes Op.MET_USER_CAL_WRITE id c s s1 →
        let sum := (crc32 (c.params.drop 16)).toNat
        let entry (i : Nat) : Nat × Int × Int :=
          (c.p (16 + 12 * i) 4, toSigned 32 (c.p (20 + 12 * i) 4), toSigned 16 (c.p (24 + 12 * i) 2))
        let fits (i : Nat) : Prop := fp32In 0x3F666666 0x3F8CCCCD (entry i).1 = true ∧ -(2 ^ 20) ≤ (entry i).2.1 ∧
          (entry i).2.1 ≤ 2 ^ 20 ∧ c.p (26 + 12 * i) 2 = 0 ∧ -2048 ≤ s1.fcalDelay i + (entry i).2.2 ∧
          s1.fcalDelay i + (entry i).2.2 ≤ 2048
        ((c.p 0 4 ≠ 0x55435A47 ∨ c.p 4 4 ≠ 32 ∨ c.p 8 4 ≠ 0 ∨ c.p 0xC 4 ≠ sum) →
          Answers (.metUserCalWrite id) id s (s1, .done .calInvalid 0xFFFF 0 [])) ∧
        (c.p 0 4 = 0x55435A47 → c.p 4 4 = 32 → c.p 8 4 = 0 → c.p 0xC 4 = sum →
          (∀ i < 32, ¬ fits i → (∀ k < i, fits k) → Answers (.metUserCalWrite id) id s (s1, .done .calInvalid i 0 [])) ∧
          ((∀ i < 32, fits i) →
            let t := store fun m => { m with cal := (List.range 32).map entry }
            Answers (.metUserCalWrite id) id s
              ((if s1.met.blkN = 0 then t.metSync else t).raise srcMet Ev.MET_CAL_CHANGED 0 sum, .done .ok 0 0 [])))) ∧
      (Passes Op.MET_MEDIUM_TABLE_WRITE id c s s1 →
        let t := c.p 0 4
        let n := c.p 4 4
        let pt (i : Nat) : Nat × Nat × Nat := (c.p (8 + 12 * i) 4, c.p (12 + 12 * i) 4, c.p (16 + 12 * i) 4)
        ((t = 0 ∨ 16 < t) → Answers (.metMediumTableWrite id) id s (s1, .done .badParam 0 0 [])) ∧
        (1 ≤ t → t ≤ 16 → (n < 2 ∨ 64 < n) → ∃ v,
          Answers (.metMediumTableWrite id) id s ((s1.draw 21).2, .done .tableInvalid v 0 [])) ∧
        (1 ≤ t → t ≤ 16 → 2 ≤ n → n ≤ 64 → c.params.length = 8 + 12 * n →
          (∀ i < n, fp32In 0x43FA0000 0x44FA0000 (pt i).2.2 = true ∧ (fpDecode fp32 (pt i).1).isNan = false ∧
            (fpDecode fp32 (pt i).2.1).isNan = false) →
          (∀ i, i + 1 < n → (fpCompare fp32 1 (pt i).1 (pt (i + 1)).1).1 = true ∧
            (fpCompare fp32 1 (pt i).2.1 (pt (i + 1)).2.1).1 = true) →
          Answers (.metMediumTableWrite id) id s
            (store fun m => { m with tables := tput m.tables t ((List.range n).map pt) }, .done .ok 0 0 []))) ∧
      (Passes Op.MET_TARIFF_CONFIG id c s s1 →
        let g : Tariff := ⟨c.p 0 4, c.p 4 4, c.p 8 4, c.p 0xC 4⟩
        ((g.pw < 60 ∨ 86400 < g.pw ∨ 86400 % g.pw ≠ 0) →
          Answers (.metTariffConfig id) id s (s1, .done .badParam 0 0 [])) ∧
        (60 ≤ g.pw → g.pw ≤ 86400 → 86400 % g.pw = 0 → g.off ≤ 86399 → 60 ≤ g.pd → g.pd ≤ 3600 → g.pw % g.pd = 0 →
          100 ≤ g.closeWait → g.closeWait ≤ 60000 → c.p 0x10 4 ≤ 1 →
          let t := store fun m => { m with tariff := some g }
          let t := if s1.met.grid = none then t.windowStart.met.chs.foldl (fun s x => s.windowOpen x.1) t.windowStart else t
          Answers (.metTariffConfig id) id s (if c.p 0x10 4 = 1 then
            { t with met := { t.met with resetMax := some (t.demandAfter t.nowSec) } } else t, .done .ok 0 0 []))) ∧
      (Passes Op.MET_PULSE_CONFIG id c s s1 →
        let p := c.p 0 4
        let k : PulseCfg := ⟨c.p 4 1, c.p 5 1, c.p 6 2, c.p 8 4, c.p 0xC 1, c.p 0xD 1⟩
        ((15 < p ∨ k.src = 1 ∧ 2047 < k.ix ∨ k.src = 2 ∧ 31 < k.ix) →
          Answers (.metPulseConfig id) id s (s1, .done .meterUnknown 0 0 [])) ∧
        (p ≤ 15 → (k.src = 0 ∨ 1 ≤ k.weight ∧ 30 ≤ k.width ∧ 30 ≤ k.pause ∧
            (k.src = 1 ∧ k.ix ≤ 2047 ∧ k.reg ≤ 5 ∧ (∀ m, tget s1.nvNext.met.meters k.ix = some m → bit m.flags 0 = false) ∨
              k.src = 2 ∧ k.ix ≤ 31 ∧ k.reg ≤ 7)) → c.p 0xE 2 = 0 →
          let t := store fun m => { m with pulses := if k.src = 0 then tdel m.pulses p else tput m.pulses p k }
          Answers (.metPulseConfig id) id s ({ t with met := { t.met with
            pulses := modNth (fun y => { y with div := 0, waiting := 0 }) t.met.pulses p } }, .done .ok 0 0 [])))) ∧
    (let last := if c.p 0 4 = 1 then 32 else 2048
     let base := if c.p 0 4 = 1 then 2048 else 0
     ∀ (op : Nat) (i : Instr) (entry : Nat → List Byte), (op, i, entry) ∈
        [(Op.MET_READ_TOTALS, Instr.metReadTotals id, totalsEntry s1), (Op.MET_READ_INTERVAL, .metReadInterval id, fun n =>
          if s1.domOn 8 then (tget s1.met.snap n).getD (zeros (closeLen n)) else s1.bytesAt (metClose n) (closeLen n))] →
      Passes op id c s s1 →
      (1 < c.p 0 4 → Answers i id s (s1, .done .badParam 0 0 [])) ∧
      (c.p 0 4 ≤ 1 → (c.p 8 4 < 1 ∨ 256 < c.p 8 4) → Answers i id s (s1, .done .badParam 8 0 [])) ∧
      (c.p 0 4 ≤ 1 → 1 ≤ c.p 8 4 → c.p 8 4 ≤ 256 → last < c.p 4 4 + c.p 8 4 →
        Answers i id s (s1, .done .meterUnknown 0 0 [])) ∧
      (c.p 0 4 ≤ 1 → 1 ≤ c.p 8 4 → c.p 8 4 ≤ 256 → c.p 4 4 + c.p 8 4 ≤ last →
        Answers i id s (s1, replyOr c (((List.range (c.p 8 4)).map fun k => entry (base + c.p 4 4 + k)).flatten))))

/-- R366, R369, R370, R372, R374: A sample of the analog channels is held with its stamp, marks clipping at the second
rail code in a row, and raises each channel's peak; without PD_MET it is lost; a block ends when it is due and clears
its sums. The readings of a set are the exact quotients over the last 20 blocks, rounded to FP32, with the factor of
the channels' scales; the power factor has the sign of the active power, and the frequency reads 0 below a tenth of
nominal. The model's choices it rests on: log entries 13, 78, 83. -/
def Obligations.SamplesBlocksAndSets : Prop :=
  (∀ (s : State) (raw : List (BitVec 24)),
     (s.domOn 8 = false → exec (.analogSample raw) s = .next s) ∧
     (s.domOn 8 = true → s.blockDue = false → raw.length = 32 → s.met.analog.length = 32 → ∃ t j,
       exec (.analogSample raw) s = .next t ∧ j < 192 ∧
       t.met.hist = ((s.now - j, raw.map (·.toInt)) :: s.met.hist).take 5 ∧ SameMemory s t ∧
       t.met.chs = s.met.chs ∧ t.met.blkN = s.met.blkN + (if s.met.hist.length < 2 then 0 else 1) ∧
       ∀ c < 32, let x := (nth 0 raw c).toInt
         (t.reg (R.MET_CH_PEAK c)).toNat = max (s.reg (R.MET_CH_PEAK c)).toNat x.natAbs ∧
         (t.anCh c).rail = (x == 2 ^ 23 - 1 || x == -(2 ^ 23)) ∧
         (t.anCh c).clip = ((s.anCh c).clip || ((s.anCh c).rail && (x == 2 ^ 23 - 1 || x == -(2 ^ 23))))) ∧
     (s.blockDue = false → exec .electricBlockEnd s = .next s) ∧
     (s.blockDue = true → ∃ t, exec .electricBlockEnd s = .next t ∧ t.met.blkN = 0 ∧ t.met.blkFrom = t.met.blkTo ∧
       t.met.vi = List.replicate 32 0 ∧ (∀ a ∈ t.met.analog, a.sq = 0 ∧ a.clip = false) ∧
       t.met.chans = s.nvNext.met.chans ∧ t.met.sets = s.nvNext.met.sets ∧ SameMemory s t) ∧
     (s.blockDue = true ↔ 160 ≤ s.met.blkN ∨ 0 < s.met.blkN ∧ ∃ e,
       (e = s.endAfter (s.met.blkFrom / 2 ^ 32) ∨ e = s.demandAfter (s.met.blkFrom / 2 ^ 32)) ∧ e ≠ 0 ∧
         e * 2 ^ 32 ≤ s.met.blkTo)) ∧
  (∀ (s : State) (i : Fin 32) (k : SetCfg),
     let sum (h : List (Int × Nat)) : Int := (h.map (·.1)).sum
     let cnt (h : List (Int × Nat)) : Nat := max 1 ((h.map (·.2)).sum)
     let sv := s.codeScale k.v
     let si := s.codeScale k.i
     let v2 := (sv.mul sv).mul ⟨sum (s.anCh k.v).hist, cnt (s.anCh k.v).hist⟩
     let i2 := (si.mul si).mul ⟨sum (s.anCh k.i).hist, cnt (s.anCh k.i).hist⟩
     let p := (sv.mul si).mul ⟨sum (nth [] s.met.viHist i), cnt (nth [] s.met.viHist i)⟩
     let n := Q.ofFp fp32 (s.anCfg k.v).nominal
     let low := (v2.mul (Q.ofInt 100)).lt (n.mul n)
     let t := s.setReadings i k
     t.reg (R.MET_SET_P i) = BitVec.ofNat 32 (Q.toFp fp32 p) ∧
     t.reg (R.MET_SET_S i) = BitVec.ofNat 32 (Q.sqrtFp fp32 (v2.mul i2)) ∧
     t.reg (R.MET_SET_VRMS i) = BitVec.ofNat 32 (Q.sqrtFp fp32 v2) ∧
     t.reg (R.MET_SET_IRMS i) = BitVec.ofNat 32 (Q.sqrtFp fp32 i2) ∧
     t.regBit (R.MET_SET_STATE i) 3 = low ∧
     (low = true → t.reg (R.MET_SET_FREQ i) = 0) ∧
     ((v2.mul i2).n = 0 → t.reg (R.MET_SET_PF i) = 0) ∧
     ((v2.mul i2).n ≠ 0 → t.reg (R.MET_SET_PF i) =
       BitVec.ofNat 32 ((if p.n < 0 then 2 ^ 31 else 0) + Q.sqrtFp fp32 ((p.mul p).div (v2.mul i2)))) ∧
     SameMemory s t ∧ SameRegs [R.MET_SET_P i, R.MET_SET_Q i, R.MET_SET_S i, R.MET_SET_VRMS i, R.MET_SET_IRMS i,
       R.MET_SET_FREQ i, R.MET_SET_PF i, R.MET_SET_STATE i] s t)

/-- R386, R387, R396, R404: An amount goes wholly to its accumulator; a remainder of another register of the group is
flushed, one of T or more spills in multiples of T, and a record write is due exactly when a written total changed.
The closing record of a meter holds the end of the window, the closing values, the fault time and the flags, under its
CRC; it waits in rising order, the next window opens, and one that is incomplete is logged. The model's choices it
rests on: log entries 13, 14. -/
def Obligations.EnergyAndClosingRecords : Prop :=
  (∀ (grp : List Nat) (t r : Nat) (x : Int) (c : MetCh) (due : Bool),
     0 < t → r ∈ grp → (∀ j ∈ grp, j < 8) → c.acc.length = 8 → c.tot.length = 8 →
     let y := MetCh.addEnergy grp t r x (c, due)
     (x = 0 → y = (c, due)) ∧
     (x ≠ 0 →
       y.1 = { c with acc := y.1.acc, tot := y.1.tot } ∧
       nth 0 y.1.acc r = nth 0 c.acc r + x ∧ (∀ j, j ≠ r → nth 0 y.1.acc j = nth 0 c.acc j) ∧
       (∀ j ∈ grp, j ≠ r → nth 0 y.1.tot j = nth 0 c.acc j) ∧ (∀ j, j ∉ grp → nth 0 y.1.tot j = nth 0 c.tot j) ∧
       (y.1.rem r).natAbs < t ∧ (t : Int) ∣ nth 0 y.1.tot r - nth 0 c.tot r ∧
       (y.2 = true ↔ due = true ∨ y.1.tot ≠ c.tot))) ∧
  (∀ (s : State) (n : Nat) (regs : List Int) (incomplete : Bool), n < 2080 → regs.length = 8 →
     (s.met.closeQ.Pairwise (· < ·)) →
     let c := s.metCh n
     let t := s.latchClosing n regs incomplete
     t.metCh n = { c with winFrom := c.winEnd, winEnd := s.endAfter c.winEnd, wflags := 0, fault := 0, clips := 0, high := 0 } ∧
     (∀ k, k ≠ n → t.metCh k = s.metCh k) ∧ SameMemory s t ∧
     t.met.closeQ.Pairwise (· < ·) ∧ (∀ k, k ∈ t.met.closeQ ↔ k = n ∨ k ∈ s.met.closeQ) ∧
     (∀ k, k ≠ n → tget t.met.snap k = tget s.met.snap k) ∧
     ∃ bytes, tget t.met.snap n = some bytes ∧ bytes.length = closeLen n ∧ crc16Ok (closeLen n - 2) bytes = true ∧
       fieldAt bytes 0 8 = c.winEnd % 2 ^ 64 ∧
       ∀ i < (if n < 2048 then 6 else 8), fieldAt bytes (8 + 8 * i) 8 = ofSigned 64 (nth 0 regs i))

/-- R127, R389, R391, R394, R404, R405, R408: Record writes, window ends, closing records, demand windows: each
happens only when its time has come and FeRAM is not held, and writes exactly the record it names. A pulse output
starts a waiting pulse when it is idle, stays high for its width and low for its pause; an increment passes through
its divider into whole pulses and a rest. The model's choices it rests on: log entries 10, 13, 164. -/
def Obligations.MeteringEventsAndPulses : Prop :=
  (∀ s : State,
     (∀ (n : Fin 2080) (good : Bool), ((s.metCh n).writing = none ∨ s.pwr.feramHold = true) → exec (.recordWriteDone n good) s = .next s) ∧
     (∀ (n : Fin 2080) (k : Nat) (bytes : List Byte), (s.metCh n).writing = some (k, bytes) →
       s.pwr.feramHold = false → ∃ t,
       exec (.recordWriteDone n true) s = .next t ∧ t.bytesAt (metRec n k) bytes.length = bytes ∧
       (∀ a, (a < metRec n k ∨ metRec n k + bytes.length ≤ a) → t.byteAt a = s.byteAt a) ∧
       ((s.metCh n).samples = [] → (s.metCh n).blocks = [] →
         t = (s.modMetCh n fun x => { x with writing := none }).setBytes (metRec n k) bytes)) ∧
     ((s.openEnd = 0 ∨ s.domOn 8 = false ∨ s.now < s.openEnd * 2 ^ 32) → exec .windowBoundary s = .next s) ∧
     (s.openEnd ≠ 0 → s.domOn 8 = true → s.openEnd * 2 ^ 32 ≤ s.now → s.blockDue = false → ∃ moved,
       exec .windowBoundary s = .next (State.metShow { s with met := { s.met with
         ends := lastN 8 (s.met.ends ++ [(s.endAfter s.openEnd, moved)]), grid := s.nvNext.met.tariff,
         pulses := s.met.pulses.map fun p => { p with logged := false } } })) ∧
     (∀ m : Fin 2048, (s.meterCfg m = none ∨ s.metRuns = false ∨ (s.metCh m).winEnd = 0) →
       exec (.closeWaitExpiry m) s = .next s) ∧
     (∀ (m : Fin 2048) (k : MeterCfg) (g : Tariff), s.meterCfg m = some k → s.nvNext.met.tariff = some g →
       s.metRuns = true → (s.metCh m).winEnd ≠ 0 →
       let due := (s.metCh m).winEnd * 2 ^ 32 + usToUnits (1000 * g.closeWait)
       (s.now < due → exec (.closeWaitExpiry m) s = .next s) ∧
       (due ≤ s.now → exec (.closeWaitExpiry m) s = .next (s.latchClosing m (s.metCh m).acc true))) ∧
     (∀ good, (s.met.closeQ = [] ∨ s.pwr.feramHold = true ∨ (∃ x ∈ s.met.chs, x.2.writing.isSome = true)) →
       exec (.closingRecordWrite good) s = .next s) ∧
     (∀ n rest, s.met.closeQ = n :: rest → s.pwr.feramHold = false → (∀ x ∈ s.met.chs, x.2.writing = none) →
       let t := s.setBytes (metClose n) ((tget s.met.snap n).getD [])
       exec (.closingRecordWrite true) s = .next { t with met := { t.met with closeQ := rest } }.metShow) ∧
     ((s.pwr.feramHold = true ∨ s.domOn 8 = false) → exec .demandWindowEnd s = .next s) ∧
     (s.pwr.feramHold = false → s.domOn 8 = true → s.blockDue = false →
       (∀ i < 32, (s.metCh (2048 + i)).demDone = []) →
       ((s.met.resetMax = none ∨ ∃ e, s.met.resetMax = some e ∧ s.now < e * 2 ^ 32) →
         exec .demandWindowEnd s = .next s) ∧
       (∀ e, s.met.resetMax = some e → e * 2 ^ 32 ≤ s.now → ∃ t, exec .demandWindowEnd s = .next t ∧
         t.met.resetMax = none ∧ (∀ i < 32, t.bytesAt (metDemand i) 64 =
           withCrc16 0x3E (leBytes 4 0 ++ zeros 4 ++ leBytes 8 0 ++ leBytes 8 e ++ zeros 40)) ∧
         ∀ a, (a < metDemand 0 ∨ metDemand 32 ≤ a) → t.byteAt a = s.byteAt a))) ∧
  (∀ (s : State) (p : Fin 16),
     ((s.met.pulses[p.val]? = none ∨ tget s.nvNext.met.pulses p = none ∨ s.domOn 7 = false) →
       exec (.pulseOutput p) s = .next s) ∧
     (∀ x c, s.met.pulses[p.val]? = some x → tget s.nvNext.met.pulses p = some c → s.domOn 7 = true →
       let put (y : Pulse) := { s with met := { s.met with pulses := s.met.pulses.set p y } }
       let high (y : Pulse) : Pulse :=
         { y with phase := 1, waiting := y.waiting - 1, until_ := s.raw + 250000 * c.width }
       (x.phase = 0 → x.waiting = 0 → exec (.pulseOutput p) s = .next s) ∧
       (x.phase = 0 → 0 < x.waiting → exec (.pulseOutput p) s = .next (put (high x))) ∧
       (x.phase ≠ 0 → s.raw < x.until_ → exec (.pulseOutput p) s = .next s) ∧
       (x.phase = 1 → x.until_ ≤ s.raw → exec (.pulseOutput p) s =
         .next (put { x with phase := 2, until_ := s.raw + 250000 * c.pause })) ∧
       (2 ≤ x.phase → x.until_ ≤ s.raw → exec (.pulseOutput p) s =
         .next (put (if 0 < x.waiting then high { x with phase := 0 } else { x with phase := 0 }))) ∧
       (∀ d, 0 < State.pulseUnits c → ∃ y, (s.pulseAdd p c d).met.pulses[p.val]? = some y ∧
         y.div = (x.div + d) % State.pulseUnits c ∧
         y.waiting + (if x.phase = 0 ∧ y.phase = 1 then 1 else 0) = min 65535 (x.waiting + (x.div + d) / State.pulseUnits c) ∨
         65535 < x.waiting)))

/-! ### Network and time -/

/-- R415, R418, R422, R424 to R429, R436, R444, R449, R451, R452: The port commands: a port that does not exist or
fields that it does not allow, a port in use, VLAN entries, secure associations from key slots of the right usage, and
the status of a port. The time commands: TIME_CONFIG stores every parameter and starts the servo anew, LINK is refused
in SOLO, TIME_STEP needs a source that lets time be set from outside and an instant in range, and the status. The
model's choices it rests on: log entries 97, 98, 100, 141. -/
def Obligations.PortAndTimeCommands : Prop :=
  (∀ (id : Nat) (c : Cmd) (s s1 : State),
     let p := c.p 0 4
     (Passes Op.NET_PORT_CONFIG id c s s1 →
       let w : Word := BitVec.ofNat 32 (c.p 4 4)
       let w' := if field w 1 0 = 1 then setField w 9 8 1 else w
       let u := s1.setReg (R.NET_PORT_CFG p) w'
       let restart := field w 1 0 = 0 ∨ field (s1.reg (R.NET_PORT_CFG p)) 5 2 ≠ field w 5 2
       let bad := field w 1 0 = 3 ∨ 1 < field w 7 6 ∨ p < 16 ∧ (field w 5 4 ≠ 0 ∨ field w 7 6 ≠ 0) ∨
         16 ≤ p ∧ (field w 3 2 ≠ 0 ∨ field w 5 4 = 3)
       let odd := field w 11 10 ≠ 0 ∨ field w 31 24 ≠ 0 ∨ field w 23 12 = 0 ∨ field w 23 12 = 4095
       let used := s1.segState p ≠ 0 ∨ ∃ x ∈ s1.net.sas, x.2.port = p
       ((19 < p ∨ bad) → Answers (.netPortConfig id) id s (s1, .done .portInvalid 0 0 [])) ∧
       (p ≤ 19 → ¬ bad → odd → Answers (.netPortConfig id) id s (s1, .done .badParam 4 0 [])) ∧
       (p ≤ 19 → ¬ bad → ¬ odd → used → Answers (.netPortConfig id) id s (s1, .done .mode 0 0 [])) ∧
       (p ≤ 19 → ¬ bad → ¬ odd → ¬ used →
         (s1.regBit (R.NET_PORT_STATE p) 0 = true → restart →
           Answers (.netPortConfig id) id s ((u.linkLost p).bmca, .done .ok 0 0 [])) ∧
         (s1.regBit (R.NET_PORT_STATE p) 0 = true → ¬ restart →
           Answers (.netPortConfig id) id s (u.bmca, .done .ok 0 0 [])) ∧
         (s1.regBit (R.NET_PORT_STATE p) 0 = false → Answers (.netPortConfig id) id s
           ((u.setRegField (R.NET_PORT_STATE p) 3 0 (4 * u.anStart p)).bmca, .done .ok 0 0 [])))) ∧
     (Passes Op.NET_VLAN_CONFIG id c s s1 →
       let vid := c.p 4 2
       (63 < p → Answers (.netVlanConfig id) id s (s1, .done .badParam 0 0 [])) ∧
       (p ≤ 63 → (4094 < vid ∨ vid ≠ 0 ∧ ∃ x ∈ s1.net.vlans, x.1 ≠ p ∧ x.2.vid = vid) →
         Answers (.netVlanConfig id) id s (s1, .done .badParam 4 0 [])) ∧
       (p ≤ 63 → vid ≤ 4094 → (vid = 0 ∨ ∀ x ∈ s1.net.vlans, x.1 = p ∨ x.2.vid ≠ vid) → c.p 6 2 = 0 →
         c.p 8 4 < 2 ^ 21 → c.p 0xC 4 < 2 ^ 21 →
           let v : Vlan := ⟨vid, BitVec.ofNat 21 (c.p 8 4), BitVec.ofNat 21 (c.p 0xC 4)⟩
           let vs := if vid = 0 then tdel s1.net.vlans p else tput s1.net.vlans p v
           Answers (.netVlanConfig id) id s ({ s1 with net := { s1.net with vlans := vs } }, .done .ok 0 0 []))) ∧
     (Passes Op.NET_SA_INSTALL id c s s1 →
       let rx := c.p 4 1
       let n := c.p 0x10 4
       ((p < 16 ∨ 19 < p ∨ s1.regField (R.NET_PORT_CFG p) 7 6 ≠ 1) →
         Answers (.netSaInstall id) id s (s1, .done .portInvalid 0 0 [])) ∧
       (16 ≤ p → p ≤ 19 → s1.regField (R.NET_PORT_CFG p) 7 6 = 1 → rx ≤ 1 → c.p 5 1 ≤ 3 → c.p 6 1 ≤ 1 → c.p 7 1 ≤ 1 →
         n ≤ 255 → c.p 0x14 8 < (if c.p 6 1 = 1 then 2 ^ 64 else 2 ^ 32) → (rx = 1 ∨ c.p 0x14 8 ≠ 0) →
         c.p 0x2C 4 ≤ 2 ^ 30 →
         (s1.slotInUse n = none → Answers (.netSaInstall id) id s (s1, .done .slotEmpty 0 0 [])) ∧
         (∀ k, s1.slotInUse n = some k →
           let fit := field k.attr 7 0 = 1 ∧ field k.attr 15 8 = rx ∧ bit k.attr 20 = false
           (¬ fit → Answers (.netSaInstall id) id s (s1, .done .slotUsage 0 0 [])) ∧
           (fit → (∀ i < 128, (tget s1.net.sas i).isSome = true) →
             Answers (.netSaInstall id) id s (s1, .done .saFull 0 0 [])) ∧
           (fit → ∀ i < 128, tget s1.net.sas i = none → (∀ j < i, (tget s1.net.sas j).isSome = true) →
             let a : Sa :=
               { port := p, rx := rx == 1, an := c.p 5 1, xpn := c.p 6 1 == 1,
                 command := rx == 1 && c.p 7 1 == 1, sci := c.p 8 8, slot := n, key := k.key, pn := c.p 0x14 8,
                 ssci := c.p 0x1C 4, salt := slice c.params 0x20 12, window := c.p 0x2C 4, inUse := rx == 0,
                 lowLogged := false, exhausted := false }
             let others := if rx = 1 then s1.net.sas else s1.net.sas.map fun x =>
               if x.2.port = p ∧ x.2.rx = false then (x.1, { x.2 with inUse := false }) else x
             let t := { s1 with net := { s1.net with sas := tput others i a } }
             let t := t.setReg R.NET_SA_COUNT (BitVec.ofNat 32 t.net.sas.length)
             Answers (.netSaInstall id) id s
               (if rx = 1 then t else t.setRegBit (R.NET_PORT_STATE p) 4 true, .done .ok i 0 [])))) ) ∧
     (Passes Op.NET_SA_REMOVE id c s s1 →
       (tget s1.net.sas p = none → Answers (.netSaRemove id) id s (s1, .done .badParam 0 0 [])) ∧
       (∀ a, tget s1.net.sas p = some a →
         let u := { s1 with net := { s1.net with sas := tdel s1.net.sas p } }
         let left := if u.commandChannel a.channel then s1.host.assocs else tdel s1.host.assocs a.channel
         let t := { u with host := { s1.host with assocs := left } }
         let t := t.setReg R.NET_SA_COUNT (BitVec.ofNat 32 t.net.sas.length)
         Answers (.netSaRemove id) id s
           (if a.inUse then t.setRegBit (R.NET_PORT_STATE a.port) 4 false else t, .done .ok 0 0 []))) ∧
     (Passes Op.NET_PORT_STATUS id c s s1 →
       (20 < p → Answers (.netPortStatus id) id s (s1, .done .portInvalid 0 0 [])) ∧
       (p ≤ 20 → Answers (.netPortStatus id) id s (s1, replyOr c (((List.range 8).map fun i =>
         leBytes 4 (if i = 0 ∨ i = 6 ∨ s1.domOn 6 = true then (s1.reg (R.NET_PORT_CFG p + 4 * i)).toNat else 0)).flatten))))) ∧
  (∀ (id : Nat) (c : Cmd) (s s1 : State),
     (Passes Op.TIME_CONFIG id c s s1 →
       let log (i : Nat) : Int := toSigned 8 (c.p (5 + i) 1)
       let range (i : Nat) : Int × Int := if c.p 1 1 = 2 then (0, 0) else if i = 0 then (-4, 1) else if i = 1 then (-3, 3) else (-4, 5)
       let fits := c.p 0 1 ≤ 3 ∧ c.p 1 1 ≤ 2 ∧ c.p 2 1 ≤ 127 ∧ c.p 3 1 ≤ 1 ∧ c.p 4 1 ≤ 2 ∧
         (∀ i < 3, (range i).1 ≤ log i ∧ log i ≤ (range i).2) ∧ c.p 0xA 2 = 0 ∧ 1 ≤ c.p 0x10 4 ∧ c.p 0x10 4 ≤ 16000000 ∧
         10 ≤ c.p 0x14 4 ∧ c.p 0x14 4 ≤ 65535 ∧ 1 ≤ c.p 0x18 4 ∧ c.p 0x18 4 ≤ 500 ∧ 1 ≤ c.p 0x1C 4 ∧ c.p 0x1C 4 ≤ 65535 ∧
         1 ≤ c.p 0x20 4 ∧ c.p 0x20 4 ≤ 15
       (¬ fits → ∃ off, Answers (.timeConfig id) id s (s1, .done .badParam off 0 [])) ∧
       (fits → c.p 0 1 = 3 → s1.role = 0 → Answers (.timeConfig id) id s (s1, .done .role 0 0 [])) ∧
       (fits → (c.p 0 1 ≠ 3 ∨ s1.role ≠ 0) → s1.pwr.feramHold = true →
         Answers (.timeConfig id) id s (s1, .done .busy 3 0 [])) ∧
       (fits → (c.p 0 1 ≠ 3 ∨ s1.role ≠ 0) → s1.pwr.feramHold = false → ∃ t,
         Answers (.timeConfig id) id s (t, .done .ok 0 0 []) ∧
         t.reg R.TIME_CFG =
           BitVec.ofNat 32 (c.p 0 1 + 2 ^ 3 * c.p 1 1 + 2 ^ 5 * c.p 4 1 + 2 ^ 7 * c.p 3 1 + 2 ^ 8 * c.p 2 1) ∧
         t.reg R.TIME_GAINS = BitVec.ofNat 32 (c.p 0xC 4) ∧ t.reg R.TIME_STEP_THRESH = BitVec.ofNat 32 (c.p 0x10 4) ∧
         t.reg R.TIME_LOCK_THRESH = BitVec.ofNat 32 (c.p 0x14 4) ∧ t.reg R.TIME_RATE_LIMIT = BitVec.ofNat 32 (c.p 0x18 4) ∧
         t.reg R.TIME_HOLDOVER_MAX = BitVec.ofNat 32 (c.p 0x1C 4) ∧ t.reg R.TIME_STEP_SETTLE = BitVec.ofNat 32 (c.p 0x20 4) ∧
         t.time.cfg = ⟨log 0, log 1, log 2, c.p 8 1, c.p 9 1⟩ ∧ t.nvNext.ptp = t.time.cfg ∧ t.time.parent = none ∧
         t.slavePort = 31 ∧ t.servo = (if c.p 0 1 = 0 then 0 else 1) ∧ t.now = s1.now ∧
         -t.rateLimit ≤ t.time.rI ∧ t.time.rI ≤ t.rateLimit ∧ SameMemory s1 t)) ∧
     (Passes Op.TIME_STATUS id c s s1 →
       let r (a : Nat) : List Byte := leBytes 4 (s1.reg a).toNat
       let who := match s1.time.parent with
         | some a => (padTo 10 a.ident, a.gmClass, a.gmPriority1, padTo 8 a.gmIdent)
         | none => (State.clockIdentity ++ [0, 0], s1.ownClass, s1.time.cfg.priority1, State.clockIdentity)
       Answers (.timeStatus id) id s (s1, replyOr c (r R.TIME_STATE ++ r R.TIME_OFFSET ++ r R.TIME_RATE ++
         r R.TIME_MEAN_PATH ++ r R.TIME_PTP_UTC ++ leBytes 4 (satTo 32 s1.time.steps) ++ r R.TIME_LAST_STEP_LO ++
         r R.TIME_LAST_STEP_HI ++ who.1 ++ leBytes 1 who.2.1 ++ leBytes 1 who.2.2.1 ++ instantBytes s1.now ++ who.2.2.2))) ∧
     (Passes Op.TIME_STEP id c s s1 →
       let frac := c.p 0x10 4
       let d : Int := toSigned 64 (c.p 8 8) * 2 ^ 32 + (frac : Int)
       let at' : Nat := c.p 8 8 * 2 ^ 32 + frac
       (1 < c.p 0 4 → Answers (.timeStep id) id s (s1, .done .badParam 0 0 [])) ∧
       (c.p 0 4 ≤ 1 → c.p 4 4 ≠ 0 → Answers (.timeStep id) id s (s1, .done .badParam 4 0 [])) ∧
       (c.p 0 4 ≤ 1 → c.p 4 4 = 0 → s1.timeSource ≠ 0 → s1.timeSource ≠ 2 →
         Answers (.timeStep id) id s (s1, .done .timeStepRefused 0 0 [])) ∧
       (c.p 0 4 ≤ 1 → c.p 4 4 = 0 → s1.timeSource = 2 → frac ≠ 0 →
         Answers (.timeStep id) id s (s1, .done .badParam 16 0 [])) ∧
       (c.p 4 4 = 0 → (s1.timeSource = 0 ∨ s1.timeSource = 2 ∧ frac = 0) →
         (c.p 0 4 = 0 → d = 0 → Answers (.timeStep id) id s (s1, .done .ok 0 0 [])) ∧
         (c.p 0 4 = 0 → d ≠ 0 → (s1.now : Int) + d < 0 → Answers (.timeStep id) id s (s1, .done .badParam 8 0 [])) ∧
         (c.p 0 4 = 0 → d ≠ 0 → 0 ≤ (s1.now : Int) + d → Answers (.timeStep id) id s (s1.stepTime d true, .done .ok 0 0 [])) ∧
         (c.p 0 4 = 1 → (at' < 946684800 * 2 ^ 32 ∨ 13569465600 * 2 ^ 32 < at') →
           Answers (.timeStep id) id s (s1, .done .badParam 8 0 [])) ∧
         (c.p 0 4 = 1 → 946684800 * 2 ^ 32 ≤ at' → at' ≤ 13569465600 * 2 ^ 32 →
           Answers (.timeStep id) id s (s1.stepTime ((at' : Int) - (s1.now : Int)) true, .done .ok 0 0 [])))))

/-- R416, R417, R417 to R420, R420, R422, R423, R426, R427, R453: Links come up at the level both ends offer and go
down, or are refused, with their events; a learned address is forgotten once its ageing time has passed. A received
frame is counted; it is dropped for a bad check sequence, by MACsec, by its size, as a pause frame, or as a station
frame on a port without a segment, and on a segment port outside the service window; what remains goes to the station
engine or to the bridge. A frame of an unknown VLAN, or from a port outside it, is dropped; otherwise its source is
learned and it goes to every other member port, to the one its destination was learned on, or to the endpoint; a full
egress queue drops it, and a queue never holds more than 16 KiB. The model's choices it rests on: log entries 10, 85,
86, 87, 88. -/
def Obligations.LinksAndFrames : Prop :=
  (∀ (s : State) (p : Fin 20) (o24 o10 : Bool),
     let w := s.reg (R.NET_PORT_CFG p)
     let amp := field w 3 2
     let up := s.regBit (R.NET_PORT_STATE p) 0
     ((s.domOn 6 = false ∨ field w 1 0 = 0) → exec (.linkUp p o24 o10) s = .next s ∧
       ∀ r, exec (.linkDown p r) s = .next s) ∧
     (s.domOn 6 = true → field w 1 0 ≠ 0 →
       (up = true → exec (.linkUp p o24 o10) s = .next s ∧ exec (.linkDown p false) s = .next (s.linkLost p)) ∧
       (up = false → exec (.linkDown p false) s = .next s ∧
         (∀ l, (16 ≤ p.val ∧ l = 0 ∨ p.val < 16 ∧ (amp = 0 ∧ (o24 = true ∧ l = 0 ∨ o24 = false ∧ o10 = true ∧ l = 1) ∨
             amp = 1 ∧ o10 = true ∧ l = 1 ∨ 2 ≤ amp ∧ l = amp - 2)) →
           exec (.linkUp p o24 o10) s = .next ((s.setRegField (R.NET_PORT_STATE p) 3 0 (1 + 2 * l + 8 * s.anStart p)).raise
             srcNet Ev.NET_LINK_UP p l).showPtp) ∧
         (p.val < 16 → (amp = 0 ∧ o24 = false ∨ amp = 1) → o10 = false →
           exec (.linkUp p o24 o10) s = .next (s.setRegField (R.NET_PORT_STATE p) 3 2 3))) ∧
       ((p.val < 16 ∨ field w 5 4 ≠ 0) → exec (.linkDown p true) s = .next s) ∧
       (16 ≤ p.val → field w 5 4 = 0 →
         let t := s.setRegField (R.NET_PORT_STATE p) 3 0 0xC
         let t := (if up then t.bump (R.NET_PORT_LINK_DOWNS p) 1 else t).raise srcNet Ev.NET_LINK_DOWN p 2
         exec (.linkDown p true) s =
           .next ({ t with time := { t.time with announces := tdel t.time.announces p } }).bmca)) ∧
     (∀ vid mac, let k := vid * 2 ^ 48 + mac
       (tget s.net.fdb k = none → exec (.fdbAgeing vid mac) s = .next s) ∧
       (∀ e, tget s.net.fdb k = some e →
         let old := e.seen + 250000000 * s.regField R.NET_SWITCH_CFG 11 0 ≤ s.raw
         (¬ old → exec (.fdbAgeing vid mac) s = .next s) ∧
         (old → exec (.fdbAgeing vid mac) s =
           .next (State.setReg R.NET_FDB_COUNT (BitVec.ofNat 32 (tdel s.net.fdb k).length)
             { s with net := { s.net with fdb := tdel s.net.fdb k } }))))) ∧
  (∀ (s : State) (p : Fin 20) (f : RxFrame),
     let open' := s.domOn 6 = true ∧ s.regField (R.NET_PORT_CFG p) 1 0 ≠ 0 ∧ s.regBit (R.NET_PORT_STATE p) 0 = true
     let u := s.bump (R.NET_PORT_RX p) 1
     let u := { u with hlt := { u.hlt with bwRx := modNth (· + f.bytes.length) u.hlt.bwRx p } }
     let drop (s : State) := s.bump (R.NET_PORT_DROPS p) 1
     let answer (t : State) := exec (.portFrameReceived p f) s = .next t.admitWaiting
     (¬ open' → answer s) ∧
     (open' →
       (f.fcsOk = false → answer (drop (u.bump (R.NET_PORT_FCS_ERR p) 1))) ∧
       (f.fcsOk = true → u.unprotect p f = none → answer (u.macsecDrop p)) ∧
       (f.fcsOk = true → ∀ sa v, u.unprotect p f = some (sa, v) →
         let ty := beAt f.bytes 12 2
         let long := (if p.val < 16 then 1522 else 9022) < f.bytes.length + 4 ∨ f.bytes.length < 14
         let celkin := ty = s.regField R.STN_ETHERTYPE 15 0
         let segment := s.regField (R.NET_PORT_CFG p) 1 0 = 1
         (long → answer (drop v)) ∧
         (¬ long → ty = 0x8808 → answer (drop v)) ∧
         (¬ long → ty ≠ 0x8808 → celkin → ¬ segment → answer (drop v)) ∧
         (¬ long → ty ≠ 0x8808 → celkin → segment → answer (v.celkinFrame p (beAt f.bytes 6 6) (f.bytes.drop 14))) ∧
         (¬ long → ty ≠ 0x8808 → ¬ celkin → segment → (s.seg p).phase ≠ .service → answer (drop v)) ∧
         (¬ long → ty ≠ 0x8808 → ¬ celkin → (¬ segment ∨ (s.seg p).phase = .service) →
           answer (v.plainFrame p sa (VFrame.parse (s.regField (R.NET_PORT_CFG p) 23 12) f.bytes))))) ∧
     (s.regField (R.NET_PORT_CFG p) 7 6 = 0 → s.unprotect p f = some (128, s)) ∧
     (s.regField (R.NET_PORT_CFG p) 7 6 ≠ 0 → (f.sec = none ∨ ∃ t, f.sec = some t ∧ ∀ x ∈ s.net.sas,
         ¬ (x.2.rx = true ∧ x.2.port = p.val ∧ x.2.sci = t.1 ∧ x.2.an = t.2.1 ∧ t.2.2.2 = true ∧ x.2.pn ≤ t.2.2.1)) →
       s.unprotect p f = none) ∧
     (s.regField (R.NET_PORT_CFG p) 7 6 ≠ 0 → ∀ t i a, f.sec = some t →
       s.net.sas.find? (fun x => decide (x.2.rx = true ∧ x.2.port = p.val ∧ x.2.sci = t.1 ∧ x.2.an = t.2.1 ∧ t.2.2.2 = true ∧
         x.2.pn ≤ t.2.2.1)) = some (i, a) →
       s.unprotect p f = some (i, { s with net := { s.net with
         sas := tput s.net.sas i { a with pn := max a.pn (t.2.2.1 + 1 - a.window) } } }))) ∧
  (∀ (s : State) (p sa : Nat) (f : VFrame) (per : Nat → VFrame → VFrame),
     (s.vlan f.vid = none → s.bridge p sa f per = s.bump (R.NET_PORT_DROPS p) 1) ∧
     (∀ v, s.vlan f.vid = some v →
       (v.member.getLsbD p = false → s.bridge p sa f per = s.bump (R.NET_PORT_DROPS p) 1) ∧
       (v.member.getLsbD p = true →
         (0x0180C2000000 ≤ f.dst → f.dst ≤ 0x0180C200000F → s.bridge p sa f per = s.learn p f) ∧
         ((f.dst < 0x0180C2000000 ∨ 0x0180C200000F < f.dst) → s.bridge p sa f per =
           let out := (s.learn p f).bridgeOut p f v per
           if 20 ∈ (s.learn p f).egressPorts p f v then out.endpoint sa f v else out)) ∧
       (∀ q, q ∈ s.egressPorts p f v ↔ q < 21 ∧ q ≠ p ∧ v.member.getLsbD q = true ∧ (f.group = true ∨
         f.dst = State.baseMac + 20 ∧ q = 20 ∨ f.dst ≠ State.baseMac + 20 ∧
           ∀ e, tget s.net.fdb (f.vid * 2 ^ 48 + f.dst) = some e → q = e.port))) ∧
     (let k := f.vid * 2 ^ 48 + f.src
      let refused := s.regBit R.NET_SWITCH_CFG 12 = false ∨ f.src / 2 ^ 40 % 2 = 1 ∨
        tget s.net.fdb k = none ∧ 4096 ≤ s.net.fdb.length
      (refused → s.learn p f = s) ∧
      (¬ refused → s.learn p f = State.setReg R.NET_FDB_COUNT (BitVec.ofNat 32 (tput s.net.fdb k ⟨p, s.raw⟩).length)
         { s with net := { s.net with fdb := tput s.net.fdb k ⟨p, s.raw⟩ } })) ∧
     (∀ q bs, (∀ k, s.queued k ≤ 16384) →
       let t := s.enqueueFrame p q bs
       (∀ k, t.queued k ≤ 16384) ∧
       (16384 < s.queued (4 * p + q) + bs.length → t = s.bump (R.NET_PORT_DROPS p) 1)))

/-- R431, R432, R436 to R446, R443, R447, R448, R510: A step moves device time by exactly its amount and leaves the
raw count; it is counted and shown, settles every bound segment, and a change of rate leaves device time where it
stands, within the rate limit. Samples, edges and time-outs: each has effect only with its source; a sample that a
check refuses is counted with the check's number, one that all accept updates the model; the servo leaves LOCKED or
ACQUIRING when its source is silent, and HOLDOVER after its limit; a message is sent when its port may and its time
has come. The servo changes its state only to another one; each change is shown, logged and notified, and HOLDOVER
keeps the integral rate. The model's choices it rests on: log entries 10, 13, 14, 100, 102, 103. -/
def Obligations.TimeStepsAndEvents : Prop :=
  (∀ (s : State) (d : Int) (byCmd : Bool) (r : Int),
     (let t := s.stepTime d byCmd
      (0 ≤ (s.now : Int) + d → (t.now : Int) = (s.now : Int) + d) ∧ t.raw = s.raw ∧
      t.time.steps = s.time.steps + 1 ∧ t.rate = s.rate) ∧
     (let t := s.stepTime d byCmd
      t.reg64 R.TIME_LAST_STEP_LO R.TIME_LAST_STEP_HI = ofSigned 64 d ∧ SameMemory s t ∧
      ∀ k < 20, (s.boundTask k).isSome = true → k < s.stn.segs.length →
        (t.seg k).settle = s.regField R.TIME_STEP_SETTLE 3 0 ∧ (t.seg k).phase = .idle ∧ (t.seg k).staged = none) ∧
     (let t := s.setRate r
      t.now = s.now ∧ t.raw = s.raw ∧ -s.rateLimit ≤ t.rate ∧ t.rate ≤ s.rateLimit ∧
        (-s.rateLimit ≤ r → r ≤ s.rateLimit → t.rate = r))) ∧
  (∀ (s : State) (p : Fin 20) (m : PtpSample) (kind : Fin 3),
     ((s.timeSource ≠ 1 ∨ s.slavePort ≠ p ∨ s.ptpOn p = false) → exec (.ptpSample p m) s = .next s) ∧
     (s.timeSource = 1 → s.slavePort = p → s.ptpOn p = true →
       let lat := toSigned 16 (s.regField (R.NET_PORT_LAT p) 15 0)
       let theta := m.t2 + lat.sign * nsToUnits lat.natAbs - m.t1 - m.corr - m.delay
       let known := m.version = 2 ∧ m.domain = s.ptpDomain ∧ ∃ a, s.time.parent = some a ∧ a.ident = m.ident
       let next := ∀ l, s.time.lastSeq = some l → 1 ≤ (m.seq + 65536 - l) % 65536 ∧ (m.seq + 65536 - l) % 65536 ≤ 256
       let near := 0 ≤ m.delay ∧ m.delay * 1000 ≤ 2 ^ 32
       let fresh := { s with time := { s.time with failRun := 0 } }
       let wild := s.servo = 2 ∧ 16 * s.lockThresh * 2 ^ 32 < theta.natAbs * 1000000000
       let done (t : State) : State :=
         let u := ({ t with time := { t.time with lastSeq := some (m.seq % 65536) } }).showPtp
         if u.ptpProfile = 0 then u
         else u.setRegField (R.TIME_PORT_STATE p) 31 8 (min (t.reg R.TIME_MEAN_PATH).toNat (2 ^ 24 - 1))
       (¬ known → exec (.ptpSample p m) s = .next (fresh.rejectSample 1)) ∧
       (known → ¬ next → exec (.ptpSample p m) s = .next (fresh.rejectSample 2)) ∧
       (known → next → ¬ near → exec (.ptpSample p m) s = .next (fresh.rejectSample 3)) ∧
       (known → next → near → wild → s.time.failRun < 3 → exec (.ptpSample p m) s =
         .next (({ s with time := { s.time with failRun := s.time.failRun + 1 } }).rejectSample 4)) ∧
       (known → next → near → wild → 3 ≤ s.time.failRun → exec (.ptpSample p m) s =
         .next (done ((s.setServo 1 theta false).acceptSample theta m.delay))) ∧
       (known → next → near → ¬ wild → exec (.ptpSample p m) s = .next (done (s.acceptSample theta m.delay)))) ∧
     ((s.timeSource ≠ 2 ∨ s.refIn ≠ 2) → exec .ppsEdge s = .next s) ∧
     (s.timeSource = 2 → s.refIn = 2 → ∃ e < 35,
       let u := (s.draw 45).2
       let f : Nat := (s.now + e - 17) % 2 ^ 32
       let theta : Int := if f < 2 ^ 31 then (f : Int) else (f : Int) - 2 ^ 32
       let spaced := ∀ t, s.time.lastEdge = some t → t + 250000000 ≤ s.raw + 250000 ∧ s.raw ≤ t + 250250000
       let fresh := { u with time := { u.time with failRun := 0 } }
       (¬ spaced → exec .ppsEdge s = .next (fresh.rejectSample 5)) ∧
       let wild := s.servo = 2 ∧ 16 * s.lockThresh * 2 ^ 32 < theta.natAbs * 1000000000
       let done (t : State) := { t with time := { t.time with lastEdge := some s.raw } }
       (spaced → wild → s.time.failRun < 3 → exec .ppsEdge s =
         .next (({ u with time := { u.time with failRun := s.time.failRun + 1 } }).rejectSample 4)) ∧
       (spaced → wild → 3 ≤ s.time.failRun → exec .ppsEdge s =
         .next (done ((u.setServo 1 theta false).acceptSample theta 0))) ∧
       (spaced → ¬ wild → exec .ppsEdge s = .next (done (u.acceptSample theta 0)))) ∧
     (let waits := s.time.waitFrom +
        (if s.timeSource = 1 then 4 * State.intervalRaw s.time.cfg.logSync else 750000000) ≤ s.raw
      let sourced := s.timeSource = 1 ∧ (s.slavePort ≠ 31 ∨ s.servo = 2) ∨ s.timeSource = 2
      ((s.servo = 1 ∨ s.servo = 2) → sourced → waits → exec .syncTimeout s = .next (s.setServo 3 0 false)) ∧
      (¬ ((s.servo = 1 ∨ s.servo = 2) ∧ sourced ∧ waits) → exec .syncTimeout s = .next s)) ∧
     (let ended := s.time.holdoverAt + 250000000 * s.regField R.TIME_HOLDOVER_MAX 15 0 ≤ s.raw
      (s.servo = 3 → ended → exec .holdoverExpiry s = .next (s.setServo 0 0 true)) ∧
      (¬ (s.servo = 3 ∧ ended) → exec .holdoverExpiry s = .next s)) ∧
     (let lost := ({ s with time := { s.time with onRef := false } }).raise srcTime Ev.TIME_REF_LOST 0 0
      (¬ (s.refIn = 1 ∧ s.time.onRef = true) → exec .refLost s = .next s) ∧
      (s.refIn = 1 → s.time.onRef = true → s.timeSource = 0 → exec .refLost s = .next lost) ∧
      (s.refIn = 1 → s.time.onRef = true → s.timeSource ≠ 0 → exec .refLost s =
        .next (lost.setServo 1 ((s.reg R.TIME_OFFSET).toInt * 2 ^ 32 / 1000000000) false))) ∧
     (let key := 3 * p.val + kind.val
      let log := if kind = 0 then s.time.cfg.logSync else if kind = 1 then s.time.cfg.logAnnounce else s.time.cfg.logDelay
      (s.ptpMaySend p kind = false → exec (.ptpMessageSend p kind) s = .next s) ∧
      (s.ptpMaySend p kind = true → s.isSegment p = true → s.fitsWindow p 78 = none →
        exec (.ptpMessageSend p kind) s = .next s) ∧
      (s.ptpMaySend p kind = true → ∀ u, (s.isSegment p = false ∧ u = s ∨
          s.isSegment p = true ∧ s.fitsWindow p 78 = some u) →
        let t := (u.ptpBody p kind).2.sendFrame p (.ptp p kind (u.ptpBody p kind).1)
        exec (.ptpMessageSend p kind) s = .next { t with time := { t.time with
          due := tput t.time.due key (s.raw + State.intervalRaw log),
          seqs := tput t.time.seqs key (((tget s.time.seqs key).getD 0 + 1) % 65536) } }) ∧
      (∀ t ∈ (tget s.time.due key).toList, s.raw < t → s.ptpMaySend p kind = false) ∧
      (s.ptpPortState p = 0 → s.ptpMaySend p kind = false))) ∧
  (∀ (s : State) (new : Nat) (theta : Int) (expired : Bool), new ≤ 3 →
     let t := s.setServo new theta expired
     (s.servo = new → t = s) ∧
     (s.servo ≠ new → t.servo = new ∧ t.time.failRun = 0 ∧ t.now = s.now ∧ t.raw = s.raw ∧ SameMemory s t ∧
       (new = 3 → t.time.holdoverAt = s.raw ∧
         (-s.rateLimit ≤ s.time.rI → s.time.rI ≤ s.rateLimit → t.rate = s.time.rI)) ∧
       (new ≠ 3 → t.rate = s.rate)))

/-! ### Real-time clock -/

/-- R454, R456, R457, R458, R459, R460, R462, R464, R465, R466, R466 to R469, R467, R468, R469, R470, R472: The RTC
commands: the reading of all views, checks by field, operations that wait for the next tick, and those that take
effect at once. A tick adds 2^-15 s to the count and, every 1,024 ticks, the calibration and a running follow
adjustment; while halted it only counts halted ticks. What an operation does at its tick: a write sets the count, or
the held one while halted; HALT holds it once; a release lets it run; an alarm is armed only ahead of the count; a
zone takes effect. Following, learning, alarms, scheduled changes of UTC, the overflow of halted ticks and the release
at a supply failure: each has effect only in its situation. The model's choices it rests on: log entries 10, 104, 105,
139, 160. -/
def Obligations.RtcCommandsAndTicks : Prop :=
  (∀ (id : Nat) (c : Cmd) (s s1 : State),
     let waits (op : RtcOp) : State × CmdEnd :=
       ({ s1 with rtc := { s1.rtc with pend := s1.rtc.pend ++ [(s1.rtc.nextOp, op)], nextOp := s1.rtc.nextOp + 1 } },
         .later (.rtcEdge s1.rtc.nextOp))
     let inRange (v : Instant) := 946684800 * 2 ^ 32 ≤ v ∧ v ≤ 13569465600 * 2 ^ 32
     let mayStep (v : Instant) := s1.regBit R.RTC_CTRL 0 = false ∨ s1.timeSource = 0 ∨ s1.timeSource = 2 ∧ v % 2 ^ 32 = 0
     let closed := s1.regBit R.RTC_CTRL 0 = true ∧ s1.timeSource ≠ 0 ∧ s1.timeSource ≠ 2
     let parts := s1.regBit R.RTC_CTRL 0 = true ∧ s1.timeSource = 2
     (Passes Op.RTC_READ id c s s1 → Answers (.rtcRead id) id s (s1, replyOr c (instantBytes s1.rtc.count ++
       calBytes (s1.utcView s1.rtc.count) ++ calBytes (s1.localView s1.rtc.count) ++ leBytes 4 (s1.reg R.RTC_STATUS).toNat ++
       leBytes 4 (s1.reg R.RTC_HALT_TICKS).toNat ++ leBytes 1 s1.rtc.weekday ++ leBytes 1 s1.utcOffset ++
       leBytes 1 (s1.regField R.RTC_UTC_OFFSET 15 8) ++ [0]))) ∧
     (Passes Op.RTC_SET_CALENDAR id c s s1 →
       let y := c.p 0 2
       let m := c.p 2 1
       let d := c.p 3 1
       let v := (dayNumber y m d * 86400 + ((3600 * c.p 4 1 + 60 * c.p 5 1 + c.p 6 1 : Nat) : Int) - 900 * s1.zoneQuarters +
         s1.utcOffset).toNat * 2 ^ 32 + c.p 8 4
       ((y < 2000 ∨ 2399 < y) → Answers (.rtcSetCalendar id) id s (s1, .done .dateInvalid 0 0 [])) ∧
       (2000 ≤ y → y ≤ 2399 → (m < 1 ∨ 12 < m) → Answers (.rtcSetCalendar id) id s (s1, .done .dateInvalid 2 0 [])) ∧
       (2000 ≤ y → y ≤ 2399 → 1 ≤ m → m ≤ 12 →
         ((d < 1 ∨ monthDays y m < d) → Answers (.rtcSetCalendar id) id s (s1, .done .dateInvalid 3 0 [])) ∧
         (1 ≤ d → d ≤ monthDays y m → c.p 4 1 ≤ 23 → c.p 5 1 ≤ 59 → c.p 6 1 ≤ 59 → c.p 7 1 = 0 →
           (¬ inRange v → Answers (.rtcSetCalendar id) id s (s1, .done .dateInvalid 0xFFFF 0 [])) ∧
           (inRange v → closed → Answers (.rtcSetCalendar id) id s (s1, .done .timeStepRefused 0 0 [])) ∧
           (inRange v → parts → v % 2 ^ 32 ≠ 0 → Answers (.rtcSetCalendar id) id s (s1, .done .badParam 8 0 [])) ∧
           (inRange v → mayStep v → Answers (.rtcSetCalendar id) id s (waits (.write v true)))))) ∧
     (Passes Op.RTC_SET_COUNT id c s s1 →
       let v := c.p 0 8 * 2 ^ 32 + c.p 8 4
       (¬ inRange v → Answers (.rtcSetCount id) id s (s1, .done .badParam 0 0 [])) ∧
       (inRange v → closed → Answers (.rtcSetCount id) id s (s1, .done .timeStepRefused 0 0 [])) ∧
       (inRange v → parts → v % 2 ^ 32 ≠ 0 → Answers (.rtcSetCount id) id s (s1, .done .badParam 8 0 [])) ∧
       (inRange v → mayStep v → Answers (.rtcSetCount id) id s (waits (.write v false)))) ∧
     (Passes Op.RTC_HALT id c s s1 → Answers (.rtcHalt id) id s (waits .halt)) ∧
     (Passes Op.RTC_RELEASE id c s s1 →
       (1 < c.p 0 4 → Answers (.rtcRelease id) id s (s1, .done .badParam 0 0 [])) ∧
       (c.p 0 4 ≤ 1 → Answers (.rtcRelease id) id s (waits (.release (c.p 0 4 == 1))))) ∧
     (Passes Op.RTC_ALARM_SET id c s s1 →
       (3 < c.p 0 4 → Answers (.rtcAlarmSet id) id s (s1, .done .alarmInvalid 0 0 [])) ∧
       (c.p 0 4 ≤ 3 → 2 ^ 48 ≤ c.p 4 8 → Answers (.rtcAlarmSet id) id s (s1, .done .badParam 4 0 [])) ∧
       (c.p 0 4 ≤ 3 → c.p 4 8 < 2 ^ 48 →
         Answers (.rtcAlarmSet id) id s (waits (.arm (c.p 0 4) (c.p 4 8 * 2 ^ 32 + c.p 0xC 4))))) ∧
     (Passes Op.RTC_ALARM_CLEAR id c s s1 →
       (3 < c.p 0 4 → Answers (.rtcAlarmClear id) id s (s1, .done .alarmInvalid 0 0 [])) ∧
       (c.p 0 4 ≤ 3 → Answers (.rtcAlarmClear id) id s
         (s1.setReg (R.RTC_ALARM_STATE (c.p 0 4)) 0, .done .ok 0 0 []))) ∧
     (Passes Op.RTC_SET_WEEKDAY id c s s1 →
       (6 < c.p 0 4 → Answers (.rtcSetWeekday id) id s (s1, .done .badParam 0 0 [])) ∧
       (c.p 0 4 ≤ 6 → Answers (.rtcSetWeekday id) id s
         ({ s1 with rtc := { s1.rtc with weekday := c.p 0 4 } }, .done .ok 0 0 []))) ∧
     (Passes Op.RTC_UTC_OFFSET id c s s1 →
       let z := toSigned 8 (c.p 2 1)
       let late := c.p 4 8 ≤ s1.rtc.count / 2 ^ 32 ∨ 2 ^ 48 ≤ c.p 4 8
       let u := s1.setRegBit R.RTC_CTRL 2 (c.p 3 1 == 1)
       (1 < c.p 0 1 → Answers (.rtcUtcOffset id) id s (s1, .done .badParam 0 0 [])) ∧
       (c.p 0 1 ≤ 1 → (z < -64 ∨ 64 < z) → Answers (.rtcUtcOffset id) id s (s1, .done .badParam 2 0 [])) ∧
       (-64 ≤ z → z ≤ 64 → c.p 3 1 ≤ 1 →
         (c.p 0 1 = 0 → Answers (.rtcUtcOffset id) id s ({ u with rtc := { u.rtc with
           pend := u.rtc.pend ++ [(u.rtc.nextOp, .zone (c.p 1 1) (c.p 2 1))], nextOp := u.rtc.nextOp + 1 } },
           .later (.rtcEdge s1.rtc.nextOp))) ∧
         (c.p 0 1 = 1 → late → Answers (.rtcUtcOffset id) id s (s1, .done .badParam 4 0 [])) ∧
         (c.p 0 1 = 1 → ¬ late → Answers (.rtcUtcOffset id) id s
           (((u.setReg R.RTC_UTC_NEXT (BitVec.ofNat 32 (c.p 1 1 + 256 * c.p 2 1 + 2 ^ 16))).setReg R.RTC_UTC_AT_LO
             (BitVec.ofNat 32 (c.p 4 8))).setReg R.RTC_UTC_AT_HI (BitVec.ofNat 32 (c.p 4 8 / 2 ^ 32)), .done .ok 0 0 []))))) ∧
  (∀ (s : State) (tamper : BitVec 7) (upsets : List Upset), ∃ t, exec (.rtcTick ⟨tamper, upsets⟩) s = .next t ∧
     t.rtc.sub = (s.rtc.sub + 1) % 1024 ∧ t.rtc.pend = [] ∧
     (s.rtc.pend = [] → s.rtc.stepTo = none →
       (s.rtcHalt = true → t.rtc.count = s.rtc.count ∧ t.rtc.weekday = s.rtc.weekday ∧
         (t.reg R.RTC_HALT_TICKS).toNat = min (2 ^ 32 - 1) ((s.reg R.RTC_HALT_TICKS).toNat + 1)) ∧
       (s.rtcHalt = false →
         let adj : Int := if s.rtc.sub = 1023 then
           s.rtcCal + (if s.rtc.adjLeft = 0 then 0 else (s.reg R.RTC_FOLLOW_ADJ).toInt) else 0
         t.rtc.count = ((s.rtc.count : Int) + 2 ^ 17 + adj).toNat % 2 ^ 80 ∧
         (s.localDay < t.localDay → t.rtc.weekday = (s.rtc.weekday + (t.localDay - s.localDay).toNat) % 7) ∧
         (t.localDay ≤ s.localDay → t.rtc.weekday = s.rtc.weekday)))) ∧
  (∀ s : State,
     (∀ v cal, let t := (s.rtcTake (.write v cal)).1
       (s.rtcTake (.write v cal)).2 = (.ok, 0) ∧ t.rtc.count = v ∧ t.regBit R.RTC_STATUS 0 = true ∧
       (s.rtcHalt = true → t.regBit R.RTC_STATUS 4 = true ∧ t.now = s.now ∧
         ∀ a < 4, t.reg (R.RTC_ALARM_STATE a) = s.reg (R.RTC_ALARM_STATE a)) ∧
       (s.rtcHalt = false → t.rtc.secTick = false ∧ (s.regBit R.RTC_CTRL 0 = true → t.now = v) ∧
         (s.regBit R.RTC_CTRL 0 = false → t.now = s.now) ∧
         ∀ a < 4, (s.alarmArmed a = true ∧ s.rtc.count < s.alarmTime a ∧ s.alarmTime a ≤ v →
             t.alarmArmed a = false ∧ t.regField (R.RTC_ALARM_STATE a) 3 1 = 3) ∧
           (¬ (s.alarmArmed a = true ∧ s.rtc.count < s.alarmTime a ∧ s.alarmTime a ≤ v) →
             t.reg (R.RTC_ALARM_STATE a) = s.reg (R.RTC_ALARM_STATE a)))) ∧
     (s.rtcHalt = true → s.rtcTake .halt = (s, .ok, 0)) ∧
     (s.rtcHalt = false → let t := (s.rtcTake .halt).1
       (s.rtcTake .halt).2 = (.ok, 0) ∧ t.rtcHalt = true ∧ t.reg R.RTC_HALT_TICKS = 0 ∧ t.rtc.heldAt = s.rtc.count ∧
       t.rtc.count = s.rtc.count) ∧
     (∀ add, s.rtcHalt = false → s.rtcTake (.release add) = (s, .ok, 0)) ∧
     (∀ add, s.rtcHalt = true → s.regBit R.RTC_STATUS 4 = true → s.regBit R.RTC_CTRL 0 = true → s.timeSource ≠ 0 →
       s.timeSource ≠ 2 → s.rtcTake (.release add) = (s, .timeStepRefused, 0)) ∧
     (∀ add, s.rtcHalt = true → s.regBit R.RTC_STATUS 4 = false → let t := (s.rtcTake (.release add)).1
       (s.rtcTake (.release add)).2 = (.ok, 0) ∧ t.rtcHalt = false ∧ t.reg R.RTC_HALT_TICKS = 0 ∧
       t.rtc.count = if add then ((s.rtc.count : Int) + (((s.reg R.RTC_HALT_TICKS).toNat * 2 ^ 17 : Nat) : Int) +
         (((s.rtc.subAtHalt + (s.reg R.RTC_HALT_TICKS).toNat) / 1024 : Nat) : Int) * s.rtcCal).toNat % 2 ^ 80
         else s.rtc.count) ∧
     (∀ (a : Fin 4) (v : Instant), v < 2 ^ 80 →
       (v ≤ s.rtc.count → s.rtcTake (.arm a v) = (s, .alarmInvalid, 1)) ∧
       (s.rtc.count < v → let t := (s.rtcTake (.arm a v)).1
         (s.rtcTake (.arm a v)).2 = (.ok, 0) ∧ t.alarmTime a = v ∧ t.alarmArmed a = true)) ∧
     (∀ off z, off < 256 → z < 256 → let t := (s.rtcTake (.zone off z)).1
       (s.rtcTake (.zone off z)).2 = (.ok, 0) ∧ t.utcOffset = off ∧ t.zoneQuarters = toSigned 8 z ∧
       t.rtc.count = s.rtc.count ∧ t.rtc.weekday = s.rtc.weekday)) ∧
  (∀ s : State,
     ((s.following = false ∨ s.rtc.secTick = false) → exec .rtcFollowUpdate s = .next s) ∧
     (s.following = true → s.rtc.secTick = true →
       let d : Int := (s.now : Int) - s.rtc.count
       let big := s.regField R.RTC_FOLLOW_STEP 15 0 * 2 ^ 32 ≤ d.natAbs * 1000
       (big → exec .rtcFollowUpdate s =
         .next { s with rtc := { s.rtc with secTick := false, stepTo := some s.now } }) ∧
       (¬ big → ∃ t q, exec .rtcFollowUpdate s = .next t ∧ (2 * (512 * q - d)).natAbs ≤ 512 ∧
         t.reg R.RTC_FOLLOW_ADJ = BitVec.ofInt 32 (clampInt (-131072) 131072 q) ∧ t.rtc.adjLeft = 32 ∧
         t.rtc.secTick = false ∧ t.rtc.count = s.rtc.count)) ∧
     (s.rtc.learnN < 4096 → exec .rtcCalLearn s = .next s) ∧
     (4096 ≤ s.rtc.learnN → ∃ t m, exec .rtcCalLearn s = .next t ∧ t.rtc.learnN = 0 ∧ t.rtc.learnSum = 0 ∧
       (2 * (s.rtc.learnSum - m * s.rtc.learnN)).natAbs ≤ s.rtc.learnN ∧
       (s.regBit R.RTC_CTRL 1 = true → t.reg R.RTC_CAL = BitVec.ofInt 32 (clampInt (-32767) 32767 (s.rtcCal + m)) ∧
         t.regBit R.RTC_STATUS 0 = true) ∧
       (s.regBit R.RTC_CTRL 1 = false → t.regs = s.regs)) ∧
     (∀ a : Fin 4, let due := s.alarmArmed a = true ∧ s.rtcHalt = false ∧ s.alarmTime a ≤ s.rtc.count
       (¬ due → exec (.rtcAlarmFire a) s = .next s) ∧
       (due → ∃ t, exec (.rtcAlarmFire a) s = .next t ∧ t.alarmArmed a = false ∧
         t.reg (R.RTC_ALARM_STATE a) = BitVec.ofNat 32 (if s.pwr.main then 2 else 18) ∧
         (s.pwr.main = false → t.rtc.unlogged = s.rtc.unlogged ++
           [(s.rtc.count, Ev.RTC_ALARM, a.val + 2 ^ 10, (s.reg (R.RTC_ALARM_SEC_LO a)).toNat)]) ∧
         (s.pwr.main = true → t = ((s.setReg (R.RTC_ALARM_STATE a) 2).raise srcRtc Ev.RTC_ALARM a
           (s.reg (R.RTC_ALARM_SEC_LO a)).toNat).notify 28))) ∧
     (let sched := s.regBit R.RTC_UTC_NEXT 16 = true ∧ s.rtcHalt = false ∧
        s.regField R.RTC_UTC_AT_HI 15 0 * 2 ^ 32 + (s.reg R.RTC_UTC_AT_LO).toNat ≤ s.rtc.count / 2 ^ 32
      let byPtp := s.regBit R.RTC_CTRL 2 = true ∧ s.pwr.main = true ∧ s.regBit R.TIME_PTP_UTC 16 = true ∧
        s.regField R.TIME_PTP_UTC 15 0 ≠ s.utcOffset ∧ s.regField R.TIME_PTP_UTC 15 0 < 256
      (¬ sched → ¬ byPtp → exec .utcChangeScheduled s = .next s) ∧
      (¬ sched → byPtp → ∃ t, exec .utcChangeScheduled s = .next t ∧
        t.utcOffset = s.regField R.TIME_PTP_UTC 15 0 ∧ t.zoneQuarters = s.zoneQuarters ∧ t.rtc.count = s.rtc.count) ∧
      (sched → s.regBit R.RTC_CTRL 2 = false → ∃ t, exec .utcChangeScheduled s = .next t ∧
        t.regBit R.RTC_UTC_NEXT 16 = false ∧ t.utcOffset = s.regField R.RTC_UTC_NEXT 7 0 ∧
        t.zoneQuarters = toSigned 8 (s.regField R.RTC_UTC_NEXT 15 8) ∧ t.rtc.count = s.rtc.count)) ∧
     (let ended := s.rtcHalt = true ∧ s.reg R.RTC_HALT_TICKS = 0xFFFFFFFF ∧ s.regBit R.RTC_STATUS 3 = false
      (¬ ended → exec .haltTicksOverflow s = .next s) ∧
      (ended → exec .haltTicksOverflow s = .next ((s.setRegBit R.RTC_STATUS 3 true).rtcEvent Ev.RTC_HALT_OVF 0 0))) ∧
     ((s.pwr.main = true ∨ s.rtcHalt = false) → exec .rtcAutoRelease s = .next s) ∧
     (s.pwr.main = false → s.rtcHalt = true → ∃ t, exec .rtcAutoRelease s = .next t ∧ t.rtcHalt = false ∧
       t.reg R.RTC_HALT_TICKS = 0 ∧ ∃ log, t.rtc.unlogged = s.rtc.unlogged ++ log))

/-- R463: Day 0 is 1970-01-01 and each day is followed by the next of its month, by the first of the next month after
the month's last day, or by the first day of the next year; February ends with 29 in a leap year and 28 otherwise;
both views take the day and the date from the count at every conversion; and the date that the clock may be set to
reads back. -/
def Obligations.CalendarDatesFollowTheGregorianRule : Prop :=
  civil 0 = (1970, 1, 1) ∧
  (∀ n : Int, -719468 ≤ n → let (y, m, d) := civil n
    1 ≤ m ∧ m ≤ 12 ∧ 1 ≤ d ∧ d ≤ monthDays y m ∧
      (d < monthDays y m → civil (n + 1) = (y, m, d + 1)) ∧
      (d = monthDays y m → m < 12 → civil (n + 1) = (y, m + 1, 1)) ∧
      (d = monthDays y m → m = 12 → civil (n + 1) = (y + 1, 1, 1))) ∧
  (∀ y, (monthDays y 2 = 29 ∨ monthDays y 2 = 28) ∧
    (monthDays y 2 = 29 ↔ y % 4 = 0 ∧ y % 100 ≠ 0 ∨ y % 400 = 0)) ∧
  (∀ y m d : Nat, 2000 ≤ y → y ≤ 2399 → 1 ≤ m → m ≤ 12 → 1 ≤ d → d ≤ monthDays y m →
    civil (dayNumber y m d) = (y, m, d)) ∧
  (∀ (s : State), let n := s.localView s.rtc.count / 86400
    s.calDate = (civil n).1 % 2 ^ 16 + 2 ^ 16 * (civil n).2.1 + 2 ^ 20 * (civil n).2.2) ∧
  ∀ v : Int, let n := v / 86400
    (calBytes v).take 4 = leBytes 2 (civil n).1 ++ leBytes 1 (civil n).2.1 ++ leBytes 1 (civil n).2.2

/-! ### CAN -/

/-- R474 to R476, R478 to R480, R479, R481, R492, R496, R497: The CAN commands: the first parameter that a
configuration breaks refuses it, a channel is configured only while DISABLED, enables and disables wait for the
channel or hold, sends are queued, and aborts take every entry with the tag off the queue. A send is refused without
the domain, on a channel that is not up, in bus-off, for a header the channel does not allow, and with 32 entries
waiting; otherwise it is queued last; a program sends the record at the address that it completes. The model's choices
it rests on: log entries 30, 107. -/
def Obligations.CanCommandsAndSends : Prop :=
  (∀ (id : Nat) (c : Cmd) (s s1 : State),
     let k := c.p 0 4
     (3 < k → ∀ (op : Nat) (i : Instr), (op, i) ∈ [(Op.CAN_CONFIG, Instr.canConfig id), (Op.CAN_ENABLE, .canEnable id),
         (Op.CAN_DISABLE, .canDisable id), (Op.CAN_SEND, .canSend id), (Op.CAN_ABORT, .canAbort id),
         (Op.CAN_RECOVER, .canRecover id), (Op.CAN_STATUS, .canStatus id)] → Passes op id c s s1 →
       Answers i id s (s1, .done .badParam 0 0 [])) ∧
     (k ≤ 3 →
       (Passes Op.CAN_CONFIG id c s s1 →
         let n := c.p 0x2C 4
         (32 < n → Answers (.canConfig id) id s (s1, .done .badParam 0x2C 0 [])) ∧
         (n ≤ 32 → c.len ≠ 48 + 12 * n → Answers (.canConfig id) id s (s1, .done .badLength (48 + 12 * n) (48 + 12 * n) [])) ∧
         (n ≤ 32 → c.len = 48 + 12 * n →
           (s1.canState k ≠ 0 → Answers (.canConfig id) id s (s1, .done .mode 0 0 [])) ∧
           (s1.canState k = 0 →
             (∀ off, State.canConfigBad c = some off → Answers (.canConfig id) id s (s1, .done .badParam off 0 [])) ∧
             (State.canConfigBad c = none → s1.pwr.feramHold = false → Answers (.canConfig id) id s
               ((State.canConfigRegs c k).foldl (fun s x => (s.setReg x.1 (BitVec.ofNat 32 x.2)).nvReg x.1) s1,
                 .done .ok 0 0 []))))) ∧
       (Passes Op.CAN_ENABLE id c s s1 →
         (s1.canCfg k 31 = false → Answers (.canEnable id) id s (s1, .done .badParam 0 0 [])) ∧
         (s1.canCfg k 31 = true →
           (s1.canState k = 0 → Answers (.canEnable id) id s (s1.canStart k false, .later (.canOn k))) ∧
           (s1.canState k = 1 → Answers (.canEnable id) id s (s1, .later (.canOn k))) ∧
           (s1.canState k = 2 → Answers (.canEnable id) id s (s1, .done .ok 0 0 [])) ∧
           (s1.canState k = 3 → Answers (.canEnable id) id s
             (s1.setRegBit (R.CAN_STATE k) 2 true, .done .pending 0 0 [])))) ∧
       (Passes Op.CAN_DISABLE id c s s1 →
         (s1.canState k = 0 → Answers (.canDisable id) id s (s1, .done .ok 0 0 [])) ∧
         ((s1.canState k = 1 ∨ s1.canState k = 2) → Answers (.canDisable id) id s
           ((s1.setRegField (R.CAN_STATE k) 1 0 3).completeWaiting (.canOn k) .aborted 0, .later (.canOff k))) ∧
         (s1.canState k = 3 → Answers (.canDisable id) id s (if s1.regBit (R.CAN_STATE k) 2 = true then
           (s1.setRegBit (R.CAN_STATE k) 2 false).raise srcCan Ev.CAN_ENABLE_CANCELLED k 0 else s1, .later (.canOff k)))) ∧
       (Passes Op.CAN_SEND id c s s1 →
         let need := 12 + dlcLen (c.p 4 4 / 2 ^ 30 % 2 == 1) (c.p 8 1)
         (c.p 8 1 ≤ 15 → c.len ≠ need → Answers (.canSend id) id s (s1, .done .badLength need need [])) ∧
         ((15 < c.p 8 1 ∨ c.len = need) →
           let r := s1.canQueue k 4 (slice c.params 4 8) (c.params.drop 12) false
           Answers (.canSend id) id s (r.1, .done r.2.1 r.2.2 0 []))) ∧
       (Passes Op.CAN_ABORT id c s s1 →
         (2 ^ 17 ≤ c.p 4 4 → Answers (.canAbort id) id s (s1, .done .badParam 4 0 [])) ∧
         (c.p 4 4 < 2 ^ 17 →
           let hit (e : CanTx) : Prop := 2 ^ 16 ≤ c.p 4 4 ∨ e.tag = c.p 4 4 % 2 ^ 16
           let q := (s1.canCh k).tx
           ∃ t n, Answers (.canAbort id) id s (t, .done .ok n 0 []) ∧ n ≤ q.length ∧ t.canState k = s1.canState k ∧
             (k < s1.can.chs.length → (∀ e ∈ (t.canCh k).tx.tail, ¬ hit e) ∧
               (s1.headMayBeOnWire k = false → ∀ e, e ∈ (t.canCh k).tx ↔ e ∈ q ∧ ¬ hit e)))) ∧
       (Passes Op.CAN_RECOVER id c s s1 →
         (s1.canErr k ≠ 2 → Answers (.canRecover id) id s (s1, .done .ok 0 0 [])) ∧
         (s1.canErr k = 2 → s1.regBit (R.CAN_STATE k) 6 = true →
           Answers (.canRecover id) id s (s1, .done .pending 0 0 [])) ∧
         (s1.canErr k = 2 → s1.regBit (R.CAN_STATE k) 6 = false → Answers (.canRecover id) id s
           ((s1.modCan k fun x => { x with recAuto := false }).setRegBit (R.CAN_STATE k) 6 true, .done .pending 0 0 []))) ∧
       (Passes Op.CAN_STATUS id c s s1 → Answers (.canStatus id) id s (s1, replyOr c (((List.range 29).map fun i =>
         leBytes 4 (if 1 ≤ i ∧ i ≤ 3 ∨ 6 ≤ i ∧ i ≤ 16 ∨ s1.domOn 7 = true then
           (s1.reg (R.CAN_STATE k + 4 * i)).toNat else 0)).flatten))))) ∧
  (∀ (s : State) (c off : Nat) (hdr data : List Byte) (program : Bool),
     let w : Word := BitVec.ofNat 32 (fieldAt hdr 0 4)
     let dlc := fieldAt hdr 4 1
     let fl : Byte := BitVec.ofNat 8 (fieldAt hdr 5 1)
     let fd := bit w 30
     let up := s.canState c = 1 ∨ s.canState c = 2
     let go := s.canQueue c off hdr data program
     (s.domOn 7 = false → go = (s, .domainOff, 7)) ∧
     (s.domOn 7 = true → ¬ up → go = (s, .mode, 0)) ∧
     (s.domOn 7 = true → up → s.canErr c = 2 → go = (s, .busOff, 0)) ∧
     (s.domOn 7 = true → up → s.canErr c ≠ 2 →
       let wrong := fd = true ∧ s.canCfg c 0 = false ∨ bit w 31 = true ∧ ¬ (fd = true ∧ s.canCfg c 1 = true)
       (wrong → go = (s, .badParam, off)) ∧
       (¬ wrong → 15 < dlc → go = (s, .badParam, off + 4)) ∧
       (¬ wrong → dlc ≤ 15 → (bit fl 0 = true ∧ fd = true ∨ bit fl 1 = true ∨ field fl 7 3 ≠ 0) →
         go = (s, .badParam, off + 5)) ∧
       (¬ wrong → dlc ≤ 15 → ¬ (bit fl 0 = true ∧ fd = true) → bit fl 1 = false → field fl 7 3 = 0 →
         (32 ≤ (s.canCh c).tx.length → go = (s, .busy, 2)) ∧
         ((s.canCh c).tx.length < 32 → c < s.can.chs.length →
           let e : CanTx :=
             { idWord := w, dlc := dlc, flags := fl, tag := fieldAt hdr 6 2, data := data.take (dlcLen fd dlc),
               program := program, attempts := 0, clashes := 0, marked := false }
           go.2 = (.ok, (s.canCh c).tx.length + 1) ∧ (go.1.canCh c).tx = (s.canCh c).tx ++ [e] ∧
           SameRegs [R.CAN_TXQ c] s go.1 ∧ SameMemory s go.1))) ∧
     (∀ (who : Fin 34) (v : Word),
       let a := (s.heldLo who R.CAN_PSEND_LO).toNat / 16 * 16 + 2 ^ 32 * (v.toNat % 256)
       let bs := s.bytesAt a 80
       let shown (u : State) (st : Status) (r0 : Nat) : State :=
         ({ u with can := { u.can with psend := tput u.can.psend who (BitVec.ofNat 32 (st.code + 0x10000 * r0)) } }.setReg
           R.CAN_PSEND_HI (v &&& 0xFF)).dropHeld who R.CAN_PSEND_LO
       (¬ (sramBase ≤ a ∧ a + 80 ≤ sramBase + sramSize) → ∃ n,
         exec (.psendHiWrite who v) s = .next (shown (s.draw 60).2 .badParam n)) ∧
       (sramBase ≤ a → a + 80 ≤ sramBase + sramSize →
         (3 < fieldAt bs 0 4 → exec (.psendHiWrite who v) s = .next (shown s .badParam 0)) ∧
         (fieldAt bs 0 4 ≤ 3 → fieldAt bs 4 4 ≠ 0 → exec (.psendHiWrite who v) s = .next (shown s .badParam 4)) ∧
         (fieldAt bs 0 4 ≤ 3 → fieldAt bs 4 4 = 0 →
           let r := s.canQueue (fieldAt bs 0 4) 8 (slice bs 8 8) (bs.drop 16) true
           exec (.psendHiWrite who v) s = .next (shown r.1 r.2.1 r.2.2)))))

/-- R476, R481 to R485, R483, R486, R487, R488, R490 to R494: Completion records and received frames go to the tail of
their rings, 16 and 96 bytes each, and are counted when the ring is full; a head write moves the head no further than
the tail; a latest-value buffer is cleared of NEW by a 1 and becomes stale at its age. What the bus does to a channel:
start and stop, frames received and sent, errors and bus-off, recovery, and the reference service; each has effect
only in its state. The model's choices it rests on: log entries 10, 12, 106. -/
def Obligations.CanRingsAndEvents : Prop :=
  (∀ (s : State) (c : Fin 4),
     (∀ (e : CanTx) (st : Status) (reason : Nat) (sof : Option Instant),
       let n := s.regField (R.CAN_CFG c) 15 12
       let tail := (s.reg (R.CAN_TXC_TAIL c)).toNat % 2 ^ n
       let head := (s.reg (R.CAN_TXC_HEAD c)).toNat % 2 ^ n
       let base := s.reg64 (R.CAN_TXC_BASE_LO c) (R.CAN_TXC_BASE_HI c)
       let t := s.canComplete c e st reason sof
       (n = 0 → t = s) ∧
       (n ≠ 0 → (tail + 1) % 2 ^ n = head → t = s.bump (R.CAN_TXC_LOST c) 1) ∧
       (n ≠ 0 → (tail + 1) % 2 ^ n ≠ head →
         t.bytesAt (base + 16 * tail) 16 = leBytes 2 e.tag ++ leBytes 2 st.code ++ leBytes 1 reason ++
           leBytes 1 (if e.program then 1 else 0) ++ leBytes 2 (min 65535 e.attempts) ++
           (match sof with | some x => leBytes 4 (x % 2 ^ 32) ++ leBytes 4 (x / 2 ^ 32) | none => zeros 8) ∧
         (t.reg (R.CAN_TXC_TAIL c)).toNat = (tail + 1) % 2 ^ n ∧ SameRegs [R.CAN_TXC_TAIL c] s t ∧
         ∀ a, (a < base + 16 * tail ∨ base + 16 * tail + 16 ≤ a) → t.byteAt a = s.byteAt a)) ∧
     (∀ (filt : Nat) (f : CanFrame) (data : List Byte) (sof : Instant), data.length ≤ 64 →
       let n := s.regField (R.CAN_CFG c) 11 8
       let tail := (s.reg (R.CAN_RXQ_TAIL c)).toNat % 2 ^ n
       let head := (s.reg (R.CAN_RXQ_HEAD c)).toNat % 2 ^ n
       let base := s.reg64 (R.CAN_RXQ_BASE_LO c) (R.CAN_RXQ_BASE_HI c)
       let t := s.storeQueue c filt f data sof
       (n = 0 → t = s.bump (R.CAN_RX_DROPS c) 1) ∧
       (n ≠ 0 → (tail + 1) % 2 ^ n = head → SameMemory s t ∧
         (t.reg (R.CAN_RXQ_TAIL c)) = s.reg (R.CAN_RXQ_TAIL c) ∧
         (t.reg (R.CAN_RX_OVERFLOW c)).toNat = min (2 ^ 32 - 1) ((s.reg (R.CAN_RX_OVERFLOW c)).toNat + 1)) ∧
       (n ≠ 0 → (tail + 1) % 2 ^ n ≠ head →
         t.bytesAt (base + 96 * tail) 96 = leBytes 4 f.idWord.toNat ++ leBytes 1 f.dlc ++
           leBytes 1 ((if f.rtr then 1 else 0) + (if f.esi then 2 else 0)) ++ leBytes 2 filt ++ instantBytes sof ++
           leBytes 4 (s.canCh c).rxSeq ++ zeros 8 ++ padTo 64 data ∧
         (t.reg (R.CAN_RXQ_TAIL c)).toNat = (tail + 1) % 2 ^ n ∧
         ∀ a, (a < base + 96 * tail ∨ base + 96 * tail + 96 ≤ a) → t.byteAt a = s.byteAt a)) ∧
     (∀ (v : Word) (i : Instr) (n head tail : Nat), (i, n, head, tail) ∈
         [(Instr.rxqHeadWrite c v, s.regField (R.CAN_CFG c) 11 8, R.CAN_RXQ_HEAD c, R.CAN_RXQ_TAIL c),
          (.txcHeadWrite c v, s.regField (R.CAN_CFG c) 15 12, R.CAN_TXC_HEAD c, R.CAN_TXC_TAIL c)] →
       let new := v.toNat % 4096
       let h := (s.reg head).toNat % 2 ^ n
       let held := (s.reg tail).toNat % 2 ^ n
       let ok := n ≠ 0 ∧ new < 2 ^ n ∧ (new + 2 ^ n - h) % 2 ^ n ≤ (held + 2 ^ n - h) % 2 ^ n
       (ok → exec i s = .next (s.setReg head (BitVec.ofNat 32 new))) ∧ (¬ ok → exec i s = .next s)) ∧
     (∀ (b : Fin 64) (v : Word),
       (bit v 0 = true → s.domOn 7 = true →
         exec (.lvbNewClear b v) s = .next (s.setRegBit (R.CAN_LVB_STATUS b) 0 false)) ∧
       ((bit v 0 = false ∨ s.domOn 7 = false) → exec (.lvbNewClear b v) s = .next s) ∧
       (tget s.can.lvb b = none → exec (.lvbAgeStale b) s = .next s) ∧
       (∀ sof age, tget s.can.lvb b = some (sof, age) →
         let stale := s.regField (R.CAN_LVB_STATUS b) 3 2 = 1 ∧ age ≠ 0 ∧ sof + usToUnits (10000 * age) ≤ s.now
         (stale → exec (.lvbAgeStale b) s = .next (s.setRegField (R.CAN_LVB_STATUS b) 3 2 2)) ∧
         (¬ stale → exec (.lvbAgeStale b) s = .next s)))) ∧
  (∀ (s : State) (c : Fin 4),
     let x := s.canCh c
     let live := s.canState c = 2 ∨ s.canState c = 3
     (s.canState c ≠ 1 → exec (.canBusIntegration c) s = .next s.admitWaiting) ∧
     (s.canState c = 1 → exec (.canBusIntegration c) s = .next
       (((((s.setRegField (R.CAN_STATE c) 1 0 2).modCan c fun y => { y with
         pendStart := false, refDue := s.raw + s.canRefRaw c }).raise srcCan Ev.CAN_CHANNEL_UP c
           (if x.pendStart then 1 else 0)).completeWaiting (.canOn c) .ok 0).admitWaiting)) ∧
     (s.canState c ≠ 3 → exec (.canChannelStopped c) s = .next s.admitWaiting) ∧
     (s.canState c = 3 → x.tx = [] → s.regBit (R.CAN_STATE c) 2 = false → exec (.canChannelStopped c) s = .next
       ((((((s.modCan c fun y => { y with tx := [], offers := [] }).showTxq c).modReg (R.CAN_STATE c) fun w =>
         w &&& ~~~0x47).raise srcCan Ev.CAN_CHANNEL_DOWN c 0).completeWaiting (.canOff c) .ok 0).admitWaiting)) ∧
     (∀ (f : CanFrame) (ago : Nat) (valid dominant : Bool),
       ((¬ live ∨ s.canErr c = 2) → exec (.canFrameReceived c f ago valid dominant) s = .next s) ∧
       (live → s.canErr c ≠ 2 →
         (bit f.idWord 30 = true → s.canCfg c 0 = false →
           exec (.canFrameReceived c f ago valid dominant) s = .next (s.bump (R.CAN_RX_DROPS c) 1)) ∧
         ((bit f.idWord 30 = false ∨ s.canCfg c 0 = true) →
           (s.canCfg c 4 = true → exec (.canFrameReceived c f ago false dominant) s = .next s) ∧
           (s.canCfg c 4 = false → exec (.canFrameReceived c f ago false dominant) s =
             .next (s.setErrors c x.tec (x.rec_ + if dominant then 8 else 1))) ∧
           (∃ n, (x.rec_ ≤ 127 → n = x.rec_ - 1) ∧ (127 < x.rec_ → 119 ≤ n ∧ n ≤ 127) ∧
             let u := if s.canCfg c 4 then (s.draw 63).2 else (s.draw 63).2.setErrors c x.tec n
             exec (.canFrameReceived c f ago true dominant) s =
               .next (((u.bump (R.CAN_RX_OK c) 1).canSort c f (s.now - ago)).refFollow c f (s.now - ago)))))) ∧
     (∀ (service : Bool) (r : CanEnd) (ago : Nat),
       let offered := if service then x.offers ≠ [] else x.tx ≠ []
       let may := live ∧ s.canErr c ≠ 2 ∧ x.tec < 256 ∧ s.canCfg c 4 = false ∧ offered
       let u := match r with
         | .sent => (s.bump (R.CAN_TX_OK c) 1).setErrors c (x.tec - 1) x.rec_
         | .arbLost => s.bump (R.CAN_ARB_LOST c) 1
         | .error exempt => if exempt then s else s.setErrors c (x.tec + 8) x.rec_
         | .clash => (s.bump (R.CAN_CLASHES c) 1).setErrors c (x.tec + 8) x.rec_
       (¬ may → exec (.canTransmitEnd c service r ago) s = .next s) ∧
       (may → service = true → exec (.canTransmitEnd c service r ago) s = .next (u.serviceEnd c r (s.now - ago))) ∧
       (may → service = false → ∀ e rest, x.tx = e :: rest → c.val < s.can.chs.length →
         let e' := { e with attempts := e.attempts + 1, clashes := if r = .clash then e.clashes + 1 else e.clashes }
         let v := (u.modCan c fun y => { y with tx := e' :: rest }).showTxq c
         let once := bit e.flags 2 = true ∨ s.canCfg c 3 = true
         (r = .sent → exec (.canTransmitEnd c service r ago) s =
           .next ((v.headEnds c .ok 0 (some (s.now - ago))).emit (.can c e.idWord e.dlc (bit e.flags 0)
             (if bit e.flags 0 = true then [] else e.data)))) ∧
         (r ≠ .sent → e.marked = true →
           exec (.canTransmitEnd c service r ago) s = .next (v.headEnds c .canAborted 1 none)) ∧
         (r ≠ .sent → e.marked = false → once → exec (.canTransmitEnd c service r ago) s =
           .next (v.headEnds c .canAborted (if r = .arbLost then 3 else 4) none)) ∧
         (r ≠ .sent → e.marked = false → ¬ once → (r = .clash → e.clashes < 2) →
           exec (.canTransmitEnd c service r ago) s = .next v) ∧
         (r = .clash → e.marked = false → ¬ once → 2 ≤ e.clashes → exec (.canTransmitEnd c service r ago) s =
           .next (((v.headEnds c .idClash 5 none).raise srcCan Ev.CAN_ID_CLASH (c + 2 ^ 16 * e.tag) e.idWord.toNat).notify
             26)))) ∧
     (let goes := live ∧ s.canErr c ≠ 2 ∧ 256 ≤ x.tec
      (¬ goes → exec (.busOff c) s = .next s) ∧
      (goes → ∃ t, exec (.busOff c) s = .next t ∧ t.canErr c = 2 ∧ t.canState c = s.canState c ∧
        t.regBit (R.CAN_STATE c) 6 = (s.canCfg c 2 && s.canState c == 2) ∧
        (t.reg (R.CAN_BUS_OFFS c)).toNat = min (2 ^ 32 - 1) ((s.reg (R.CAN_BUS_OFFS c)).toNat + 1) ∧
        (t.canCh c).tx = x.tx)) ∧
     (s.regBit (R.CAN_STATE c) 6 = false → exec (.busOffRecovered c) s = .next s) ∧
     (s.regBit (R.CAN_STATE c) 6 = true → ∃ t, exec (.busOffRecovered c) s = .next t ∧ t.canErr c = 0 ∧
       t.canState c = s.canState c ∧ t.regBit (R.CAN_STATE c) 6 = false ∧ t.reg (R.CAN_ERRCNT c) = 0 ∧
       (t.canCh c).tx = x.tx ∧ (c.val < s.can.chs.length → (t.canCh c).tec = 0 ∧ (t.canCh c).rec_ = 0)) ∧
     (let due := s.canRefRole c = 1 ∧ s.canState c = 2 ∧ s.canErr c ≠ 2 ∧ s.canCfg c 4 = false ∧ x.refDue ≤ s.raw
      (¬ due → exec (.canRefPeriod c) s = .next s) ∧
      (due → exec (.canRefPeriod c) s = .next (s.modCan c fun y => { y with
        offers := (y.offers.filter fun o => decide (o ≠ .ref)) ++ [.ref], refDue := y.refDue + s.canRefRaw c }))) ∧
     (let stale := s.canRefRole c = 2 ∧ s.regField (R.CAN_REF_STATUS c) 1 0 = 1 ∧ x.lastPair + 3 * s.canRefRaw c ≤ s.raw
      (¬ stale → exec (.canRefStale c) s = .next s) ∧
      (stale → exec (.canRefStale c) s =
        .next ((s.setRegField (R.CAN_REF_STATUS c) 1 0 2).raise srcCan Ev.CAN_REF_STALE c 0))))

/-! ### Redundancy -/

/-- R500 to R503, R502 to R506, R507, R516, R524, R528, R530: The redundancy commands: RED_CONFIG checks its word and
its claim floor, a unit joins from SOLO or SILENT with its peer heard, leaves from a role of a pair, enters and leaves
MAINTENANCE, and a switch-over needs a synchronised standby. A claim taken is above every claim seen, of the unit's
own parity, and never the last number; it is written in both copies and shown, at once or after the power-fail save; a
claiming role is entered only with one, and a higher claim displaces the unit. The model's choices it rests on: log
entries 93. -/
def Obligations.RedundancyCommandsAndClaims : Prop :=
  (∀ (id : Nat) (c : Cmd) (s s1 : State),
     (Passes Op.RED_CONFIG id c s s1 →
       let v := c.p 0 4
       let w : Word := BitVec.ofNat 32 v
       let wrong := v / 2 ^ 3 % 2 = 1 ∨ v / 2 ^ 8 % 2 ^ 8 ≠ 0 ∨ v / 2 ^ 24 ≠ 0 ∨ v / 2 ^ 4 % 2 ^ 4 = 0 ∨ v / 2 ^ 16 % 2 ^ 8 = 0
       let low := c.p 4 4 ≠ 0 ∧ c.p 4 4 ≤ (s1.reg R.RED_CLAIM_SEEN).toNat
       let tied := (v % 2 == 1) ≠ s1.regBit R.RED_CFG 0 ∧ (s1.role = 1 ∨ s1.role = 2)
       (wrong → Answers (.redConfig id) id s (s1, .done .badParam 0 0 [])) ∧
       (¬ wrong → low → Answers (.redConfig id) id s (s1, .done .badParam 4 0 [])) ∧
       (¬ wrong → ¬ low → tied → Answers (.redConfig id) id s (s1, .done .role 0 0 [])) ∧
       (¬ wrong → ¬ low → ¬ tied → s1.pwr.feramHold = true → Answers (.redConfig id) id s (s1, .done .busy 3 0 [])) ∧
       (¬ wrong → ¬ low → ¬ tied → s1.pwr.feramHold = false →
         let t := (s1.setReg R.RED_CFG w).nvReg R.RED_CFG
         Answers (.redConfig id) id s (if c.p 4 4 = 0 then t else
           (t.regMax R.RED_CLAIM_SEEN (c.p 4 4)).setRegBit R.RED_ROLE 10 false, .done .ok 0 0 []))) ∧
     (Passes Op.RED_JOIN id c s s1 →
       let standby := s1.regBit R.RED_CFG 0 = true ∧ (s1.peerRole = 0 ∨ s1.peerRole = 1 ∨ s1.peerRole = 4)
       let paired := s1.regBit R.RED_CFG 0 = true
       let may := (s1.role = 0 ∨ s1.role = 3) ∧ (standby ∨ s1.claimUnknown = false)
       let u := { s1 with red := { s1.red with deciding := false, standbyDue := false } }
       (¬ may → Answers (.redJoin id) id s (s1, .done .role 0 0 [])) ∧
       (may → paired → s1.linkUpNow = false → Answers (.redJoin id) id s (s1, .done .linkDown 0 0 [])) ∧
       (may → paired → s1.linkUpNow = true → s1.peerPresent = false →
         Answers (.redJoin id) id s (s1, .done .peerAbsent 0 0 [])) ∧
       (may → (s1.regBit R.RED_CFG 0 = false ∨ s1.linkUpNow = true ∧ s1.peerPresent = true) →
         (standby → Answers (.redJoin id) id s (u.becomeStandby, .done .pending 0 0 [])) ∧
         (¬ standby → paired → Answers (.redJoin id) id s (u.enterRole 1, .done .pending 0 0 [])) ∧
         (¬ paired → Answers (.redJoin id) id s (u.enterRole 0, .done .pending 0 0 [])))) ∧
     (Passes Op.RED_LEAVE id c s s1 →
       (s1.role = 1 → Answers (.redLeave id) id s (State.setRole 0 { s1 with red := { s1.red with
         leaving := true, peerSynced := false, handover := none, finalDone := [] } }, .done .pending 0 0 [])) ∧
       (s1.role = 2 → Answers (.redLeave id) id s (State.setRole 3 { s1 with red := { s1.red with
         leaving := true, takeover := none } }, .done .pending 0 0 [])) ∧
       (s1.role ≠ 1 → s1.role ≠ 2 → Answers (.redLeave id) id s (s1, .done .role 0 0 []))) ∧
     (Passes Op.RED_MAINTENANCE id c s s1 →
       (1 < c.p 0 4 → Answers (.redMaintenance id) id s (s1, .done .badParam 0 0 [])) ∧
       (c.p 0 4 = 1 → (s1.role = 0 ∨ s1.role = 1) → Answers (.redMaintenance id) id s (State.setRole 4 { s1 with
         red := { s1.red with peerSynced := false, handover := none, finalDone := [] } }, .done .ok 0 0 [])) ∧
       (c.p 0 4 = 1 → s1.role ≠ 0 → s1.role ≠ 1 → Answers (.redMaintenance id) id s (s1, .done .role 0 0 [])) ∧
       (c.p 0 4 = 0 → s1.role ≠ 4 → Answers (.redMaintenance id) id s (s1, .done .role 0 0 [])) ∧
       (c.p 0 4 = 0 → s1.role = 4 → s1.mode = 2 → Answers (.redMaintenance id) id s (s1, .done .mode 0 0 [])) ∧
       (c.p 0 4 = 0 → s1.role = 4 → s1.mode ≠ 2 → Answers (.redMaintenance id) id s
         (s1.setRole (if s1.peerPresent = true ∧ s1.peerRole = 2 then 1 else 0), .done .ok 0 0 []))) ∧
     (Passes Op.RED_SWITCHOVER id c s s1 →
       (s1.role ≠ 1 → Answers (.redSwitchover id) id s (s1, .done .role 0 0 [])) ∧
       (s1.role = 1 → s1.linkUpNow = false → Answers (.redSwitchover id) id s (s1, .done .linkDown 0 0 [])) ∧
       (s1.role = 1 → s1.linkUpNow = true → (s1.red.peerSynced = false ∨ s1.peerRole ≠ 2) →
         Answers (.redSwitchover id) id s (s1, .done .role 0 0 [])) ∧
       (s1.role = 1 → s1.linkUpNow = true → s1.red.peerSynced = true → s1.peerRole = 2 →
         Answers (.redSwitchover id) id s ({ s1 with red := { s1.red with
           handover := some (s1.red.handover.getD s1.raw), finalDone := [] } }, .done .pending 0 0 []))) ∧
     (Passes Op.RED_STATUS id c s s1 →
       let w (a : Nat) : List Byte := leBytes 4 (s1.reg a).toNat
       let l (a : Nat) : List Byte := if s1.domOn 11 then w a else zeros 4
       Answers (.redStatus id) id s (s1, replyOr c (leBytes 4 s1.roleWord.toNat ++ w R.RED_CLAIM ++ w R.RED_CLAIM_SEEN ++
         w R.RED_CFG ++ l R.RED_LINK ++ l R.RED_COPY_LAST ++ w R.RED_GAP_LAST ++ zeros 4 ++ leBytes 8 State.baseMac ++
         leBytes 8 s1.red.peerId)))) ∧
  (∀ s : State,
     (∀ c, s.nextClaim = some c → (s.reg R.RED_CLAIM_SEEN).toNat < c ∧ c ≤ (s.reg R.RED_CLAIM_SEEN).toNat + 2 ∧
       (c % 2 = 1 ↔ Config.strapB = true) ∧ c < 2 ^ 32 - 1) ∧
     (∀ c < 2 ^ 32, let t := s.writeClaim c
       (t.reg R.RED_CLAIM).toNat = c ∧ (t.reg R.RED_CLAIM_SEEN).toNat = max c (s.reg R.RED_CLAIM_SEEN).toNat ∧
       tget t.nv.regs R.RED_CLAIM = some (BitVec.ofNat 32 c) ∧ tget t.nvNext.regs R.RED_CLAIM = some (BitVec.ofNat 32 c) ∧
       t.red.claimDue = none ∧ t.role = s.role) ∧
     (∀ r ∈ [0, 1, 4], s.role ≠ 0 → s.role ≠ 1 → s.role ≠ 4 → let t := s.enterRole r
       (s.claimUnknown = true → t = s.raise srcRed Ev.RED_CLAIM_UNKNOWN 0 0) ∧
       (s.claimUnknown = false → (s.reg R.RED_CLAIM_SEEN).toNat < 2 ^ 32 - 4 → t.role = r ∧ t.red.silentInd = false ∧
         (s.pwr.saving = false → (s.reg R.RED_CLAIM_SEEN).toNat < (t.reg R.RED_CLAIM).toNat) ∧
         (s.pwr.saving = true → t.red.claimDue.isSome = true ∧ t.reg R.RED_CLAIM = s.reg R.RED_CLAIM))) ∧
     (s.red.claimDue = none → exec .claimWriteAfterSave s = .next { s with pwr := { s.pwr with saving := false } }) ∧
     (∀ c, s.red.claimDue = some c → exec .claimWriteAfterSave s =
       .next (State.writeClaim c { s with pwr := { s.pwr with saving := false } })) ∧
     (∀ k c commit, s.claiming = true → c < 2 ^ 32 → let t := s.observeClaim k c commit
       (c ≤ (s.reg R.RED_CLAIM).toNat → t = s.regMax R.RED_CLAIM_SEEN c) ∧
       ((s.reg R.RED_CLAIM).toNat < c → (t.role = if s.linkUpNow then 2 else 3) ∧
         c ≤ (t.reg R.RED_CLAIM_SEEN).toNat)))

/-- R38, R501, R511 to R513, R513, R514, R515, R516, R518, R519, R520, R522, R523 to R525, R529, R531: The Birlith
link: it comes up with two lanes that are not retired, moves off a failing lane to a trained spare or goes on with
one, and its loss ends the synchronisation. Heartbeats, their absence and SILENT indications; a takeover needs its
cause, a synchronised state or leave to do without, and a claim; a handover ends with the standby as primary or is
abandoned; the deadman silences the unit. The primary sends the copy of each cycle once, with the granules written;
the standby applies it, or loses its synchronisation when it is late or too large; the end of a full pass makes the
standby SYNCED. The model's choices it rests on: log entries 10, 108, 109, 151. -/
def Obligations.PairLinkTakeoverAndCopies : Prop :=
  (∀ s : State,
     let live := s.linkUpNow = true
     let due := s.red.deciding = true ∧ s.domOn 11 = true ∧ s.red.linkOnAt + 25000000 *
       (s.regField R.RED_CFG 23 16 * (if Config.strapB then 2 else 1)) ≤ s.raw
     ((live ∨ ¬ due) → exec .linkWaitExpiry s = .next s) ∧
     (¬ live → due → exec .linkWaitExpiry s =
       .next (State.enterRole 1 { s with red := { s.red with deciding := false } })) ∧
     (∀ ident,
       ((s.domOn 11 = false ∨ live) → exec (.birlithTrained ident) s = .next s) ∧
       (s.domOn 11 = true → ¬ live →
         let good := (List.range 3).filter fun i => !s.lanesRetired.contains i
         (good = [] → exec (.birlithTrained ident) s = .next s) ∧
         (good ≠ [] → exec (.birlithTrained ident) s = .next (State.showLanes (State.setRegField R.RED_LINK 1 0
           (if good.length = 1 then 3 else 2) { s with red := { s.red with
             active := good.take 2, peerId := ident, missed := 0, heard := true, blockLogged := false, syncFrom := s.raw } }))))) ∧
     (∀ lane : Fin 3,
       ((¬ live ∨ lane.val ∉ s.red.active ∨ s.red.training.isSome = true) →
         exec (.birlithLaneFailing lane) s = .next s) ∧
       (live → lane.val ∈ s.red.active → s.red.training = none →
         let spare := (List.range 3).find? fun i => !s.red.active.contains i && !s.lanesRetired.contains i
         (∀ x, spare = some x → s.spareLeft 7 0 = true → exec (.birlithLaneFailing lane) s =
           .next { s with red := { s.red with training := some (lane, x) } }) ∧
         (∀ x, spare = some x → s.spareLeft 7 0 = false → exec (.birlithLaneFailing lane) s = .next s) ∧
         (spare = none → s.red.active.length < 2 → exec (.birlithLaneFailing lane) s = .next s) ∧
         (spare = none → 2 ≤ s.red.active.length → exec (.birlithLaneFailing lane) s =
           .next (((State.showLanes (State.setRegField R.RED_LINK 1 0 3 { s with red := { s.red with
             active := s.red.active.filter (· != lane.val) } })).raise srcRed Ev.RED_LANE_SPARED lane 0xFF).noSpare 7 0
               lane)))) ∧
     ((¬ live ∨ s.red.training = none) → exec .spareLaneTrained s = .next s) ∧
     (live → ∀ lane x, s.red.training = some (lane, x) → exec .spareLaneTrained s =
       .next ((State.showLanes (State.spared 7 0 lane { s with red := { s.red with
         training := none, active := s.red.active.filter (· != lane) ++ [x] } })).raise srcRed Ev.RED_LANE_SPARED lane x)) ∧
     (¬ live → exec .birlithLinkDown s = .next s) ∧
     (live → ∃ t, exec .birlithLinkDown s = .next t ∧ t.linkUpNow = false ∧ t.peerPresent = false ∧ t.red.active = [] ∧
       t.red.peerSynced = false ∧ t.red.training = none ∧ t.role = s.role ∧
       (s.role = 2 → t.synced = false) ∧ (s.timeSource = 3 → s.servo ≠ 0 → t.servo = 3) ∧ SameMemory s t)) ∧
  (∀ s : State,
     let live := s.linkUpNow = true
     let heartbeat : Heartbeat :=
       { role := s.role, synced := s.synced, claim := (s.reg R.RED_CLAIM).toNat, mode := s.mode,
         cycles := s.cyc.tasks.map (·.lastDone), leaving := s.red.leaving, theta := none }
     let lost := s.red.missed + 1
     let silent := s.setRegField R.RED_ROLE 8 6 3
     let limit := s.regField R.RED_CFG 7 4
     let finals := ∀ t < 32, s.taskEnabled t = true → ∃ a b, tget s.red.copied t = some (a, b, true)
     (¬ live → exec .heartbeatSend s = .next s ∧ exec .silentIndication s = .next s ∧
       ∀ h, exec (.heartbeatReceived h) s = .next s) ∧
     (live → s.red.silentInd = true → exec .heartbeatSend s = .next (s.emit .silent)) ∧
     (live → s.red.silentInd = false → exec .heartbeatSend s =
       .next (State.emit (.heartbeat heartbeat) { s with red := { s.red with leaving := false } })) ∧
     (live → ∀ h : Heartbeat, h.role < 5 → h.claim < 2 ^ 32 → s.red.deciding = true → ∃ t,
       exec (.heartbeatReceived h) s = .next t ∧ t.red.deciding = false ∧
       (h.role ∈ [0, 1, 4] → t.red.standbyDue = true ∧ t.role = s.role) ∧
       (h.role ∉ [0, 1, 4] → Config.strapB = true → t.role = 2) ∧
       (h.role ∉ [0, 1, 4] → Config.strapB = false → s.claimUnknown = false → h.claim < 2 ^ 32 - 4 →
         (s.reg R.RED_CLAIM_SEEN).toNat < 2 ^ 32 - 4 → t.role = 1)) ∧
     (live → ∀ h : Heartbeat, h.role < 5 → h.claim < 2 ^ 32 → s.red.deciding = false → ∃ t,
       exec (.heartbeatReceived h) s = .next t ∧ t.peerPresent = true ∧ t.peerRole = h.role ∧ t.red.missed = 0 ∧
       t.red.heard = true ∧ h.claim ≤ (t.reg R.RED_CLAIM_SEEN).toNat ∧
       (s.role = 2 → h.role = 4 → t.role = 2 ∧ t.synced = false ∧ t.regBit R.RED_ROLE 9 = true) ∧
       (s.role = 2 → h.role ≠ 4 → t.regBit R.RED_ROLE 9 = false ∧ t.role = if h.leaving then 3 else 2) ∧
       (s.role = 1 → h.leaving = true → t.role = 0) ∧
       (s.role = 1 → h.leaving = false → s.red.handover = none → t.role = 1) ∧
       (s.role = 1 → h.leaving = false → s.red.handover.isSome = true → h.role = 1 → (s.reg R.RED_CLAIM).toNat < h.claim →
         t.role = 2) ∧
       (s.role ≠ 1 → s.role ≠ 2 → t.role = s.role)) ∧
     (s.red.heard = true → exec .heartbeatMissed s = .next { s with red := { s.red with heard := false } }) ∧
     (s.red.heard = false →
       let u := { s with red := { s.red with
         missed := lost, firstMiss := if s.red.missed = 0 then tickAt (tickOf s.now) else s.red.firstMiss } }
       exec .heartbeatMissed s = .next (if limit ≤ lost then u.setRegBit R.RED_ROLE 5 false else u)) ∧
     (live → s.role ≠ 2 → exec .silentIndication s = .next silent) ∧
     (live → s.role = 2 → exec .silentIndication s = .next (silent.takeoverBegin 1)) ∧
     (let waits := s.role = 2 ∧ limit ≤ s.red.missed ∧ s.waitLimit ≤ s.now ∧ s.regBit R.RED_ROLE 9 = false
      let alive := ∃ t, s.red.peerCommit = some t ∧ s.red.firstMiss ≤ t
      (¬ waits → exec .takeoverStart s = .next s) ∧
      (waits → ¬ alive → exec .takeoverStart s = .next (s.takeoverBegin 2)) ∧
      (waits → alive → s.red.blockLogged = true → exec .takeoverStart s = .next s) ∧
      (waits → alive → s.red.blockLogged = false → exec .takeoverStart s = .next (State.unsync 3 (State.raise srcRed
        Ev.RED_LINK_DOWN 1 0 { s with red := { s.red with blockLogged := true } })))) ∧
     (∀ cause, let unsynced := s.regBit R.RED_CFG 2 = true
       let allowed := s.claimUnknown = false ∧ (if s.regBit R.RED_ROLE 9 then cause = 1 ∧ unsynced
         else s.synced = true ∨ unsynced)
       (s.red.takeover.isSome = true → s.takeoverBegin cause = s) ∧
       (s.red.takeover = none → ¬ allowed → s.red.blockLogged = true → s.takeoverBegin cause = s) ∧
       (s.red.takeover = none → ¬ allowed → s.red.blockLogged = false → s.takeoverBegin cause =
         State.raise srcRed Ev.RED_TAKEOVER_BLOCKED 0 0 { s with red := { s.red with blockLogged := true } }) ∧
       (s.red.takeover = none → allowed → (s.reg R.RED_CLAIM_SEEN).toNat < 2 ^ 32 - 4 →
         (s.takeoverBegin cause).red.takeover = some cause ∧ (s.takeoverBegin cause).role = s.role)) ∧
     (let ready := s.role = 2 ∧ s.red.takeover.isSome = true ∧ s.red.claimDue = none
      (¬ ready → exec .takeoverReady s = .next s) ∧
      (ready → ∃ t, exec .takeoverReady s = .next t ∧ t.role = (if s.regBit R.RED_CFG 0 then 1 else 0) ∧
        t.red.takeover = none ∧ t.synced = false ∧ t.regField R.CYC_MODE 1 0 = s.red.copiedMode % 4 ∧ SameMemory s t)) ∧
     (let may := s.role = 2 ∧ s.synced = true ∧ finals ∧ s.red.takeover = none
      (¬ may → exec .handoverReceived s = .next s) ∧
      (may → s.claimUnknown = true → exec .handoverReceived s = .next (s.raise srcRed Ev.RED_CLAIM_UNKNOWN 0 0)) ∧
      (may → s.claimUnknown = false → (s.reg R.RED_CLAIM_SEEN).toNat < 2 ^ 32 - 4 → s.pwr.saving = false → ∃ t,
        exec .handoverReceived s = .next t ∧ t.role = (if s.regBit R.RED_CFG 0 then 1 else 0) ∧ t.red.takeover = none)) ∧
     (let ended := s.role = 1 ∧ ∃ t, s.red.handover = some t ∧ t + 250000000 ≤ s.raw
      (¬ ended → exec .handoverAbandon s = .next s) ∧
      (ended → exec .handoverAbandon s = .next (State.raise srcRed Ev.RED_SWITCH_ABANDONED 0 0
        { s with red := { s.red with handover := none, finalDone := [] } }))) ∧
     (let u := s.setRole 3
      exec .deadmanExpiry s = .next ((State.setRegBit R.SYS_RESET_CAUSE 6 true { u with red := { u.red with
        silentInd := true, takeover := none, handover := none, finalDone := [] } }).raise srcSup Ev.RED_DEADMAN 0 0))) ∧
  (∀ s : State,
     (∀ t : Fin 32, let x := s.task t
       let sends := s.role = 1 ∧ s.linkUpNow = true ∧ x.lastDone ≠ 0 ∧ tget s.red.sent t ≠ some x.lastDone
       let own := (tget s.red.taskDirty t).getD [] ++ (tget s.red.taskDirty 32).getD []
       let image (g : Nat) := State.granuleIn s.imageArea g
       let gs := s.red.dirty.filter image ++ own.filter fun g => State.granuleIn s.dataArea g
       (¬ sends → exec (.stateCopySend t) s = .next s) ∧
       (sends → ∃ u c, exec (.stateCopySend t) s = .next u ∧ tget u.red.sent t = some x.lastDone ∧
         tget u.red.taskDirty t = none ∧ u.red.dirty = s.red.dirty.filter (fun g => !image g) ∧ SameMemory s u ∧
         Out.stateCopy c ∈ u.out ∧ c.task = t ∧ c.cycle = x.lastDone ∧ (c.oversize = true ↔ 40960 < gs.length) ∧
         (c.oversize = false → c.granules = gs.map fun g => (256 * g, s.bytesAt (256 * g) 256)) ∧
         (c.oversize = true → u.red.peerSynced = false))) ∧
     (∀ c : StateCopy, let takes := s.role = 2 ∧ s.red.takeover = none ∧ s.linkUpNow = true
       (¬ takes → exec (.stateCopyReceived c) s = .next s) ∧
       (takes → c.oversize = true → exec (.stateCopyReceived c) s = .next (s.unsync 1)) ∧
       (takes → c.oversize = false → ∃ u, exec (.stateCopyReceived c) s = .next u ∧ u.role = 2 ∧
         u.cyc.forces = c.forces ∧ u.stn.ctxs = c.ctxs ∧
         (c.prog = none → c.pkg = none → u.cyc.prog = s.cyc.prog ∧ ∀ a, (∀ g ∈ c.granules, s.granuleMay g.1 = true →
           ¬ (g.1 ≤ a ∧ a < g.1 + 256)) → u.byteAt a = s.byteAt a) ∧
         tget u.red.copied c.task = some (c.cycle, c.release, c.final) ∧ u.red.copiedMode = c.mode)) ∧
     (∀ t : Fin 32, exec (.stateCopyLate t) s = .next (s.unsync 2)) ∧
     (∀ reason, let u := s.unsync reason
       (¬ (s.role = 2 ∧ s.synced = true) → u = s) ∧
       (s.role = 2 → s.synced = true → u.synced = false ∧ u.role = 2 ∧ u.red.syncFrom = s.raw ∧
         (u.reg R.RED_UNSYNC_COUNT).toNat = min (2 ^ 32 - 1) ((s.reg R.RED_UNSYNC_COUNT).toNat + 1))) ∧
     (∀ c : StateCopy,
       ((s.linkUpNow = false ∨ s.role ≠ 1 ∧ ¬ (s.role = 2 ∧ s.synced = false) ∧ s.red.standbyDue = false) →
         exec (.fullSyncPassEnd c) s = .next s) ∧
       (s.linkUpNow = true → s.role = 1 → ∃ u d, exec (.fullSyncPassEnd c) s = .next u ∧ u.red.peerSynced = true ∧
         u.red.dirty = [] ∧ u.red.taskDirty = [] ∧ u.out = Out.stateCopy d :: s.out ∧ d.task = c.task) ∧
       (s.linkUpNow = true → s.role ≠ 1 → (s.role = 2 ∧ s.synced = false ∨ s.red.standbyDue = true) → ∃ u,
         exec (.fullSyncPassEnd c) s = .next u ∧ u.synced = true ∧ u.role = 2 ∧ u.cyc.forces = c.forces)))

/-! ### Keys and tamper -/

/-- R538 to R548, R543 to R545, R551, R557, R558, R560, R561: KEY commands are refused without a root secret and after
a purge; loading, generating, deriving and deleting a key change one slot, and a persistent one is written to the bank
that is not in force. The commands that use a key: the operations of KEY_CRYPT with the class and type each needs,
wrapped export, attestation, and what KEY_SLOT_INFO shows. The model's choices it rests on: log entries 15, 113, 115,
116, 120, 121. -/
def Obligations.KeyCommands : Prop :=
  (∀ (id : Nat) (c : Cmd) (s s1 : State),
     let n := c.p 0 2
     let closed := s1.key.root = none ∨ s1.key.purged = true
     let slotOk := n < 256 ∧ c.p 2 2 = 0
     let given : Word := BitVec.ofNat 32 (c.p 4 4)
     let outside := setBit given 16 false
     let inside := setBit given 16 true
     let room (attr : Word) := attrType attr = 4 → 96 ≤ c.replyLen
     let held (attr : Word) := attrPersistent attr = true ∧ s1.pwr.feramHold = true
     let reply (k : Slot) : CmdEnd := if attrType k.attr = 4 then replyOr c (padTo 96 (Config.p384Pub k.key)) else .done .ok 0 0 []
     (∀ x ∈ [(Op.KEY_LOAD, Instr.keyLoad), (Op.KEY_GENERATE, .keyGenerate), (Op.KEY_DERIVE, .keyDerive),
         (Op.KEY_DELETE, .keyDelete), (Op.KEY_EXPORT_WRAPPED, .keyExportWrapped), (Op.KEY_CRYPT, .keyCrypt),
         (Op.KEY_ATTEST, .keyAttest)], Passes x.1 id c s s1 →
       (closed → Answers (x.2 id) id s (s1, .done .tampered 0 0 [])) ∧
       (¬ closed → 255 < n → Answers (x.2 id) id s (s1, .done .badParam 0 0 [])) ∧
       (¬ closed → n < 256 → c.p 2 2 ≠ 0 → Answers (x.2 id) id s (s1, .done .badParam 2 0 []))) ∧
     (Passes Op.KEY_LOAD id c s s1 → ¬ closed → slotOk →
       let pub := slice c.params 0xC 96
       let shape := attrOk outside = true ∧ c.len = 0x6C + c.p 0xA 2
       let loaded (kek : List Byte) := match Config.unwrap5649 kek (c.params.drop 0x6C) with
         | none => Answers (.keyLoad id) id s (s1, .done .unwrapFail 0 0 [])
         | some d =>
           ((fieldAt d 0 4 ≠ c.p 4 4 ∨ d.length ≠ 4 + keyLength (attrType outside)) →
             Answers (.keyLoad id) id s (s1, .done .unwrapFail 0 0 [])) ∧
           (fieldAt d 0 4 = c.p 4 4 → d.length = 4 + keyLength (attrType outside) →
             (held outside → Answers (.keyLoad id) id s (s1, .done .busy 3 0 [])) ∧
             (¬ held outside → Answers (.keyLoad id) id s
               (s1.putSlot n 1 ⟨false, outside, d.drop 4, s1.nowSec, 0xFFFF, false, []⟩, .done .ok 0 0 [])))
       (attrOk outside = false → Answers (.keyLoad id) id s (s1, .done .badParam 4 0 [])) ∧
       (shape → (c.p 8 2 < 256 ∧ allZero pub = true ∨ c.p 8 2 = 0xFFFF ∧ Config.p384OnCurve pub = true) →
         ((tget s1.key.slots n).isSome = true → Answers (.keyLoad id) id s (s1, .done .slotOccupied 0 0 [])) ∧
         (tget s1.key.slots n = none →
           (∀ root, c.p 8 2 = 0xFFFF → s1.key.root = some root →
             loaded (kdf (Config.ecdh (identityOf root) pub) "GZN KEY IMPORT" (pub ++ leBytes 2 n) 256)) ∧
           (c.p 8 2 < 256 →
             (s1.slotInUse (c.p 8 2) = none → Answers (.keyLoad id) id s (s1, .done .slotEmpty 0 0 [])) ∧
             ∀ w, s1.slotInUse (c.p 8 2) = some w →
               (attrClass w.attr ≠ 2 → Answers (.keyLoad id) id s (s1, .done .slotUsage 0 0 [])) ∧
               (attrClass w.attr = 2 → loaded w.key))))) ∧
     (Passes Op.KEY_GENERATE id c s s1 → ¬ closed → slotOk →
       let ty := attrType inside
       (attrOk inside = false → Answers (.keyGenerate id) id s (s1, .done .badParam 4 0 [])) ∧
       (attrOk inside = true → room inside →
         ((tget s1.key.slots n).isSome = true → Answers (.keyGenerate id) id s (s1, .done .slotOccupied 0 0 [])) ∧
         (tget s1.key.slots n = none → s1.drbgOk = false → Answers (.keyGenerate id) id s (s1, .done .internal 0 0 [])) ∧
         (tget s1.key.slots n = none → s1.drbgOk = true → held inside →
           Answers (.keyGenerate id) id s (s1, .done .busy 3 0 [])) ∧
         (tget s1.key.slots n = none → s1.drbgOk = true → ¬ held inside →
           let d := s1.drawBytes (deriveBits ty / 8)
           let k : Slot := ⟨false, inside, formKey ty d.1, s1.nowSec, 0xFFFF, false, []⟩
           Answers (.keyGenerate id) id s (d.2.putSlot n 2 k, reply k)))) ∧
     (Passes Op.KEY_DERIVE id c s s1 → ¬ closed → slotOk → c.p 0xA 2 ≤ 64 → c.len = 0x6C + c.p 0xA 2 →
       let pub := slice c.params 0xC 96
       let parent := c.p 8 2
       let ctx := c.params.drop 0x6C
       let derives (kin : List Byte) (label : String) (attr : Word) := attrOk outside = true → attrOk attr = true → room attr →
         ((tget s1.key.slots n).isSome = true → Answers (.keyDerive id) id s (s1, .done .slotOccupied 0 0 [])) ∧
         (tget s1.key.slots n = none → held attr → Answers (.keyDerive id) id s (s1, .done .busy 3 0 [])) ∧
         (tget s1.key.slots n = none → ¬ held attr →
           let ty := attrType attr
           let k : Slot := ⟨false, attr, formKey ty (kdf kin label (s1.slotContext n attr ctx) (deriveBits ty)), s1.nowSec,
             parent, true, ctx⟩
           Answers (.keyDerive id) id s (s1.putSlot n 3 k, reply k))
       (∀ root, parent = 0xFFFF → s1.key.root = some root → allZero pub = true → derives root "GZN SLOT" inside) ∧
       (attrOk outside = false → Answers (.keyDerive id) id s (s1, .done .badParam 4 0 [])) ∧
       (attrOk outside = true → parent < 256 →
         (s1.slotInUse parent = none → Answers (.keyDerive id) id s (s1, .done .slotEmpty 0 0 [])) ∧
         ∀ w, s1.slotInUse parent = some w →
           (attrClass w.attr ≠ 3 → Answers (.keyDerive id) id s (s1, .done .slotUsage 0 0 [])) ∧
           (attrClass w.attr = 3 → attrType w.attr = 4 → Config.p384OnCurve pub = true →
             derives (Config.ecdh w.key pub) "GZN ECDH" outside) ∧
           (attrClass w.attr = 3 → attrType w.attr ≠ 4 → allZero pub = true →
             derives w.key "GZN DERIVE" (setBit given 16 (bit w.attr 16))))) ∧
     (Passes Op.KEY_DELETE id c s s1 → ¬ closed → slotOk →
       (tget s1.key.slots n = none → Answers (.keyDelete id) id s (s1, .done .slotEmpty 0 0 [])) ∧
       ∀ k, tget s1.key.slots n = some k →
         let lastOperator := k.isSealed = false ∧ attrOperator k.attr = true ∧
           (s1.key.slots.filter fun x => !x.2.isSealed && attrOperator x.2.attr).length = 1
         (lastOperator → Answers (.keyDelete id) id s (s1, .done .slotUsage 0 0 [])) ∧
         (¬ lastOperator → held k.attr → Answers (.keyDelete id) id s (s1, .done .busy 3 0 [])) ∧
         (¬ lastOperator → ¬ held k.attr → k.isSealed = false →
           let u := State.removeSlotSas n { s1 with key := { s1.key with slots := tdel s1.key.slots n } }
           Answers (.keyDelete id) id s (((if attrPersistent k.attr then u.bankUpdate n 4 else u).raise srcSec
             Ev.KEY_SLOT_CHANGED (n + 0x400) (fieldAt (keyId k) 0 4)), .done .ok 0 0 []))) ∧
     (∀ op k, let u := s1.putSlot n op k
       tget u.key.slots n = some k ∧ (∀ m, m ≠ n → tget u.key.slots m = tget s1.key.slots m) ∧
       (attrOperator k.attr = true → tget u.key.counters n = none) ∧ (attrOperator k.attr = false →
         u.key.counters = s1.key.counters) ∧ SameMemory s1 u ∧
       (attrPersistent k.attr = false → u.key.bank0 = s1.key.bank0 ∧ u.key.bank1 = s1.key.bank1) ∧
       (attrPersistent k.attr = true → s1.key.root.isSome = true → ∃ b,
         (match s1.bankInForce with
           | some (0, old) => u.key.bank1 = some b ∧ u.key.bank0 = s1.key.bank0 ∧ b.seq = old.seq + 1
           | some (_, old) => u.key.bank0 = some b ∧ u.key.bank1 = s1.key.bank1 ∧ b.seq = old.seq + 1
           | none => u.key.bank0 = some b ∧ u.key.bank1 = s1.key.bank1 ∧ b.seq = 1) ∧
         b.good = true ∧ some b.root = s1.key.root ∧ (u.reg R.KEY_BANK_SEQ).toNat = b.seq % 2 ^ 32 ∧
         tget b.recs n = some ⟨k, s1.slotContext n k.attr k.ctx⟩))) ∧
  (∀ (id : Nat) (c : Cmd) (s s1 : State),
     let n := c.p 0 2
     let usable := (s1.key.root.isSome = true ∧ s1.key.purged = false) ∧ n < 256 ∧ c.p 2 2 = 0
     (Passes Op.KEY_EXPORT_WRAPPED id c s s1 → usable → c.p 4 2 < 256 → c.p 6 2 = 0 →
       ((s1.slotInUse n = none ∨ s1.slotInUse (c.p 4 2) = none) →
         Answers (.keyExportWrapped id) id s (s1, .done .slotEmpty 0 0 [])) ∧
       ∀ k w, s1.slotInUse n = some k → s1.slotInUse (c.p 4 2) = some w →
         ((attrExportable k.attr = false ∨ attrClass w.attr ≠ 2) →
           Answers (.keyExportWrapped id) id s (s1, .done .slotUsage 0 0 [])) ∧
         (attrExportable k.attr = true → attrClass w.attr = 2 →
           let attr := leBytes 4 k.attr.toNat
           (attrType k.attr ≤ 2 → Answers (.keyExportWrapped id) id s
             (s1, replyOr c (attr ++ padTo 40 (Config.wrap3394 w.key attr k.key)))) ∧
           (2 < attrType k.attr → Answers (.keyExportWrapped id) id s
             (s1, replyOr c (attr ++ padTo 64 (Config.wrap5649 w.key (attr ++ k.key))))))) ∧
     (Passes Op.KEY_CRYPT id c s s1 → usable →
       let op := c.p 4 1
       let aadLen := c.p 8 4
       let dataLen := c.p 0xC 4
       let aad := slice c.params 0x4C aadLen
       let data := slice c.params (0x4C + aadLen) dataLen
       let tag (m : Nat) : List Byte := slice c.params 0x1C m
       let ends (r : State × CmdEnd) := Answers (.keyCrypt id) id s r
       ((op = 0 ∨ 7 < op) → ends (s1, .done .badParam 2 0 [])) ∧
       (1 ≤ op → op ≤ 7 → c.p 5 3 = 0 → (op = 7 → dataLen = 48) → c.len = 0x4C + aadLen + dataLen →
         (s1.slotInUse n = none → ends (s1, .done .slotEmpty 0 0 [])) ∧
         ∀ k, s1.slotInUse n = some k →
           let ty := attrType k.attr
           let cls := attrClass k.attr
           let fits := attrOperator k.attr = false ∧ ((op = 1 ∨ op = 3) ∧ ty = 1 ∧ cls = 0 ∨
             (op = 2 ∨ op = 4) ∧ ty = 1 ∧ cls = 1 ∨ op = 5 ∧ (ty = 2 ∨ ty = 3) ∧ cls = 0 ∨
             op = 6 ∧ (ty = 2 ∨ ty = 3) ∧ cls = 1 ∨ op = 7 ∧ ty = 4 ∧ cls = 0)
           (¬ fits → ends (s1, .done .slotUsage 0 0 [])) ∧
           (fits →
             (op = 1 → 28 + dataLen ≤ c.replyLen → s1.drbgOk = true →
               let d := s1.drawBytes 12
               let out := padTo (dataLen + 16) (Config.gcmSeal k.key d.1 aad data)
               ends (d.2, replyOr c (d.1 ++ out.drop dataLen ++ out.take dataLen))) ∧
             (op = 2 → dataLen ≤ c.replyLen →
               match Config.gcmOpen k.key (slice c.params 0x10 12) aad (data ++ tag 16) with
               | some plain => ends (s1, .done .ok 1 0 (padTo dataLen plain))
               | none => ends (s1, .done .ok 0 0 [])) ∧
             (op = 3 → 16 ≤ c.replyLen → ends (s1, .done .ok 16 0 (padTo 16 (Config.aesCmac k.key data)))) ∧
             (op = 4 → ends (s1, .done .ok (if Config.aesCmac k.key data = tag 16 then 1 else 0) 0 [])) ∧
             (op = 5 → ty = 2 → 32 ≤ c.replyLen → ends (s1, .done .ok 32 0 (padTo 32 (Config.hmac256 k.key data)))) ∧
             (op = 5 → ty = 3 → 48 ≤ c.replyLen → ends (s1, .done .ok 48 0 (padTo 48 (Config.hmac384 k.key data)))) ∧
             (op = 6 → ty = 2 → ends
               (s1, .done .ok (if padTo 32 (Config.hmac256 k.key data) = tag 32 then 1 else 0) 0 [])) ∧
             (op = 6 → ty = 3 → ends
               (s1, .done .ok (if padTo 48 (Config.hmac384 k.key data) = tag 48 then 1 else 0) 0 [])) ∧
             (op = 7 → 96 ≤ c.replyLen → s1.drbgOk = true →
               let r := s1.draw 56
               ends (r.2, .done .ok 96 0 (padTo 96 (Config.ecdsaSign k.key data r.1)))) ∧
             ((op = 1 ∧ 28 + dataLen ≤ c.replyLen ∨ op = 7 ∧ 96 ≤ c.replyLen) → s1.drbgOk = false →
               ends (s1, .done .internal 0 0 []))))) ∧
     (Passes Op.KEY_ATTEST id c s s1 → usable →
       (s1.slotInUse n = none → Answers (.keyAttest id) id s (s1, .done .slotEmpty 0 0 [])) ∧
       ∀ k root, s1.slotInUse n = some k → s1.key.root = some root →
         (s1.drbgOk = false → Answers (.keyAttest id) id s (s1, .done .internal 0 0 [])) ∧
         (s1.drbgOk = true →
           let own := padTo 96 (Config.p384Pub (identityOf root))
           let body := leBytes 4 0x54415A47 ++ leBytes 2 1 ++ leBytes 2 n ++ leBytes 4 (s1.reg R.SYS_ID).toNat ++
             leBytes 4 k.attr.toNat ++ instantBytes s1.now ++ zeros 4 ++ slice c.params 4 32 ++
             ((List.range 4).map fun j => padTo 48 (nth [] s1.pwr.meas j)).flatten ++
             (if attrType k.attr = 4 then padTo 96 (Config.p384Pub k.key) else zeros 96) ++ own
           let r := s1.draw 57
           Answers (.keyAttest id) id s
             (r.2, replyOr c (body ++ padTo 96 (Config.ecdsaSign (identityOf root) (Config.sha384 body) r.1))))) ∧
     (Passes Op.KEY_SLOT_INFO id c s s1 →
       let counter := leBytes 4 ((tget s1.key.counters n).getD 0)
       (255 < n → Answers (.keySlotInfo id) id s (s1, .done .badParam 0 0 [])) ∧
       (n < 256 → c.p 2 2 ≠ 0 → Answers (.keySlotInfo id) id s (s1, .done .badParam 2 0 [])) ∧
       (n < 256 → c.p 2 2 = 0 →
         (tget s1.key.slots n = none → Answers (.keySlotInfo id) id s (s1, replyOr c (zeros 8 ++ counter ++ zeros 20))) ∧
         ∀ k, tget s1.key.slots n = some k → k.isSealed = false → s1.domOn 9 = true →
           Answers (.keySlotInfo id) id s (s1, replyOr c ([1, 0, 0, 0] ++ leBytes 4 k.attr.toNat ++ counter ++
             leBytes 8 k.created ++ keyId k ++ zeros 4)))))

/-- R537, R555 to R558: A source that has failed for its filter trips: a PURGE source destroys the root secret, the
slots and the keys, every trip is entered in the tamper log, and the root secret comes back only after the sources are
quiet. The model's choices it rests on: log entries 13, 118, 119. -/
def Obligations.TamperAndRandomness : Prop :=
  ∀ s : State,
    (∀ (n : Fin 7) (cond : Bool), let t := s.tamperSource n cond
      (s.tamperAction n = 0 → t.tamperState n = 0 ∧ nth 0 t.key.filt n = 0) ∧
      (s.tamperAction n ≠ 0 → (n.val = 6 ∨ cond = false) → t.tamperState n = 1) ∧
      (s.tamperAction n ≠ 0 → n.val ≠ 6 → cond = true → t.tamperState n = if s.tamperState n = 3 then 3 else 2) ∧
      (∀ m : Fin 7, m ≠ n → t.tamperState m = s.tamperState m)) ∧
    (∀ clock : Bool,
      let trips (n : Nat) := s.tamperAction n ≠ 0 ∧ s.tamperState n ≠ 3 ∧ (if n = 6 then clock = true else
        s.tamperState n = 2 ∧ (if n < 4 then field (s.reg R.KEY_TAMPER_FILT) (8 * n + 7) (8 * n) else 2) ≤ nth 0 s.key.filt n)
      let purges := ∃ n < 7, trips n ∧ s.tamperAction n = 2
      ((∀ n < 7, ¬ trips n) → exec (.tamperTrip clock) s = .next s) ∧
      ((∃ n < 7, trips n) → ∃ t, exec (.tamperTrip clock) s = .next t ∧
        (∀ n < 7, (trips n → t.tamperState n = 3) ∧ (¬ trips n → t.tamperState n = s.tamperState n)) ∧
        field (t.reg R.KEY_TAMPER_COUNT) 15 0 = min 65535 (s.regField R.KEY_TAMPER_COUNT 15 0 + 1) ∧
        (let i := s.regField R.KEY_TAMPER_COUNT 18 16
         t.reg (R.KEY_TAMPER_LOG_FRAC i) = BitVec.ofNat 32 s.rtc.count ∧
         (t.regBit (R.KEY_TAMPER_LOG_HI i) 24 = true ↔ purges) ∧ t.regBit (R.KEY_TAMPER_LOG_HI i) 25 = !s.pwr.main ∧
         ∀ n < 7, (t.regBit (R.KEY_TAMPER_LOG_HI i) (16 + n) = true ↔ trips n)) ∧ SameMemory s t ∧
        (purges → t.key.root = none ∧ t.key.slots = [] ∧ t.key.purged = s.pwr.main ∧ t.nv.tokens = [] ∧ t.net.sas = [] ∧
          (∀ g ∈ t.stn.segs, g.key = [] ∧ g.newKey = none) ∧ ∀ x ∈ t.stn.ctxs, x.2.key = []) ∧
        (¬ purges → t.key.root = s.key.root ∧ t.key.slots = s.key.slots))) ∧
    (let may := s.key.root = none ∧ s.key.purged = false ∧ s.rootDeferred = false ∧ s.pwr.main = true ∧ 2 ≤ s.phase ∧
      s.drbgOk = true
     (¬ may → exec .rootSecretGenerate s = .next s) ∧
     (may → ∃ t, exec .rootSecretGenerate s = .next t ∧ t.key.root = some (s.drawBytes 32).1 ∧ t.key.slots = [] ∧
       t.key.counters = [] ∧ t.regBit R.SYS_BOOT_STATUS 6 = true ∧ SameMemory s t)) ∧
    (s.phase = 0 → exec .trngHealthFail s = .next s ∧ exec .drbgReseed s = .next s) ∧
    (s.phase ≠ 0 →
      exec .drbgReseed s = .next (State.setRegBit R.KEY_STATUS 4 true { s with key := { s.key with trngRun := 0 } }) ∧
      (let u := s.bump R.KEY_TRNG_FAILS 1
       let v := { u with key := { u.key with trngRun := u.key.trngRun + 1 } }
       exec .trngHealthFail s = .next (if s.key.trngRun = 2 then
         (v.setRegBit R.KEY_STATUS 4 false).raise srcSec Ev.KEY_TRNG_FAIL 0 0 else v)))

/-! ### Event recorder -/

/-- R577 to R584: Reading records by sequence and by time, freezing and thawing, clearing, the configuration, and what
the status shows of the log and the queue. The model's choices it rests on: log entries 124, 125. -/
def Obligations.RecorderCommands : Prop :=
  ∀ (id : Nat) (c : Cmd) (s s1 : State),
    let records (l : List LogRec) : List Byte := (l.map recordBytes).flatten
    let newest := s1.reg R.EVR_SEQ_NEWEST
    (Passes Op.EVR_READ_SEQ id c s s1 →
      let count := c.p 4 4
      let first : Word := if c.p 0 4 = 0xFFFFFFFF then s1.evrWord R.EVR_SEQ_OLDEST else BitVec.ofNat 32 (c.p 0 4)
      let hit := (s1.evr.log.map (·.2)).filter fun r => decide ((r.seq - first).toNat < count)
      ((count = 0 ∨ 2047 < count) → Answers (.evrReadSeq id) id s (s1, .done .badParam 4 0 [])) ∧
      (0 < count → count ≤ 2047 → hit = [] → Answers (.evrReadSeq id) id s (s1, .done .recordNone 0 0 [])) ∧
      (0 < count → count ≤ 2047 → hit ≠ [] → ∃ l : List LogRec, l.Perm hit ∧
        l.Pairwise (fun a b => (a.seq - first).toNat ≤ (b.seq - first).toNat) ∧
        Answers (.evrReadSeq id) id s (s1, replyOr c (records l)))) ∧
    (Passes Op.EVR_READ_TIME id c s s1 →
      let t0 := instantOf c.params
      let t1 := instantOf (c.params.drop 0xC)
      let count := c.p 0x18 4
      let before (a b : LogRec) : Prop := a.ev.stamp < b.ev.stamp ∨
        a.ev.stamp = b.ev.stamp ∧ (newest - b.seq).toNat < (newest - a.seq).toNat
      let sorted (l : List LogRec) := l.Pairwise fun a b => ¬ before b a
      let hit := (s1.evr.log.map (·.2)).filter fun r => decide (t0 ≤ r.ev.stamp ∧ r.ev.stamp < t1)
      let send (l : List LogRec) := Answers (.evrReadTime id) id s
        (s1, if l = [] then .done .recordNone 0 0 [] else replyOr c (records (l.take count)))
      (t1 ≤ t0 → Answers (.evrReadTime id) id s (s1, .done .badParam 0xC 0 [])) ∧
      (t0 < t1 → (count = 0 ∨ 2047 < count) → Answers (.evrReadTime id) id s (s1, .done .badParam 0x18 0 [])) ∧
      (t0 < t1 → 0 < count → count ≤ 2047 →
        (c.p 0x1C 4 = 0 → ∃ l, l.Perm hit ∧ sorted l ∧ send l) ∧
        (c.p 0x1C 4 = 1 → (∀ r ∈ hit, r.seq.toNat ≠ c.p 0x20 4) →
          Answers (.evrReadTime id) id s (s1, .done .badParam 0x20 0 [])) ∧
        (c.p 0x1C 4 = 1 → ∀ r ∈ hit, r.seq.toNat = c.p 0x20 4 → (∀ q ∈ hit, q.seq = r.seq → q = r) →
          ∃ l, (∀ q, q ∈ l ↔ q ∈ hit ∧ before r q) ∧ sorted l ∧ send l) ∧
        (1 < c.p 0x1C 4 → Answers (.evrReadTime id) id s (s1, .done .badParam 0x1C 0 [])))) ∧
    (Passes Op.EVR_FREEZE id c s s1 →
      (5000 < c.p 0 4 → Answers (.evrFreeze id) id s (s1, .done .badParam 0 0 [])) ∧
      (c.p 0 4 ≤ 5000 → s1.frozen = true → Answers (.evrFreeze id) id s (s1, .done .logFrozen 0 0 [])) ∧
      (c.p 0 4 ≤ 5000 → s1.frozen = false →
        let u := s1.setRegField R.EVR_STATUS 1 0 1
        let ms := if c.p 0 4 = 0 then 5000 else c.p 0 4
        Answers (.evrFreeze id) id s ({ u with evr := { u.evr with
            freezeEnd := s1.raw + 250000 * ms - (s1.now - c.arrival) * 250000000 / 2 ^ 32 } },
          .done .ok (newest.toNat % 65536) (newest.toNat / 65536) []))) ∧
    (Passes Op.EVR_THAW id c s s1 →
      (s1.frozen = false → Answers (.evrThaw id) id s (s1, .done .ok 0 0 [])) ∧
      (s1.frozen = true → let u := s1.setRegField R.EVR_STATUS 1 0 0
        Answers (.evrThaw id) id s
          ({ u with evr := { u.evr with own := u.evr.own ++ [(Ev.EVR_THAWED, 0, 0)] } }, .done .ok 0 0 []))) ∧
    (Passes Op.EVR_CLEAR id c s s1 →
      (s1.frozen = true → Answers (.evrClear id) id s (s1, .done .logFrozen 0 0 [])) ∧
      (s1.frozen = false → s1.pwr.feramHold = true → Answers (.evrClear id) id s (s1, .done .busy 3 0 [])) ∧
      (s1.frozen = false → s1.pwr.feramHold = false → s1.evr.queue.length ≤ 256 → s1.evr.own.length ≤ 256 →
        ∃ u r, Answers (.evrClear id) id s (u, .done .ok 0 0 []) ∧ SameMemory s1 u ∧
          u.evr.log.length ≤ s1.evr.own.length + 258 ∧ tget u.evr.log 0 = some r ∧
          r.ev.code.toNat = Ev.LOG_CLEARED ∧ r.ev.a = BitVec.ofNat 32 c.authSlot ∧ r.ev.b = newest ∧
          r.seq = newest + 1)) ∧
    (Passes Op.EVR_CONFIG id c s s1 →
      let ok := c.p 0 1 ≤ 1 ∧ c.p 1 1 ≤ 8 ∧ c.p 2 2 ≤ 60000 ∧ c.p 4 1 ≤ 7 ∧ c.p 5 3 = 0
      let w := c.p 2 2 + 2 ^ 16 * c.p 4 1 + 2 ^ 20 * c.p 1 1 + 2 ^ 24 * c.p 0 1
      (∀ x ∈ [(0, 1, 1), (1, 1, 8), (2, 2, 60000), (4, 1, 7), (5, 3, 0)], x.2.2 < c.p x.1 x.2.1 →
        (∀ y ∈ [(0, 1, 1), (1, 1, 8), (2, 2, 60000), (4, 1, 7)], y.1 < x.1 → c.p y.1 y.2.1 ≤ y.2.2) →
        Answers (.evrConfig id) id s (s1, .done .badParam x.1 0 [])) ∧
      (ok → s1.pwr.feramHold = true → Answers (.evrConfig id) id s (s1, .done .busy 3 0 [])) ∧
      (ok → s1.pwr.feramHold = false → Answers (.evrConfig id) id s
        (((s1.setReg R.EVR_CONFIG (BitVec.ofNat 32 w)).nvReg R.EVR_CONFIG).raise srcEvr Ev.EVR_CONFIG w 0,
          .done .ok 0 0 []))) ∧
    (Passes Op.EVR_STATUS id c s s1 → Answers (.evrStatus id) id s (s1, replyOr c
      ((List.range 13).map fun i => leBytes 4 (s1.evrWord (R.EVR_STATUS + 4 * i)).toNat).flatten)) ∧
    s1.evrWord R.EVR_RECORDS = BitVec.ofNat 32 s1.evr.log.length ∧
    s1.evrWord R.EVR_QUEUE = BitVec.ofNat 32 s1.evr.queue.length ∧
    (s1.evr.log = [] → s1.evrWord R.EVR_SEQ_OLDEST = 0) ∧
    (s1.evr.log ≠ [] → ∃ x ∈ s1.evr.log, s1.evrWord R.EVR_SEQ_OLDEST = x.2.seq ∧
      ∀ y ∈ s1.evr.log, (newest - y.2.seq).toNat ≤ (newest - x.2.seq).toNat) ∧
    (s1.frozen = false → s1.evrWord R.EVR_FREEZE_LEFT = 0)

/-- R564, R568 to R572, R571 to R573, R575 to R577, R585: An event below the recording limit is discarded; one that
repeats the last within the window is counted there; any other takes a queue entry while the queue has one for its
severity, and is lost otherwise. Records go to the log in order: first what was lost, then the recorder's own, then
the queue; a full log drops the new record or replaces the oldest of the lowest severity, never the record of the last
clear; a freeze ends at its limit. The model's choices it rests on: log entries 123, 124, 127. -/
def Obligations.EventsAndRecords : Prop :=
  (∀ (s : State) (src : Fin 48) (code : BitVec 16) (a b : Word),
     let sev := severity code.toNat
     let window := usToUnits (1000 * s.regField R.EVR_CONFIG 15 0)
     let e : QEntry :=
       { stamp := s.now, code := code, source := BitVec.ofNat 8 src, rep := 0, a := a, b := b, alone := false,
         sevFlags := BitVec.ofNat 8 (sev + (if s.regField R.TIME_STATE 1 0 = 2 then 0 else 8) +
           (if s.evr.restored then 0 else 16) + if s.frozen then 64 else 0) }
     let repeats (h : QEntry) := 0 < window ∧ h.alone = false ∧ h.code = code ∧ h.source = e.source ∧ h.a = a ∧ h.b = b ∧
       s.now < h.stamp + window
     let n := s.evr.queue.length
     let outside := sev = 0 ∨ 0xB10 ≤ code.toNat ∧ code.toNat ≤ 0xB12
     ((outside ∨ sev < s.regField R.EVR_CONFIG 18 16) → exec (.eventRaised src code a b) s = .next s) ∧
     (¬ outside → s.regField R.EVR_CONFIG 18 16 ≤ sev →
       let queued := (∀ h, s.evr.queue.getLast? = some h → ¬ repeats h) ∧ (s.evr.queue = [] → s.logWritable = true →
         ∀ slot r, s.newestRec = some (slot, r) → ¬ repeats r.ev)
       (∀ h, s.evr.queue.getLast? = some h → repeats h → exec (.eventRaised src code a b) s = .next (State.bump
         R.EVR_REPEATS 1 { s with evr := { s.evr with queue := s.evr.queue.dropLast ++ [{ h with rep := satAdd h.rep 1 }] } })) ∧
       (s.evr.queue = [] → s.logWritable = true → ∀ slot r, s.newestRec = some (slot, r) → repeats r.ev → ∃ t : State,
         exec (.eventRaised src code a b) s = .next (t.bump R.EVR_REPEATS 1) ∧ t = { s with evr := { s.evr with
           log := t.evr.log } } ∧ t.evr.log.map (·.1) = s.evr.log.map (·.1) ∧
         ∀ x y, tget s.evr.log x = some y → tget t.evr.log x =
           some (if x = slot then { y with ev := { y.ev with rep := satAdd y.ev.rep 1 } } else y)) ∧
       (queued → (n < 240 ∨ 6 ≤ sev ∧ n < 256) → exec (.eventRaised src code a b) s = .next (State.regMax
         R.EVR_QUEUE_PEAK (n + 1) { s with evr := { s.evr with queue := s.evr.queue ++ [e] } })) ∧
       (queued → 240 ≤ n → (sev < 6 ∨ 256 ≤ n) → exec (.eventRaised src code a b) s = .next ((State.bump
         R.EVR_LOST_PENDING 1 { s with evr := { s.evr with firstLost := some (s.evr.firstLost.getD s.now) } }).bump
           R.EVR_LOST_TOTAL 1)))) ∧
  ((∀ (s : State) (good : Bool),
     let own (code a b : Nat) : QEntry :=
       { stamp := s.now, code := BitVec.ofNat 16 code, source := BitVec.ofNat 8 srcEvr, rep := 0, a := BitVec.ofNat 32 a,
         b := BitVec.ofNat 32 b, alone := false, sevFlags := BitVec.ofNat 8 (severity code + if s.regField R.TIME_STATE 1 0 = 2 then 0 else 8) }
     let lost := (s.reg R.EVR_LOST_PENDING).toNat
     let may := s.frozen = false ∧ s.pwr.feramHold = false ∧ s.evr.restored = true
     (¬ may → exec (.eventRecordWrite good) s = .next s) ∧
     (may → lost ≠ 0 → exec (.eventRecordWrite good) s = .next (State.addRecord
       (own Ev.EVENTS_LOST lost (s.evr.firstLost.getD 0 / 2 ^ 32)) good (let u := s.setReg R.EVR_LOST_PENDING 0
         { u with evr := { u.evr with firstLost := none } }))) ∧
     (may → lost = 0 → ∀ x rest, s.evr.own = x :: rest → exec (.eventRecordWrite good) s = .next (State.addRecord
       (own x.1 x.2.1 x.2.2) good { s with evr := { s.evr with own := rest } })) ∧
     (may → lost = 0 → s.evr.own = [] → s.evr.queue = [] → exec (.eventRecordWrite good) s = .next s) ∧
     (may → lost = 0 → s.evr.own = [] → ∀ e rest, s.evr.queue = e :: rest →
       let u := { s with evr := { s.evr with queue := rest } }
       (∀ x, s.newestRec = some x → e.mergesInto x.2.ev s.repeatWindow = true →
         exec (.eventRecordWrite good) s = .next (u.mergeNewest x.1 (e.rep.toNat + 1))) ∧
       ((∀ x, s.newestRec = some x → e.mergesInto x.2.ev s.repeatWindow = false) →
         exec (.eventRecordWrite good) s = .next (u.addRecord e good))) ∧
     ((s.frozen = false ∨ s.raw < s.evr.freezeEnd) → exec .freezeLimitExpiry s = .next s) ∧
     (s.frozen = true → s.evr.freezeEnd ≤ s.raw → let u := s.setRegField R.EVR_STATUS 1 0 0
       exec .freezeLimitExpiry s = .next { u with evr := { u.evr with own := u.evr.own ++ [(Ev.EVR_THAWED, 0, 1)] } })) ∧
   ∀ (u : State) (e : QEntry) (good : Bool),
     let full := 32768 ≤ u.evr.log.length
     let newest := u.reg R.EVR_SEQ_NEWEST
     let keeps := u.regBit R.EVR_CONFIG 24 = false
     (¬ full → u.addRecord e good = u.writeRecord u.freeSlot e good) ∧
     (full → keeps → u.addRecord e good = u.bump R.EVR_DROPPED 1) ∧
     (full → ¬ keeps → (∀ x, u.victim e.sev = some x → u.addRecord e good =
       (u.writeRecord x.1 { e with sevFlags := setBit e.sevFlags 5 true } good).bump R.EVR_OVERWRITES 1) ∧
       (u.victim e.sev = none → u.addRecord e good = u.bump R.EVR_DROPPED 1)) ∧
     (u.evr.writePos < 32768 → (∀ x ∈ u.evr.log, x.1 < 32768) → u.evr.log.Pairwise (fun x y => x.1 < y.1) → ¬ full →
       tget u.evr.log u.freeSlot = none ∧ u.freeSlot < 32768) ∧
     (∀ sev < 8, let others := u.evr.log.filter fun x => some x.1 != u.clearedSlot
       (∀ x, u.victim sev = some x → x ∈ others ∧ x.2.ev.sev ≤ sev ∧ ∀ y ∈ others, x.2.ev.sev ≤ y.2.ev.sev ∧
         (y.2.ev.sev = x.2.ev.sev → (newest - y.2.seq).toNat ≤ (newest - x.2.seq).toNat)) ∧
       (u.victim sev = none → ∀ y ∈ others, sev < y.2.ev.sev)) ∧
     (∀ slot, (∀ x ∈ u.evr.log, x.2.seq ≠ newest + 1) → let w := u.writeRecord slot e good
       (∃ r, tget w.evr.log slot = some r ∧ r.seq = newest + 1 ∧ { r.ev with rep := e.rep } = e) ∧
       (∀ x, x ≠ slot → tget w.evr.log x = tget u.evr.log x) ∧ w.evr.writePos = (slot + 1) % 32768 ∧
       w.reg R.EVR_SEQ_NEWEST = newest + 1 ∧ SameMemory u w))

/-! ### Health and counters -/

/-- R590, R591, R599, R602 to R606, R608: The ledger, the sensors and the bandwidth window as they stand; a spare
brought in on command; counters selected, which clears the changed ones, and read with their overflow bits. A counter
that wraps sets its overflow bit or counts in the chained one; at the end of a bandwidth window its counts are held,
or zeros for a partial one, and the next window begins. The model's choices it rests on: log entries 13, 128. -/
def Obligations.HealthCommandsAndCounters : Prop :=
  (∀ (id : Nat) (c : Cmd) (s s1 : State),
     let w (a : Nat) : List Byte := leBytes 4 (s1.reg a).toNat
     (Passes Op.HLT_LEDGER id c s s1 → Answers (.hltLedger id) id s (s1, replyOr c (w R.HLT_RESERVE ++ w R.HLT_LIFE_USED ++
       w R.HLT_EQUIV_S_LO ++ w R.HLT_EQUIV_S_HI ++ w R.HLT_POWER_HOURS ++ w R.HLT_POWER_CYCLES ++
       ((List.range 8).map fun k => w (R.HLT_SPARES k)).flatten ++ leBytes 8 s1.hlt.ledger.written))) ∧
     (Passes Op.HLT_SENSORS id c s s1 → Answers (.hltSensors id) id s (s1, replyOr c
       ((List.range 32).map fun n => w (R.HLT_SENSOR_LO n) ++ w (R.HLT_SENSOR_HI n)).flatten)) ∧
     (Passes Op.HLT_SPARE_BRING_IN id c s s1 →
       let kind := c.p 0 4
       let unit := c.p 4 4
       let addr := c.p 8 8
       let ends (u : State) (st : Status) (r : Nat) := Answers (.hltSpareBringIn id) id s (u, .done st r 0 [])
       (s1.pwr.feramHold = true → ends s1 .busy 3) ∧
       (s1.pwr.feramHold = false →
         (7 < kind → ends s1 .badParam 0) ∧
         (kind = 0 → (s1.logicalOf unit = none ∨ 18 ≤ unit) → ends s1 .badParam 4) ∧
         (kind = 0 → s1.logicalOf unit ≠ none → unit < 18 →
           let cluster := if unit < 9 then 0 else 1
           (s1.spareLeft 0 cluster = false → ends s1 .noSpare 0) ∧
           (s1.spareLeft 0 cluster = true → (∀ d ∈ s1.hlt.due, d.phys ≠ unit) → ends { s1 with hlt := { s1.hlt with
             due := s1.hlt.due ++ [⟨unit, true, s1.raw, none, false⟩] } } .pending 0) ∧
           (s1.spareLeft 0 cluster = true → (∃ d ∈ s1.hlt.due, d.phys = unit) → ends { s1 with hlt := { s1.hlt with
             due := s1.hlt.due.map fun d => if d.phys = unit then ⟨unit, true, s1.raw, none, d.failed⟩ else d } } .pending 0)) ∧
         (kind = 1 → let e := unit / 256
           let lane := unit % 256
           let good := e < 4 ∧ lane < 72 ∧ s1.laneInService e lane = true ∧ State.laneFaults s1 e / 2 ^ lane % 2 = 0
           (¬ good → ends s1 .badParam 4) ∧
           (good → s1.spareLeft 1 e = false → ends s1 .noSpare 0) ∧
           (good → s1.spareLeft 1 e = true → ends (s1.laneDue e lane) .pending 0)) ∧
         (kind = 7 → let good := unit < 3 ∧ (7, unit) ∉ s1.hlt.maps.units
           (¬ good → ends s1 .badParam 4) ∧
           (good → s1.spareLeft 7 0 = false → ends s1 .noSpare 0) ∧
           (good → s1.spareLeft 7 0 = true → ends (s1.birlithLaneDue unit) .pending 0)) ∧
         (kind = 6 → let a := addr / 256 * 256
           let feram := 0x3100000 ≤ addr ∧ addr < 0x3300000
           (¬ feram → ends s1 .badParam 8) ∧
           (feram → (6, a) ∈ s1.hlt.maps.units → ends s1 .badParam 4) ∧
           (feram → (6, a) ∉ s1.hlt.maps.units → s1.spareLeft 6 0 = false → ends s1 .noSpare 0) ∧
           (feram → (6, a) ∉ s1.hlt.maps.units → s1.spareLeft 6 0 = true → ends (s1.spared 6 0 a) .pending 0)) ∧
         (2 ≤ kind → kind ≤ 5 →
           ((∀ g, rowGroup addr ≠ some (kind, g)) → ends s1 .badParam 8) ∧
           ∀ g, rowGroup addr = some (kind, g) →
             ((kind, addr / 1024 * 1024) ∈ s1.hlt.maps.units → ends s1 .badParam 4) ∧
             ((kind, addr / 1024 * 1024) ∉ s1.hlt.maps.units → s1.spareLeft kind g = false → ends s1 .noSpare 0) ∧
             ((kind, addr / 1024 * 1024) ∉ s1.hlt.maps.units → s1.spareLeft kind g = true →
               ends (s1.rowDue addr) .pending 0)))) ∧
     (Passes Op.HLT_PERF_CONFIG id c s s1 →
       let first := c.p 0 4
       let n := c.p 4 4
       let sel (j : Nat) : Word := BitVec.ofNat 32 (c.p (8 + 4 * j) 4)
       let good (j : Nat) := first + j < 64 ∧ State.selectionOk (sel j) = true
       ((n = 0 ∨ 64 < n) → Answers (.hltPerfConfig id) id s (s1, .done .badParam 4 0 [])) ∧
       (0 < n → n ≤ 64 → c.len ≠ 8 + 4 * n →
         Answers (.hltPerfConfig id) id s (s1, .done .badLength (8 + 4 * n) (8 + 4 * n) [])) ∧
       (0 < n → n ≤ 64 → c.len = 8 + 4 * n →
         (∀ j < n, ¬ good j → (∀ i < j, good i) →
           Answers (.hltPerfConfig id) id s (s1, .done .counterInvalid ((first + j) % 65536) 0 [])) ∧
         ((∀ j < n, good j) → ∃ u, Answers (.hltPerfConfig id) id s (u, .done .ok 0 0 []) ∧ SameMemory s1 u ∧
           (∀ j < n, u.reg (R.HLT_PERF_SEL (first + j)) = sel j ∧
             (s1.reg (R.HLT_PERF_SEL (first + j)) ≠ sel j → nth 0 u.hlt.perf (first + j) = 0)) ∧
           ∀ i < 64, (i < first ∨ first + n ≤ i) → u.reg (R.HLT_PERF_SEL i) = s1.reg (R.HLT_PERF_SEL i) ∧
             nth 0 u.hlt.perf i = nth 0 s1.perfSync.hlt.perf i))) ∧
     (Passes Op.HLT_PERF_READ id c s s1 →
       let first := c.p 0 4
       let n := c.p 4 4
       let ovf (i : Nat) : Bool := if i < 32 then s1.regBit R.HLT_PERF_OVF_LO i else s1.regBit R.HLT_PERF_OVF_HI (i - 32)
       let shown (i : Nat) : List Byte := leBytes 8 (nth 0 s1.hlt.perf (first + i) + if ovf (first + i) then 2 ^ 63 else 0)
       ((n = 0 ∨ 64 < n) → Answers (.hltPerfRead id) id s (s1, .done .badParam 4 0 [])) ∧
       (0 < n → n ≤ 64 → 64 < first + n →
         Answers (.hltPerfRead id) id s (s1, .done .counterInvalid (min 65535 (max first 64)) 0 [])) ∧
       (0 < n → first + n ≤ 64 → c.replyLen < 12 + 8 * n →
         Answers (.hltPerfRead id) id s (s1, .done .badLength (12 + 8 * n) 0 [])) ∧
       (0 < n → first + n ≤ 64 → 12 + 8 * n ≤ c.replyLen →
         (s1.perfRuns = false → Answers (.hltPerfRead id) id s ({ s1 with hlt := { s1.hlt with perfAt := s1.raw } },
           .done .ok (12 + 8 * n) 0 (instantBytes s1.now ++ ((List.range n).map shown).flatten))) ∧
         ∃ u b, Answers (.hltPerfRead id) id s (u, .done .ok (12 + 8 * n) 0 (instantBytes s1.now ++ b)) ∧
           b.length = 8 * n ∧ SameRegs [R.HLT_PERF_OVF_LO, R.HLT_PERF_OVF_HI] s1 u ∧ SameMemory s1 u)) ∧
     (Passes Op.HLT_BANDWIDTH id c s s1 →
       let x := s1.hlt.bwHeld
       let port (p : Nat) : List Byte := leBytes 8 (s1.reg64 (R.HLT_BW_RX_LO p) (R.HLT_BW_RX_HI p)) ++
         leBytes 8 (s1.reg64 (R.HLT_BW_TX_LO p) (R.HLT_BW_TX_HI p))
       Answers (.hltBandwidth id) id s (s1, replyOr c (instantBytes (usToUnits (1000 * x.1 * x.2)) ++ leBytes 4 x.2 ++
         ((List.range 21).map port).flatten)))) ∧
  (∀ s : State,
     (∀ i : Fin 64,
       let ev := s.regField (R.HLT_PERF_SEL i) 7 0
       let free := ev ∉ [0, 1, 0x10, 0x16, 0x50, 0x60] ∧ s.regBit (R.HLT_PERF_SEL i) 13 = false ∧ s.perfRuns = true
       (¬ free → exec (.perfCounterWrap i) s = .next s.perfSync) ∧
       (free → nth 0 s.hlt.perf i < 2 ^ 48 → ∃ t, exec (.perfCounterWrap i) s = .next t ∧ nth 0 t.hlt.perf i = 0 ∧
         ((i.val = 63 ∨ s.regBit (R.HLT_PERF_SEL (i + 1)) 13 = false) →
           (if i.val < 32 then t.regBit R.HLT_PERF_OVF_LO i else t.regBit R.HLT_PERF_OVF_HI (i - 32)) = true) ∧
         SameRegs [R.HLT_PERF_OVF_LO, R.HLT_PERF_OVF_HI] s t ∧ SameMemory s t)) ∧
     (s.perfRuns = false → s.perfSync = { s with hlt := { s.hlt with perfAt := s.raw } }) ∧
     (let index := s.now * 1000 / (max 1 s.hlt.bwLen * 2 ^ 32)
      (index ≤ s.hlt.bwIx → exec .bandwidthWindowEnd s = .next s) ∧
      (s.hlt.bwIx < index → ∃ t, exec .bandwidthWindowEnd s = .next t ∧ t.hlt.bwHeld = (s.hlt.bwIx, s.hlt.bwLen) ∧
        (∀ p < 21, t.reg64 (R.HLT_BW_RX_LO p) (R.HLT_BW_RX_HI p) =
            (if s.hlt.bwPartial then 0 else nth 0 s.hlt.bwRx p) % 2 ^ 64 ∧
          t.reg64 (R.HLT_BW_TX_LO p) (R.HLT_BW_TX_HI p) = (if s.hlt.bwPartial then 0 else nth 0 s.hlt.bwTx p) % 2 ^ 64) ∧
        t.regField R.HLT_BW_SEQ 30 0 = (s.regField R.HLT_BW_SEQ 30 0 + 1) % 2 ^ 31 ∧
        t.regBit R.HLT_BW_SEQ 31 = s.hlt.bwPartial ∧ t.hlt.bwRx = List.replicate 21 0 ∧ t.hlt.bwTx = List.replicate 21 0 ∧
        t.hlt.bwLen = max 1 (s.reg R.HLT_BW_WINDOW).toNat ∧ t.hlt.bwPartial = !s.domOn 6 ∧ SameMemory s t)))

/-- R27, R587 to R592, R593 to R597, R596, R600, R601: Sensors are published every 100 ms with their extremes, and a
core that reaches its limit is due to retire; equivalent time runs at the acceleration of the hottest junction, each
second; the ledger is written each hour; a failed self-test retires a spare or makes a core due. The spare takes over
a core in a gap between its cycles, or the attempt waits 60 s; a due row goes to a spare of its group; a scrub pass
counts what it corrects and poisons what it cannot. A flipped bit of a protected word is a single-bit error, a second
one in the same word an uncorrectable error; an access corrects and counts the single-bit errors that it meets; a word
that is written is good again. The model's choices it rests on: log entries 10, 12, 129, 139, 159. -/
def Obligations.SensorsSparesAndScrubbing : Prop :=
  (∀ s : State,
     (∀ v : List Int,
       (s.raw < s.hlt.sampleRaw + 25000000 → exec (.sensorSample v) s = .next s) ∧
       (s.hlt.sampleRaw + 25000000 ≤ s.raw → ∃ t, exec (.sensorSample v) s = .next t ∧ t.hlt.sampleRaw = s.raw ∧
         SameMemory s t ∧
         (∀ n < 32, let x := nth 0 v n
           let old := s.regField (R.HLT_SENSOR_LO n) 31 16
           let seen := t.regField (R.HLT_SENSOR_LO n) 31 16
           (t.reg (R.HLT_SENSOR_HI n)).toNat = s.nowSec % 2 ^ 32 ∧
           (s.sensorOn n = false → t.regField (R.HLT_SENSOR_LO n) 15 0 = 0x8000 ∧ seen = old) ∧
           (s.sensorOn n = true → t.regField (R.HLT_SENSOR_LO n) 15 0 = ofSigned 16 x ∧
             (n ≠ 31 → seen = ofSigned 16 (max (toSigned 16 old) x)) ∧ (n = 31 → seen = old ∨ seen = ofSigned 16 x))) ∧
         ∀ n < 18, s.sensorOn n = true → ((s.reg R.HLT_CORE_RETIRE).toNat : Int) ≤ nth 0 v n →
           n ∉ s.hlt.maps.retired → n ∉ s.hlt.noSpare → s.logicalOf n ≠ none → s.spareLeft 0 (coreCluster n) = true →
           ∃ d ∈ t.hlt.due, d.phys = n)) ∧
     (s.raw < s.hlt.tickRaw + 250000000 → exec .equivTimeTick s = .next s) ∧
     (s.hlt.tickRaw + 250000000 ≤ s.raw →
       let l := { s.hlt.ledger with equiv := s.hlt.ledger.equiv + Config.accel s.hottest, powered := s.hlt.ledger.powered + 1 }
       let u := State.hltShow { s with hlt := { s.hlt with ledger := l, tickRaw := s.hlt.tickRaw + 250000000 } }
       let new := (u.reg R.HLT_LIFE_USED).toNat
       exec .equivTimeTick s = .next (if (s.reg R.HLT_LIFE_USED).toNat / 500 < new / 500 then
         u.raise srcSup Ev.HLT_LEDGER new 0 else u)) ∧
     (let u := s.hltShow
      let sec := s.hlt.ledger.equiv / 2 ^ 32
      (u.reg R.HLT_LIFE_USED).toNat = min 65535 (sec * 10000 / 946728000) ∧
        u.reg R.HLT_POWER_HOURS = BitVec.ofNat 32 (s.hlt.ledger.powered / 3600) ∧
        u.reg64 R.HLT_EQUIV_S_LO R.HLT_EQUIV_S_HI = sec % 2 ^ 64 ∧ u.hlt = s.hlt ∧ SameMemory s u ∧
        ∀ k < 8, let g := nth [] s.hlt.maps.used k
          u.reg (R.HLT_SPARES k) = BitVec.ofNat 32 (sparesBuilt k * g.length + 2 ^ 9 * g.foldl (· + ·) 0 +
            2 ^ 18 * g.countP fun x => decide (sparesBuilt k ≤ x))) ∧
     (s.raw < s.hlt.ledgerRaw + 900000000000 → exec .ledgerWrite s = .next s) ∧
     (s.hlt.ledgerRaw + 900000000000 ≤ s.raw → ∃ t, exec .ledgerWrite s = .next t ∧ t.hlt = { s.hlt with
       ledger := { s.hlt.ledger with written := s.nowSec }, ledgerRaw := s.raw } ∧ t.nvNext.ledger = t.hlt.ledger ∧
       t.nvNext.maps = t.hlt.maps ∧ (t.nv = if s.pwr.feramHold then s.nv else t.nvNext) ∧ SameRegs [] s t ∧ SameMemory s t) ∧
     (∀ (phys : Fin 18) (pass : Bool), let c := coreCluster phys
       let lost := pass = false ∧ (phys.val = 8 ∨ phys.val = 17) ∧ phys.val ∉ s.hlt.maps.retired
       (s.logicalOf phys ≠ none → exec (.spareSelfTest phys pass) s =
         .next (if s.phase < 5 ∧ pass = false then s.retireDue phys 3 else s)) ∧
       (s.logicalOf phys = none → ¬ lost → exec (.spareSelfTest phys pass) s = .next s) ∧
       (s.logicalOf phys = none → lost → c < (nth [] s.hlt.maps.used 0).length → ∃ t,
         exec (.spareSelfTest phys pass) s = .next t ∧ t.hlt.maps.retired = phys.val :: s.hlt.maps.retired ∧
         t.spareUsed 0 c = s.spareUsed 0 c + 1 ∧ t.nvNext.maps = t.hlt.maps ∧ t.cores = s.cores ∧ SameMemory s t)) ∧
     (∀ phys cause : Nat, let gone := phys ∈ s.hlt.maps.retired ∨ s.logicalOf phys = none
       let waits := ∃ d ∈ s.hlt.due, d.phys = phys
       let known := gone ∨ waits ∨ phys ∈ s.hlt.noSpare
       let u := s.raise srcSup Ev.HLT_RETIRE_DUE phys cause
       let c := coreCluster phys
       ((gone ∨ ¬ waits ∧ phys ∈ s.hlt.noSpare ∧ cause ≠ 3) → s.retireDue phys cause = s) ∧
       (¬ gone → waits → s.retireDue phys cause = { s with hlt := { s.hlt with
         due := s.hlt.due.map fun d => if d.phys = phys then { d with failed := d.failed || cause == 3 } else d } }) ∧
       (¬ gone → ¬ waits → phys ∈ s.hlt.noSpare → ∀ l, s.logicalOf phys = some l → l ∈ (s.retireDue phys 3).hlt.dead) ∧
       (¬ known → s.spareLeft 0 c = true → s.retireDue phys cause =
         { u with hlt := { u.hlt with due := u.hlt.due ++ [⟨phys, false, s.raw, none, cause == 3⟩] } }) ∧
       (¬ known → ∀ l, s.logicalOf phys = some l → s.spareLeft 0 c = false →
         let dead := if cause = 3 then l :: u.hlt.dead else u.hlt.dead
         s.retireDue phys cause = State.raise srcSup Ev.HLT_NO_SPARE (0x100 * c) phys
           { u with hlt := { u.hlt with noSpare := phys :: u.hlt.noSpare, dead := dead } }))) ∧
  (∀ s : State,
     (∀ l : Fin 16,
       let due := s.hlt.due.find? fun d => d.phys == (s.core l).phys
       (due = none → exec (.coreBringIn l) s = .next s ∧ exec (.coreBringInWait l) s = .next s ∧
         exec (.coreBringInRetry l) s = .next s) ∧
       ∀ d, due = some d →
         let wanted := d.commanded = true ∨ s.regBit R.HLT_CTRL 1 = true
         let changing := s.changeState = 2 ∨ s.changeState = 3
         let gap := ∀ t < 32, s.lcore t = l.val → s.inside t = false
         let c := coreCluster d.phys
         let first := ∀ x ∈ s.hlt.due.takeWhile (· != d), coreCluster x.phys = c →
           x.retryAt ≠ none ∨ (x.commanded = false ∧ s.regBit R.HLT_CTRL 1 = false)
         let on := s.domOn (State.coreDomain l) = true
         let goes := wanted ∧ ¬ changing ∧ gap ∧ d.retryAt = none ∧ on ∧ first
         let waits := wanted ∧ ¬ changing ∧ d.retryAt = none ∧ d.since + 250000000 ≤ s.raw ∧ on
         let other (d' : CoreDue) : State := { s with hlt := { s.hlt with due := s.hlt.due.map fun x => if x = d then d' else x } }
         (¬ goes → exec (.coreBringIn l) s = .next s) ∧
         (goes → s.spareLeft 0 c = false →
           let dead := if d.failed then l.val :: s.hlt.dead else s.hlt.dead
           let stays := { s.hlt with due := s.hlt.due.filter (· != d), noSpare := d.phys :: s.hlt.noSpare, dead := dead }
           exec (.coreBringIn l) s = .next (State.raise srcSup Ev.HLT_NO_SPARE (0x100 * c) d.phys { s with hlt := stays })) ∧
         (goes → s.spareLeft 0 c = true → l.val < s.cores.length → c < (nth [] s.hlt.maps.used 0).length → ∃ t,
           exec (.coreBringIn l) s = .next t ∧ t.core l = CoreSt.empty (if c = 0 then 8 else 17) ∧ SameCores l s t ∧
           t.hlt.due = s.hlt.due.filter (· != d) ∧ t.hlt.maps.retired = d.phys :: s.hlt.maps.retired ∧
           t.spareUsed 0 c = s.spareUsed 0 c + 1 ∧ t.nvNext.maps = t.hlt.maps ∧ t.regBit R.CMD_NOTIFY_STATUS 5 = true ∧
           SameMemory s t) ∧
         (¬ waits → exec (.coreBringInWait l) s = .next s) ∧
         (waits → exec (.coreBringInWait l) s = .next ((other { d with retryAt := some (s.raw + 15000000000) }).raise srcSup
           Ev.HLT_BRING_IN_WAIT l 0)) ∧
         ((∀ t, d.retryAt = some t → s.raw < t) → exec (.coreBringInRetry l) s = .next s) ∧
         (∀ t, d.retryAt = some t → t ≤ s.raw →
           exec (.coreBringInRetry l) s = .next (other { d with retryAt := none, since := s.raw }))) ∧
     (s.hlt.rows = [] → exec .rowBringIn s = .next s) ∧
     (∀ r rest, s.hlt.rows = r :: rest → let u := { s with hlt := { s.hlt with rows := rest } }
       (r.kind = 5 → s.domOn (2 + r.group) = false → exec .rowBringIn s = .next s) ∧
       ((r.kind = 5 → s.domOn (2 + r.group) = true) → exec .rowBringIn s = .next (if s.spareLeft r.kind r.group then
         u.spared r.kind r.group r.addr else u.raise srcSup Ev.HLT_NO_SPARE (r.kind + 0x100 * r.group) r.addr))) ∧
     (∀ kind group unit : Nat, group < (nth [] s.hlt.maps.used kind).length → let t := s.spared kind group unit
       t.spareUsed kind group = s.spareUsed kind group + 1 ∧ t.hlt.maps.units = s.hlt.maps.units ++ [(kind, unit)] ∧
       t.nvNext.maps = t.hlt.maps ∧ t.nvNext.ledger = t.hlt.ledger ∧ t.regBit R.CMD_NOTIFY_STATUS 5 = true ∧ SameMemory s t) ∧
     (∀ (ddr : Bool) (corr uncorr : List Nat),
       let mine (a : Nat) : Bool := s.scrubs a && (eccMemory a == some 7) == ddr
       let word (a : Nat) : Nat := a / 8 * 8
       let bad := ((uncorr.map word ++ s.poison).filter mine).eraseDups
       let good := ((corr.map word ++ s.weak).filter fun a => mine a && !bad.contains a).eraseDups
       let hits (m : Nat) (l : List Nat) := l.countP fun a => eccMemory a == some m
       ∃ t, exec (.scrubPass ddr corr uncorr) s = .next t ∧ SameMemory s t ∧
         (∀ m < 8, (t.reg (R.HLT_ECC_CORR m)).toNat = min (2 ^ 32 - 1) ((s.reg (R.HLT_ECC_CORR m)).toNat + hits m good) ∧
           (t.reg (R.HLT_ECC_UNCORR m)).toNat = min (2 ^ 32 - 1) ((s.reg (R.HLT_ECC_UNCORR m)).toNat + hits m bad)) ∧
         (ddr = false → ∀ a ∈ good, a ∈ s.hlt.scrubbed → ∀ k g, rowGroup a = some (k, g) →
           (k, a / 1024 * 1024) ∉ s.hlt.maps.units → ∃ r ∈ t.hlt.rows, r.kind = k ∧ r.addr = a / 1024 * 1024) ∧
         (∀ x, x ∈ t.poison ↔ x ∈ s.poison ∨ x ∈ bad) ∧ t.weak = s.weak.filter (fun a => !mine a) ∧
         (t.reg R.HLT_SCRUB_PASSES).toNat =
           min (2 ^ 32 - 1) ((s.reg R.HLT_SCRUB_PASSES).toNat + if ddr then 0 else 1))) ∧
  (∀ (s : State) (addr : Nat), let w := addr / 8 * 8
     (eccMemory addr = none → s.upset addr = s) ∧
     (eccMemory addr ≠ none →
       (s.poisoned addr = true → s.upset addr = s) ∧
       (s.poisoned addr = false → s.weakAt addr = true →
         s.upset addr = { s with weak := s.weak.filter (· != w), poison := w :: s.poison }) ∧
       (s.poisoned addr = false → s.weakAt addr = false → s.upset addr = { s with weak := w :: s.weak })) ∧
     (∀ m < 8, eccMemory w = some m → s.weak = [w] → ∀ n, 0 < n → let t := s.eccMeet addr n
       t.weak = [] ∧ t.poison = s.poison ∧ SameMemory s t ∧
         (t.reg (R.HLT_ECC_CORR m)).toNat = min (2 ^ 32 - 1) ((s.reg (R.HLT_ECC_CORR m)).toNat + 1)) ∧
     (∀ b : Byte, let t := s.setByte addr b
       t.poisoned addr = false ∧ t.weakAt addr = false ∧
         ∀ a, a / 8 ≠ addr / 8 → t.poisoned a = s.poisoned a ∧ t.weakAt a = s.weakAt a))
end

