-- ==== Sys2Proof/Laws/Tables.lean ====
section
/-! SUPPORT. Laws of the tables in canonical form: what a write changes, and that writes and filters keep the form. -/

namespace Sys2Proof.Machine

section Tables

variable {α : Type}

theorem tget_nil (k : Nat) : tget ([] : List (Nat × α)) k = none := rfl

theorem tget_cons (k : Nat) (v : α) (t : List (Nat × α)) (x : Nat) :
    tget ((k, v) :: t) x = if x = k then some v else tget t x := rfl

theorem tget_tput_ne {k a : Nat} (h : k ≠ a) (v : α) (t : List (Nat × α)) : tget (tput t a v) k = tget t k := by
  induction t with
  | nil => simp [tput, tget, h]
  | cons x t ih =>
    obtain ⟨b, w⟩ := x
    simp only [tput]
    split
    · simp [tget, h]
    · split
      · subst_vars; simp [tget, h]
      · simp [tget, ih]

theorem tget_tput_self (a : Nat) (v : α) (t : List (Nat × α)) : tget (tput t a v) a = some v := by
  induction t with
  | nil => simp [tput, tget]
  | cons x t ih =>
    obtain ⟨b, w⟩ := x
    simp only [tput]
    split
    · simp [tget]
    · split
      · subst_vars; simp [tget]
      · rename_i h; simp [tget, h, ih]

theorem tget_tdel_ne {k a : Nat} (h : k ≠ a) (t : List (Nat × α)) : tget (tdel t a) k = tget t k := by
  induction t with
  | nil => rfl
  | cons x t ih =>
    obtain ⟨b, w⟩ := x
    simp only [tdel]
    split
    · subst_vars; simp [tget, h, ih]
    · simp [tget, ih]

variable [DecidableEq α] {d : Nat → α}

theorem cget_cput_ne {k a : Nat} (h : k ≠ a) (v : α) (t : List (Nat × α)) : cget d (cput d t a v) k = cget d t k := by
  unfold cget cput
  split
  · rw [tget_tdel_ne h]
  · rw [tget_tput_ne h]

/-- The canonical form in words: the keys rise strictly and no entry holds the default. -/
theorem tcanon_iff (t : List (Nat × α)) :
    tcanon d t = true ↔ t.Pairwise (fun x y => x.1 < y.1) ∧ ∀ x ∈ t, x.2 ≠ d x.1 := by
  induction t with
  | nil => simp [tcanon]
  | cons x t ih =>
    obtain ⟨k, v⟩ := x
    cases t with
    | nil => simp [tcanon]
    | cons y t =>
      obtain ⟨k', v'⟩ := y
      simp only [tcanon, Bool.and_eq_true, decide_eq_true_eq, ih]
      constructor
      · rintro ⟨⟨h1, h2⟩, h3, h4⟩
        refine ⟨List.pairwise_cons.2 ⟨?_, h3⟩, ?_⟩
        · intro z hz
          rcases List.mem_cons.1 hz with rfl | hz
          · exact h2
          · exact Nat.lt_trans h2 ((List.pairwise_cons.1 h3).1 z hz)
        · intro z hz
          rcases List.mem_cons.1 hz with rfl | hz
          · exact h1
          · exact h4 z hz
      · rintro ⟨h1, h2⟩
        obtain ⟨h3, h4⟩ := List.pairwise_cons.1 h1
        exact ⟨⟨h2 _ (List.mem_cons_self ..), h3 _ (List.mem_cons_self ..)⟩, h4,
          fun z hz => h2 z (List.mem_cons_of_mem _ hz)⟩

theorem tcanon_filter {t : List (Nat × α)} (p : Nat × α → Bool) (h : tcanon d t = true) :
    tcanon d (t.filter p) = true := by
  rw [tcanon_iff] at *
  exact ⟨h.1.filter p, fun x hx => h.2 x (List.mem_filter.1 hx).1⟩

omit [DecidableEq α] in
theorem mem_tdel {t : List (Nat × α)} {a : Nat} {x : Nat × α} (h : x ∈ tdel t a) : x ∈ t := by
  induction t with
  | nil => exact h
  | cons y t ih =>
    obtain ⟨b, w⟩ := y
    simp only [tdel] at h
    split at h
    · exact List.mem_cons_of_mem _ (ih h)
    · rcases List.mem_cons.1 h with rfl | h
      · exact List.mem_cons_self ..
      · exact List.mem_cons_of_mem _ (ih h)

theorem tcanon_tdel {t : List (Nat × α)} (a : Nat) (h : tcanon d t = true) : tcanon d (tdel t a) = true := by
  rw [tcanon_iff] at *
  refine ⟨?_, fun x hx => h.2 x (mem_tdel hx)⟩
  obtain ⟨h, -⟩ := h
  induction t with
  | nil => exact h
  | cons y t ih =>
    obtain ⟨b, w⟩ := y
    obtain ⟨h1, h2⟩ := List.pairwise_cons.1 h
    simp only [tdel]
    split
    · exact ih h2
    · exact List.pairwise_cons.2 ⟨fun z hz => h1 z (mem_tdel hz), ih h2⟩

omit [DecidableEq α] in
theorem mem_tput {t : List (Nat × α)} {a : Nat} {v : α} {x : Nat × α} (h : x ∈ tput t a v) : x = (a, v) ∨ x ∈ t := by
  induction t with
  | nil => simpa [tput] using h
  | cons y t ih =>
    obtain ⟨b, w⟩ := y
    simp only [tput] at h
    split at h
    · rcases List.mem_cons.1 h with rfl | h
      · exact .inl rfl
      · exact .inr h
    · split at h
      · subst_vars
        rcases List.mem_cons.1 h with rfl | h
        · exact .inl rfl
        · exact .inr (List.mem_cons_of_mem _ h)
      · rcases List.mem_cons.1 h with rfl | h
        · exact .inr (List.mem_cons_self ..)
        · rcases ih h with rfl | h
          · exact .inl rfl
          · exact .inr (List.mem_cons_of_mem _ h)

theorem tcanon_tput {t : List (Nat × α)} {a : Nat} {v : α} (hv : v ≠ d a) (h : tcanon d t = true) :
    tcanon d (tput t a v) = true := by
  rw [tcanon_iff] at *
  refine ⟨?_, fun x hx => ?_⟩
  · obtain ⟨h, -⟩ := h
    induction t with
    | nil => simp [tput]
    | cons y t ih =>
      obtain ⟨b, w⟩ := y
      obtain ⟨h1, h2⟩ := List.pairwise_cons.1 h
      simp only [tput]
      split
      · refine List.pairwise_cons.2 ⟨fun z hz => ?_, h⟩
        rcases List.mem_cons.1 hz with rfl | hz
        · assumption
        · exact Nat.lt_trans ‹a < b› (h1 z hz)
      · split
        · exact List.pairwise_cons.2 ⟨h1, h2⟩
        · refine List.pairwise_cons.2 ⟨fun z hz => ?_, ih h2⟩
          rcases mem_tput hz with rfl | hz
          · exact Nat.lt_of_le_of_ne (Nat.le_of_not_lt ‹¬a < b›) (fun e => ‹¬a = b› e.symm)
          · exact h1 z hz
  · rcases mem_tput hx with rfl | hx
    · exact hv
    · exact h.2 x hx

/-- A write keeps the canonical form. -/
theorem tcanon_cput {t : List (Nat × α)} (a : Nat) (v : α) (h : tcanon d t = true) : tcanon d (cput d t a v) = true := by
  unfold cput
  split
  · exact tcanon_tdel a h
  · exact tcanon_tput ‹_› h

omit [DecidableEq α] in
theorem tget_tdel_self (a : Nat) (t : List (Nat × α)) : tget (tdel t a) a = none := by
  induction t with
  | nil => rfl
  | cons y t ih =>
    obtain ⟨b, w⟩ := y
    simp only [tdel]
    split
    · exact ih
    · rename_i hne; rw [tget_cons, if_neg hne, ih]

/-- A table reads back what was written. -/
theorem cget_cput_self (a : Nat) (v : α) (t : List (Nat × α)) : cget d (cput d t a v) a = v := by
  unfold cget cput
  split
  · rw [tget_tdel_self]; simp [*]
  · rw [tget_tput_self]; rfl

end Tables

end Sys2Proof.Machine
end

