-- ==== Sys2Proof/Laws/State.lean ====
section
/-! SUPPORT. What each basic update of State leaves: one lemma per field and update, so that no proof unfolds a record
update. -/

namespace Sys2Proof.Machine

variable (s : State)

@[simp] theorem State.setReg_pending (a : Nat) (v : Word) : (s.setReg a v).pending = s.pending := rfl
@[simp] theorem State.setReg_mem (a : Nat) (v : Word) : (s.setReg a v).mem = s.mem := rfl
@[simp] theorem State.setReg_poison (a : Nat) (v : Word) : (s.setReg a v).poison = s.poison := rfl
@[simp] theorem State.setReg_weak (a : Nat) (v : Word) : (s.setReg a v).weak = s.weak := rfl
@[simp] theorem State.setReg_flash (a : Nat) (v : Word) : (s.setReg a v).flash = s.flash := rfl
@[simp] theorem State.setReg_descArea (a : Nat) (v : Word) : (s.setReg a v).descArea = s.descArea := rfl
@[simp] theorem State.setReg_out (a : Nat) (v : Word) : (s.setReg a v).out = s.out := rfl
@[simp] theorem State.setReg_draws (a : Nat) (v : Word) : (s.setReg a v).draws = s.draws := rfl
@[simp] theorem State.setReg_host (a : Nat) (v : Word) : (s.setReg a v).host = s.host := rfl
@[simp] theorem State.setReg_evr (a : Nat) (v : Word) : (s.setReg a v).evr = s.evr := rfl
@[simp] theorem State.setReg_pwr (a : Nat) (v : Word) : (s.setReg a v).pwr = s.pwr := rfl
@[simp] theorem State.setReg_xing (a : Nat) (v : Word) : (s.setReg a v).xing = s.xing := rfl
@[simp] theorem State.setReg_net (a : Nat) (v : Word) : (s.setReg a v).net = s.net := rfl
@[simp] theorem State.setReg_time (a : Nat) (v : Word) : (s.setReg a v).time = s.time := rfl
@[simp] theorem State.setReg_rtc (a : Nat) (v : Word) : (s.setReg a v).rtc = s.rtc := rfl
@[simp] theorem State.setReg_key (a : Nat) (v : Word) : (s.setReg a v).key = s.key := rfl
@[simp] theorem State.setReg_cores (a : Nat) (v : Word) : (s.setReg a v).cores = s.cores := rfl
@[simp] theorem State.setReg_cyc (a : Nat) (v : Word) : (s.setReg a v).cyc = s.cyc := rfl
@[simp] theorem State.setReg_stn (a : Nat) (v : Word) : (s.setReg a v).stn = s.stn := rfl
@[simp] theorem State.setReg_met (a : Nat) (v : Word) : (s.setReg a v).met = s.met := rfl
@[simp] theorem State.setReg_solv (a : Nat) (v : Word) : (s.setReg a v).solv = s.solv := rfl
@[simp] theorem State.setReg_can (a : Nat) (v : Word) : (s.setReg a v).can = s.can := rfl
@[simp] theorem State.setReg_red (a : Nat) (v : Word) : (s.setReg a v).red = s.red := rfl
@[simp] theorem State.setReg_hlt (a : Nat) (v : Word) : (s.setReg a v).hlt = s.hlt := rfl
@[simp] theorem State.setReg_nv (a : Nat) (v : Word) : (s.setReg a v).nv = s.nv := rfl
@[simp] theorem State.setReg_nvNext (a : Nat) (v : Word) : (s.setReg a v).nvNext = s.nvNext := rfl

@[simp] theorem State.setByte_pending (a : Nat) (b : Byte) : (s.setByte a b).pending = s.pending := rfl
@[simp] theorem State.setByte_regs (a : Nat) (b : Byte) : (s.setByte a b).regs = s.regs := rfl
@[simp] theorem State.setByte_flash (a : Nat) (b : Byte) : (s.setByte a b).flash = s.flash := rfl
@[simp] theorem State.setByte_descArea (a : Nat) (b : Byte) : (s.setByte a b).descArea = s.descArea := rfl
@[simp] theorem State.setByte_out (a : Nat) (b : Byte) : (s.setByte a b).out = s.out := rfl
@[simp] theorem State.setByte_draws (a : Nat) (b : Byte) : (s.setByte a b).draws = s.draws := rfl
@[simp] theorem State.setByte_host (a : Nat) (b : Byte) : (s.setByte a b).host = s.host := rfl
@[simp] theorem State.setByte_evr (a : Nat) (b : Byte) : (s.setByte a b).evr = s.evr := rfl
@[simp] theorem State.setByte_pwr (a : Nat) (b : Byte) : (s.setByte a b).pwr = s.pwr := rfl
@[simp] theorem State.setByte_xing (a : Nat) (b : Byte) : (s.setByte a b).xing = s.xing := rfl
@[simp] theorem State.setByte_net (a : Nat) (b : Byte) : (s.setByte a b).net = s.net := rfl
@[simp] theorem State.setByte_time (a : Nat) (b : Byte) : (s.setByte a b).time = s.time := rfl
@[simp] theorem State.setByte_rtc (a : Nat) (b : Byte) : (s.setByte a b).rtc = s.rtc := rfl
@[simp] theorem State.setByte_key (a : Nat) (b : Byte) : (s.setByte a b).key = s.key := rfl
@[simp] theorem State.setByte_cores (a : Nat) (b : Byte) : (s.setByte a b).cores = s.cores := rfl
@[simp] theorem State.setByte_cyc (a : Nat) (b : Byte) : (s.setByte a b).cyc = s.cyc := rfl
@[simp] theorem State.setByte_stn (a : Nat) (b : Byte) : (s.setByte a b).stn = s.stn := rfl
@[simp] theorem State.setByte_met (a : Nat) (b : Byte) : (s.setByte a b).met = s.met := rfl
@[simp] theorem State.setByte_solv (a : Nat) (b : Byte) : (s.setByte a b).solv = s.solv := rfl
@[simp] theorem State.setByte_can (a : Nat) (b : Byte) : (s.setByte a b).can = s.can := rfl
@[simp] theorem State.setByte_hlt (a : Nat) (b : Byte) : (s.setByte a b).hlt = s.hlt := rfl
@[simp] theorem State.setByte_nv (a : Nat) (b : Byte) : (s.setByte a b).nv = s.nv := rfl
@[simp] theorem State.setByte_nvNext (a : Nat) (b : Byte) : (s.setByte a b).nvNext = s.nvNext := rfl

@[simp] theorem State.clearMem_pending (lo hi : Nat) : (s.clearMem lo hi).pending = s.pending := rfl
@[simp] theorem State.clearMem_regs (lo hi : Nat) : (s.clearMem lo hi).regs = s.regs := rfl
@[simp] theorem State.clearMem_flash (lo hi : Nat) : (s.clearMem lo hi).flash = s.flash := rfl
@[simp] theorem State.clearMem_descArea (lo hi : Nat) : (s.clearMem lo hi).descArea = s.descArea := rfl
@[simp] theorem State.clearMem_out (lo hi : Nat) : (s.clearMem lo hi).out = s.out := rfl
@[simp] theorem State.clearMem_draws (lo hi : Nat) : (s.clearMem lo hi).draws = s.draws := rfl
@[simp] theorem State.clearMem_host (lo hi : Nat) : (s.clearMem lo hi).host = s.host := rfl
@[simp] theorem State.clearMem_evr (lo hi : Nat) : (s.clearMem lo hi).evr = s.evr := rfl
@[simp] theorem State.clearMem_pwr (lo hi : Nat) : (s.clearMem lo hi).pwr = s.pwr := rfl
@[simp] theorem State.clearMem_xing (lo hi : Nat) : (s.clearMem lo hi).xing = s.xing := rfl
@[simp] theorem State.clearMem_net (lo hi : Nat) : (s.clearMem lo hi).net = s.net := rfl
@[simp] theorem State.clearMem_time (lo hi : Nat) : (s.clearMem lo hi).time = s.time := rfl
@[simp] theorem State.clearMem_rtc (lo hi : Nat) : (s.clearMem lo hi).rtc = s.rtc := rfl
@[simp] theorem State.clearMem_key (lo hi : Nat) : (s.clearMem lo hi).key = s.key := rfl
@[simp] theorem State.clearMem_cores (lo hi : Nat) : (s.clearMem lo hi).cores = s.cores := rfl
@[simp] theorem State.clearMem_cyc (lo hi : Nat) : (s.clearMem lo hi).cyc = s.cyc := rfl
@[simp] theorem State.clearMem_stn (lo hi : Nat) : (s.clearMem lo hi).stn = s.stn := rfl
@[simp] theorem State.clearMem_met (lo hi : Nat) : (s.clearMem lo hi).met = s.met := rfl
@[simp] theorem State.clearMem_solv (lo hi : Nat) : (s.clearMem lo hi).solv = s.solv := rfl
@[simp] theorem State.clearMem_can (lo hi : Nat) : (s.clearMem lo hi).can = s.can := rfl
@[simp] theorem State.clearMem_red (lo hi : Nat) : (s.clearMem lo hi).red = s.red := rfl
@[simp] theorem State.clearMem_hlt (lo hi : Nat) : (s.clearMem lo hi).hlt = s.hlt := rfl
@[simp] theorem State.clearMem_nv (lo hi : Nat) : (s.clearMem lo hi).nv = s.nv := rfl
@[simp] theorem State.clearMem_nvNext (lo hi : Nat) : (s.clearMem lo hi).nvNext = s.nvNext := rfl

@[simp] theorem State.eraseFlash_pending (lo hi : Nat) : (s.eraseFlash lo hi).pending = s.pending := rfl
@[simp] theorem State.eraseFlash_regs (lo hi : Nat) : (s.eraseFlash lo hi).regs = s.regs := rfl
@[simp] theorem State.eraseFlash_mem (lo hi : Nat) : (s.eraseFlash lo hi).mem = s.mem := rfl
@[simp] theorem State.eraseFlash_poison (lo hi : Nat) : (s.eraseFlash lo hi).poison = s.poison := rfl
@[simp] theorem State.eraseFlash_weak (lo hi : Nat) : (s.eraseFlash lo hi).weak = s.weak := rfl
@[simp] theorem State.eraseFlash_descArea (lo hi : Nat) : (s.eraseFlash lo hi).descArea = s.descArea := rfl
@[simp] theorem State.eraseFlash_out (lo hi : Nat) : (s.eraseFlash lo hi).out = s.out := rfl
@[simp] theorem State.eraseFlash_draws (lo hi : Nat) : (s.eraseFlash lo hi).draws = s.draws := rfl
@[simp] theorem State.eraseFlash_host (lo hi : Nat) : (s.eraseFlash lo hi).host = s.host := rfl
@[simp] theorem State.eraseFlash_evr (lo hi : Nat) : (s.eraseFlash lo hi).evr = s.evr := rfl
@[simp] theorem State.eraseFlash_pwr (lo hi : Nat) : (s.eraseFlash lo hi).pwr = s.pwr := rfl
@[simp] theorem State.eraseFlash_xing (lo hi : Nat) : (s.eraseFlash lo hi).xing = s.xing := rfl
@[simp] theorem State.eraseFlash_net (lo hi : Nat) : (s.eraseFlash lo hi).net = s.net := rfl
@[simp] theorem State.eraseFlash_time (lo hi : Nat) : (s.eraseFlash lo hi).time = s.time := rfl
@[simp] theorem State.eraseFlash_rtc (lo hi : Nat) : (s.eraseFlash lo hi).rtc = s.rtc := rfl
@[simp] theorem State.eraseFlash_key (lo hi : Nat) : (s.eraseFlash lo hi).key = s.key := rfl
@[simp] theorem State.eraseFlash_cores (lo hi : Nat) : (s.eraseFlash lo hi).cores = s.cores := rfl
@[simp] theorem State.eraseFlash_cyc (lo hi : Nat) : (s.eraseFlash lo hi).cyc = s.cyc := rfl
@[simp] theorem State.eraseFlash_stn (lo hi : Nat) : (s.eraseFlash lo hi).stn = s.stn := rfl
@[simp] theorem State.eraseFlash_met (lo hi : Nat) : (s.eraseFlash lo hi).met = s.met := rfl
@[simp] theorem State.eraseFlash_solv (lo hi : Nat) : (s.eraseFlash lo hi).solv = s.solv := rfl
@[simp] theorem State.eraseFlash_can (lo hi : Nat) : (s.eraseFlash lo hi).can = s.can := rfl
@[simp] theorem State.eraseFlash_red (lo hi : Nat) : (s.eraseFlash lo hi).red = s.red := rfl
@[simp] theorem State.eraseFlash_hlt (lo hi : Nat) : (s.eraseFlash lo hi).hlt = s.hlt := rfl
@[simp] theorem State.eraseFlash_nv (lo hi : Nat) : (s.eraseFlash lo hi).nv = s.nv := rfl
@[simp] theorem State.eraseFlash_nvNext (lo hi : Nat) : (s.eraseFlash lo hi).nvNext = s.nvNext := rfl

@[simp] theorem State.emit_pending (o : Out) : (s.emit o).pending = s.pending := rfl
@[simp] theorem State.emit_regs (o : Out) : (s.emit o).regs = s.regs := rfl
@[simp] theorem State.emit_mem (o : Out) : (s.emit o).mem = s.mem := rfl
@[simp] theorem State.emit_poison (o : Out) : (s.emit o).poison = s.poison := rfl
@[simp] theorem State.emit_weak (o : Out) : (s.emit o).weak = s.weak := rfl
@[simp] theorem State.emit_flash (o : Out) : (s.emit o).flash = s.flash := rfl
@[simp] theorem State.emit_descArea (o : Out) : (s.emit o).descArea = s.descArea := rfl
@[simp] theorem State.emit_draws (o : Out) : (s.emit o).draws = s.draws := rfl
@[simp] theorem State.emit_host (o : Out) : (s.emit o).host = s.host := rfl
@[simp] theorem State.emit_evr (o : Out) : (s.emit o).evr = s.evr := rfl
@[simp] theorem State.emit_pwr (o : Out) : (s.emit o).pwr = s.pwr := rfl
@[simp] theorem State.emit_xing (o : Out) : (s.emit o).xing = s.xing := rfl
@[simp] theorem State.emit_net (o : Out) : (s.emit o).net = s.net := rfl
@[simp] theorem State.emit_time (o : Out) : (s.emit o).time = s.time := rfl
@[simp] theorem State.emit_rtc (o : Out) : (s.emit o).rtc = s.rtc := rfl
@[simp] theorem State.emit_key (o : Out) : (s.emit o).key = s.key := rfl
@[simp] theorem State.emit_cores (o : Out) : (s.emit o).cores = s.cores := rfl
@[simp] theorem State.emit_cyc (o : Out) : (s.emit o).cyc = s.cyc := rfl
@[simp] theorem State.emit_stn (o : Out) : (s.emit o).stn = s.stn := rfl
@[simp] theorem State.emit_met (o : Out) : (s.emit o).met = s.met := rfl
@[simp] theorem State.emit_solv (o : Out) : (s.emit o).solv = s.solv := rfl
@[simp] theorem State.emit_can (o : Out) : (s.emit o).can = s.can := rfl
@[simp] theorem State.emit_red (o : Out) : (s.emit o).red = s.red := rfl
@[simp] theorem State.emit_hlt (o : Out) : (s.emit o).hlt = s.hlt := rfl
@[simp] theorem State.emit_nv (o : Out) : (s.emit o).nv = s.nv := rfl
@[simp] theorem State.emit_nvNext (o : Out) : (s.emit o).nvNext = s.nvNext := rfl

@[simp] theorem State.tick_pending : (s.tick).pending = s.pending := rfl
@[simp] theorem State.tick_regs : (s.tick).regs = s.regs := rfl
@[simp] theorem State.tick_mem : (s.tick).mem = s.mem := rfl
@[simp] theorem State.tick_poison : (s.tick).poison = s.poison := rfl
@[simp] theorem State.tick_weak : (s.tick).weak = s.weak := rfl
@[simp] theorem State.tick_flash : (s.tick).flash = s.flash := rfl
@[simp] theorem State.tick_descArea : (s.tick).descArea = s.descArea := rfl
@[simp] theorem State.tick_out : (s.tick).out = s.out := rfl
@[simp] theorem State.tick_draws : (s.tick).draws = s.draws := rfl
@[simp] theorem State.tick_host : (s.tick).host = s.host := rfl
@[simp] theorem State.tick_evr : (s.tick).evr = s.evr := rfl
@[simp] theorem State.tick_pwr : (s.tick).pwr = s.pwr := rfl
@[simp] theorem State.tick_xing : (s.tick).xing = s.xing := rfl
@[simp] theorem State.tick_net : (s.tick).net = s.net := rfl
@[simp] theorem State.tick_rtc : (s.tick).rtc = s.rtc := rfl
@[simp] theorem State.tick_key : (s.tick).key = s.key := rfl
@[simp] theorem State.tick_cores : (s.tick).cores = s.cores := rfl
@[simp] theorem State.tick_cyc : (s.tick).cyc = s.cyc := rfl
@[simp] theorem State.tick_stn : (s.tick).stn = s.stn := rfl
@[simp] theorem State.tick_met : (s.tick).met = s.met := rfl
@[simp] theorem State.tick_solv : (s.tick).solv = s.solv := rfl
@[simp] theorem State.tick_can : (s.tick).can = s.can := rfl
@[simp] theorem State.tick_red : (s.tick).red = s.red := rfl
@[simp] theorem State.tick_hlt : (s.tick).hlt = s.hlt := rfl
@[simp] theorem State.tick_nv : (s.tick).nv = s.nv := rfl
@[simp] theorem State.tick_nvNext : (s.tick).nvNext = s.nvNext := rfl

@[simp] theorem State.setCore_pending (l : Nat) (c : CoreSt) : (s.setCore l c).pending = s.pending := rfl
@[simp] theorem State.setCore_regs (l : Nat) (c : CoreSt) : (s.setCore l c).regs = s.regs := rfl
@[simp] theorem State.setCore_mem (l : Nat) (c : CoreSt) : (s.setCore l c).mem = s.mem := rfl
@[simp] theorem State.setCore_poison (l : Nat) (c : CoreSt) : (s.setCore l c).poison = s.poison := rfl
@[simp] theorem State.setCore_weak (l : Nat) (c : CoreSt) : (s.setCore l c).weak = s.weak := rfl
@[simp] theorem State.setCore_flash (l : Nat) (c : CoreSt) : (s.setCore l c).flash = s.flash := rfl
@[simp] theorem State.setCore_descArea (l : Nat) (c : CoreSt) : (s.setCore l c).descArea = s.descArea := rfl
@[simp] theorem State.setCore_out (l : Nat) (c : CoreSt) : (s.setCore l c).out = s.out := rfl
@[simp] theorem State.setCore_draws (l : Nat) (c : CoreSt) : (s.setCore l c).draws = s.draws := rfl
@[simp] theorem State.setCore_host (l : Nat) (c : CoreSt) : (s.setCore l c).host = s.host := rfl
@[simp] theorem State.setCore_evr (l : Nat) (c : CoreSt) : (s.setCore l c).evr = s.evr := rfl
@[simp] theorem State.setCore_pwr (l : Nat) (c : CoreSt) : (s.setCore l c).pwr = s.pwr := rfl
@[simp] theorem State.setCore_xing (l : Nat) (c : CoreSt) : (s.setCore l c).xing = s.xing := rfl
@[simp] theorem State.setCore_net (l : Nat) (c : CoreSt) : (s.setCore l c).net = s.net := rfl
@[simp] theorem State.setCore_time (l : Nat) (c : CoreSt) : (s.setCore l c).time = s.time := rfl
@[simp] theorem State.setCore_rtc (l : Nat) (c : CoreSt) : (s.setCore l c).rtc = s.rtc := rfl
@[simp] theorem State.setCore_key (l : Nat) (c : CoreSt) : (s.setCore l c).key = s.key := rfl
@[simp] theorem State.setCore_cyc (l : Nat) (c : CoreSt) : (s.setCore l c).cyc = s.cyc := rfl
@[simp] theorem State.setCore_stn (l : Nat) (c : CoreSt) : (s.setCore l c).stn = s.stn := rfl
@[simp] theorem State.setCore_met (l : Nat) (c : CoreSt) : (s.setCore l c).met = s.met := rfl
@[simp] theorem State.setCore_solv (l : Nat) (c : CoreSt) : (s.setCore l c).solv = s.solv := rfl
@[simp] theorem State.setCore_can (l : Nat) (c : CoreSt) : (s.setCore l c).can = s.can := rfl
@[simp] theorem State.setCore_red (l : Nat) (c : CoreSt) : (s.setCore l c).red = s.red := rfl
@[simp] theorem State.setCore_hlt (l : Nat) (c : CoreSt) : (s.setCore l c).hlt = s.hlt := rfl
@[simp] theorem State.setCore_nv (l : Nat) (c : CoreSt) : (s.setCore l c).nv = s.nv := rfl
@[simp] theorem State.setCore_nvNext (l : Nat) (c : CoreSt) : (s.setCore l c).nvNext = s.nvNext := rfl

@[simp] theorem State.setTask_pending (t : Nat) (x : TaskSt) : (s.setTask t x).pending = s.pending := rfl
@[simp] theorem State.setTask_regs (t : Nat) (x : TaskSt) : (s.setTask t x).regs = s.regs := rfl
@[simp] theorem State.setTask_mem (t : Nat) (x : TaskSt) : (s.setTask t x).mem = s.mem := rfl
@[simp] theorem State.setTask_poison (t : Nat) (x : TaskSt) : (s.setTask t x).poison = s.poison := rfl
@[simp] theorem State.setTask_weak (t : Nat) (x : TaskSt) : (s.setTask t x).weak = s.weak := rfl
@[simp] theorem State.setTask_flash (t : Nat) (x : TaskSt) : (s.setTask t x).flash = s.flash := rfl
@[simp] theorem State.setTask_descArea (t : Nat) (x : TaskSt) : (s.setTask t x).descArea = s.descArea := rfl
@[simp] theorem State.setTask_out (t : Nat) (x : TaskSt) : (s.setTask t x).out = s.out := rfl
@[simp] theorem State.setTask_draws (t : Nat) (x : TaskSt) : (s.setTask t x).draws = s.draws := rfl
@[simp] theorem State.setTask_host (t : Nat) (x : TaskSt) : (s.setTask t x).host = s.host := rfl
@[simp] theorem State.setTask_evr (t : Nat) (x : TaskSt) : (s.setTask t x).evr = s.evr := rfl
@[simp] theorem State.setTask_pwr (t : Nat) (x : TaskSt) : (s.setTask t x).pwr = s.pwr := rfl
@[simp] theorem State.setTask_xing (t : Nat) (x : TaskSt) : (s.setTask t x).xing = s.xing := rfl
@[simp] theorem State.setTask_net (t : Nat) (x : TaskSt) : (s.setTask t x).net = s.net := rfl
@[simp] theorem State.setTask_time (t : Nat) (x : TaskSt) : (s.setTask t x).time = s.time := rfl
@[simp] theorem State.setTask_rtc (t : Nat) (x : TaskSt) : (s.setTask t x).rtc = s.rtc := rfl
@[simp] theorem State.setTask_key (t : Nat) (x : TaskSt) : (s.setTask t x).key = s.key := rfl
@[simp] theorem State.setTask_cores (t : Nat) (x : TaskSt) : (s.setTask t x).cores = s.cores := rfl
@[simp] theorem State.setTask_stn (t : Nat) (x : TaskSt) : (s.setTask t x).stn = s.stn := rfl
@[simp] theorem State.setTask_met (t : Nat) (x : TaskSt) : (s.setTask t x).met = s.met := rfl
@[simp] theorem State.setTask_solv (t : Nat) (x : TaskSt) : (s.setTask t x).solv = s.solv := rfl
@[simp] theorem State.setTask_can (t : Nat) (x : TaskSt) : (s.setTask t x).can = s.can := rfl
@[simp] theorem State.setTask_red (t : Nat) (x : TaskSt) : (s.setTask t x).red = s.red := rfl
@[simp] theorem State.setTask_hlt (t : Nat) (x : TaskSt) : (s.setTask t x).hlt = s.hlt := rfl
@[simp] theorem State.setTask_nv (t : Nat) (x : TaskSt) : (s.setTask t x).nv = s.nv := rfl
@[simp] theorem State.setTask_nvNext (t : Nat) (x : TaskSt) : (s.setTask t x).nvNext = s.nvNext := rfl

@[simp] theorem State.modPwr_pending (f : PwrSt → PwrSt) : (s.modPwr f).pending = s.pending := rfl
@[simp] theorem State.modPwr_regs (f : PwrSt → PwrSt) : (s.modPwr f).regs = s.regs := rfl
@[simp] theorem State.modPwr_mem (f : PwrSt → PwrSt) : (s.modPwr f).mem = s.mem := rfl
@[simp] theorem State.modPwr_poison (f : PwrSt → PwrSt) : (s.modPwr f).poison = s.poison := rfl
@[simp] theorem State.modPwr_weak (f : PwrSt → PwrSt) : (s.modPwr f).weak = s.weak := rfl
@[simp] theorem State.modPwr_flash (f : PwrSt → PwrSt) : (s.modPwr f).flash = s.flash := rfl
@[simp] theorem State.modPwr_descArea (f : PwrSt → PwrSt) : (s.modPwr f).descArea = s.descArea := rfl
@[simp] theorem State.modPwr_out (f : PwrSt → PwrSt) : (s.modPwr f).out = s.out := rfl
@[simp] theorem State.modPwr_draws (f : PwrSt → PwrSt) : (s.modPwr f).draws = s.draws := rfl
@[simp] theorem State.modPwr_host (f : PwrSt → PwrSt) : (s.modPwr f).host = s.host := rfl
@[simp] theorem State.modPwr_evr (f : PwrSt → PwrSt) : (s.modPwr f).evr = s.evr := rfl
@[simp] theorem State.modPwr_xing (f : PwrSt → PwrSt) : (s.modPwr f).xing = s.xing := rfl
@[simp] theorem State.modPwr_net (f : PwrSt → PwrSt) : (s.modPwr f).net = s.net := rfl
@[simp] theorem State.modPwr_time (f : PwrSt → PwrSt) : (s.modPwr f).time = s.time := rfl
@[simp] theorem State.modPwr_rtc (f : PwrSt → PwrSt) : (s.modPwr f).rtc = s.rtc := rfl
@[simp] theorem State.modPwr_key (f : PwrSt → PwrSt) : (s.modPwr f).key = s.key := rfl
@[simp] theorem State.modPwr_cores (f : PwrSt → PwrSt) : (s.modPwr f).cores = s.cores := rfl
@[simp] theorem State.modPwr_cyc (f : PwrSt → PwrSt) : (s.modPwr f).cyc = s.cyc := rfl
@[simp] theorem State.modPwr_stn (f : PwrSt → PwrSt) : (s.modPwr f).stn = s.stn := rfl
@[simp] theorem State.modPwr_met (f : PwrSt → PwrSt) : (s.modPwr f).met = s.met := rfl
@[simp] theorem State.modPwr_solv (f : PwrSt → PwrSt) : (s.modPwr f).solv = s.solv := rfl
@[simp] theorem State.modPwr_can (f : PwrSt → PwrSt) : (s.modPwr f).can = s.can := rfl
@[simp] theorem State.modPwr_red (f : PwrSt → PwrSt) : (s.modPwr f).red = s.red := rfl
@[simp] theorem State.modPwr_hlt (f : PwrSt → PwrSt) : (s.modPwr f).hlt = s.hlt := rfl
@[simp] theorem State.modPwr_nv (f : PwrSt → PwrSt) : (s.modPwr f).nv = s.nv := rfl
@[simp] theorem State.modPwr_nvNext (f : PwrSt → PwrSt) : (s.modPwr f).nvNext = s.nvNext := rfl

@[simp] theorem State.updNv_pending (f : Nv → Nv) : (s.updNv f).pending = s.pending := rfl
@[simp] theorem State.updNv_regs (f : Nv → Nv) : (s.updNv f).regs = s.regs := rfl
@[simp] theorem State.updNv_mem (f : Nv → Nv) : (s.updNv f).mem = s.mem := rfl
@[simp] theorem State.updNv_poison (f : Nv → Nv) : (s.updNv f).poison = s.poison := rfl
@[simp] theorem State.updNv_weak (f : Nv → Nv) : (s.updNv f).weak = s.weak := rfl
@[simp] theorem State.updNv_flash (f : Nv → Nv) : (s.updNv f).flash = s.flash := rfl
@[simp] theorem State.updNv_descArea (f : Nv → Nv) : (s.updNv f).descArea = s.descArea := rfl
@[simp] theorem State.updNv_out (f : Nv → Nv) : (s.updNv f).out = s.out := rfl
@[simp] theorem State.updNv_draws (f : Nv → Nv) : (s.updNv f).draws = s.draws := rfl
@[simp] theorem State.updNv_host (f : Nv → Nv) : (s.updNv f).host = s.host := rfl
@[simp] theorem State.updNv_evr (f : Nv → Nv) : (s.updNv f).evr = s.evr := rfl
@[simp] theorem State.updNv_pwr (f : Nv → Nv) : (s.updNv f).pwr = s.pwr := rfl
@[simp] theorem State.updNv_xing (f : Nv → Nv) : (s.updNv f).xing = s.xing := rfl
@[simp] theorem State.updNv_net (f : Nv → Nv) : (s.updNv f).net = s.net := rfl
@[simp] theorem State.updNv_time (f : Nv → Nv) : (s.updNv f).time = s.time := rfl
@[simp] theorem State.updNv_rtc (f : Nv → Nv) : (s.updNv f).rtc = s.rtc := rfl
@[simp] theorem State.updNv_key (f : Nv → Nv) : (s.updNv f).key = s.key := rfl
@[simp] theorem State.updNv_cores (f : Nv → Nv) : (s.updNv f).cores = s.cores := rfl
@[simp] theorem State.updNv_cyc (f : Nv → Nv) : (s.updNv f).cyc = s.cyc := rfl
@[simp] theorem State.updNv_stn (f : Nv → Nv) : (s.updNv f).stn = s.stn := rfl
@[simp] theorem State.updNv_met (f : Nv → Nv) : (s.updNv f).met = s.met := rfl
@[simp] theorem State.updNv_solv (f : Nv → Nv) : (s.updNv f).solv = s.solv := rfl
@[simp] theorem State.updNv_can (f : Nv → Nv) : (s.updNv f).can = s.can := rfl
@[simp] theorem State.updNv_red (f : Nv → Nv) : (s.updNv f).red = s.red := rfl
@[simp] theorem State.updNv_hlt (f : Nv → Nv) : (s.updNv f).hlt = s.hlt := rfl

theorem State.setReg_regs (a : Nat) (v : Word) : (s.setReg a v).regs = cput regReset s.regs a v := rfl
theorem State.setByte_mem (a : Nat) (b : Byte) : (s.setByte a b).mem = cput (fun _ => 0) s.mem a b := rfl
@[simp] theorem State.emit_out (o : Out) : (s.emit o).out = o :: s.out := rfl
@[simp] theorem State.tick_raw : s.tick.time.raw = s.time.raw + 1 := rfl
@[simp] theorem State.modPwr_pwr (f : PwrSt → PwrSt) : (s.modPwr f).pwr = f s.pwr := rfl
@[simp] theorem State.updNv_nvNext (f : Nv → Nv) : (s.updNv f).nvNext = f s.nvNext := rfl

/-- A register write leaves every other register. -/
theorem State.setReg_reg_ne {k a : Nat} (h : k ≠ a) (v : Word) : (s.setReg a v).reg k = s.reg k :=
  cget_cput_ne h v s.regs

/-- A byte write leaves every other byte. -/
theorem State.setByte_byteAt_ne {k a : Nat} (h : k ≠ a) (b : Byte) : (s.setByte a b).byteAt k = s.byteAt k :=
  cget_cput_ne h b s.mem

end Sys2Proof.Machine
end

