-- ==== Sys2Proof/Laws/Canonical.lean ====
section
/-! SUPPORT. Every operation over registers, memories and flash keeps the canonical form, and reads back what it wrote. -/

namespace Sys2Proof.Machine

namespace State

variable {s : State}

/-- Only the three tables decide the form. -/
theorem Canonical.of_eq {t : State} (h : s.Canonical) (hr : t.regs = s.regs) (hm : t.mem = s.mem)
    (hf : t.flash = s.flash) : t.Canonical := by
  unfold State.Canonical; rw [hr, hm, hf]; exact h

theorem Canonical.setReg (h : s.Canonical) (a : Nat) (v : Word) : (s.setReg a v).Canonical :=
  ⟨tcanon_cput a v h.1, h.2⟩

theorem Canonical.modReg (h : s.Canonical) (a : Nat) (f : Word → Word) : (s.modReg a f).Canonical := h.setReg ..

theorem Canonical.setRegField (h : s.Canonical) (a hi lo v : Nat) : (s.setRegField a hi lo v).Canonical := h.setReg ..

theorem Canonical.setRegBit (h : s.Canonical) (a i : Nat) (b : Bool) : (s.setRegBit a i b).Canonical := h.setReg ..

theorem Canonical.bump (h : s.Canonical) (a k : Nat) : (s.bump a k).Canonical := h.setReg ..

theorem Canonical.bump16 (h : s.Canonical) (a k : Nat) : (s.bump16 a k).Canonical := h.setReg ..

theorem Canonical.regMax (h : s.Canonical) (a v : Nat) : (s.regMax a v).Canonical := by
  unfold State.regMax; split
  · exact h.setReg ..
  · exact h

theorem Canonical.setReg64 (h : s.Canonical) (lo hi v : Nat) : (s.setReg64 lo hi v).Canonical :=
  (h.setReg ..).setReg ..

theorem Canonical.setByte (h : s.Canonical) (a : Nat) (b : Byte) : (s.setByte a b).Canonical :=
  ⟨h.1, tcanon_cput a b h.2.1, h.2.2⟩

theorem Canonical.setBytes (h : s.Canonical) (a : Nat) (bs : List Byte) : (s.setBytes a bs).Canonical := by
  induction bs generalizing a s with
  | nil => exact h
  | cons b bs ih => exact ih (h.setByte a b) (a + 1)

theorem Canonical.setNum (h : s.Canonical) (a n v : Nat) : (s.setNum a n v).Canonical := h.setBytes ..

theorem Canonical.clearMem (h : s.Canonical) (lo hi : Nat) : (s.clearMem lo hi).Canonical :=
  ⟨h.1, tcanon_filter _ h.2.1, h.2.2⟩

theorem Canonical.setFlash (h : s.Canonical) (a : Nat) (bs : List Byte) : (s.setFlash a bs).Canonical := by
  induction bs generalizing a s with
  | nil => exact h
  | cons b bs ih =>
    refine ih (s := { s with flash := cput (fun _ => 0xFF) s.flash a b }) ?_ (a + 1)
    exact ⟨h.1, h.2.1, tcanon_cput a b h.2.2⟩

theorem Canonical.eraseFlash (h : s.Canonical) (lo hi : Nat) : (s.eraseFlash lo hi).Canonical :=
  ⟨h.1, h.2.1, tcanon_filter _ h.2.2⟩

theorem Canonical.emit (h : s.Canonical) (o : Out) : (s.emit o).Canonical := h

theorem Canonical.emitHost (h : s.Canonical) (o : Out) : (s.emitHost o).Canonical := by
  unfold State.emitHost; split <;> exact h

theorem Canonical.draw (h : s.Canonical) (tag : Nat) : (s.draw tag).2.Canonical := h

theorem Canonical.updNv (h : s.Canonical) (f : Nv → Nv) : (s.updNv f).Canonical := h

theorem Canonical.evr (h : s.Canonical) (e : EvrSt) : State.Canonical { s with evr := e } := h

theorem Canonical.mergeNewest (h : s.Canonical) (slot k : Nat) : (s.mergeNewest slot k).Canonical :=
  (h.evr _).bump ..

theorem Canonical.raiseAt (h : s.Canonical) (stamp src code a b : Nat) : (s.raiseAt stamp src code a b).Canonical := by
  have queue (e : QEntry) : (raiseAt.enqueueEvent e s).Canonical := by
    unfold raiseAt.enqueueEvent
    simp only []
    split
    · exact (h.evr _).regMax ..
    · exact ((h.evr _).bump ..).bump ..
  unfold State.raiseAt
  simp only []
  split
  · exact h
  · split
    · split
      · exact (h.evr _).bump ..
      · exact queue _
    · split
      · split
        · exact h.mergeNewest ..
        · exact queue _
      · exact queue _

/-- An event changes no memory, and no register but its counters. -/
theorem Canonical.raise (h : s.Canonical) (src code a b : Nat) : (s.raise src code a b).Canonical := h.raiseAt ..

theorem Canonical.foldl {α : Type} (f : State → α → State) (hf : ∀ t x, t.Canonical → (f t x).Canonical)
    (h : s.Canonical) (l : List α) : (l.foldl f s).Canonical := by
  induction l generalizing s with
  | nil => exact h
  | cons x l ih => exact ih (hf _ _ h)

theorem reset_canonical_tables : Memory.wf State.reset.mem ∧ State.reset.regs = [] ∧ State.reset.flash = [] := by
  decide

/-! ### Reading back -/

theorem setReg_reg (a : Nat) (v : Word) (s : State) : (s.setReg a v).reg a = v := cget_cput_self ..

theorem setByte_byteAt (a : Nat) (b : Byte) (s : State) : (s.setByte a b).byteAt a = b := cget_cput_self ..

theorem setBytes_byteAt_before {k a : Nat} (bs : List Byte) (s : State) (h : k < a) :
    (s.setBytes a bs).byteAt k = s.byteAt k := by
  induction bs generalizing a s with
  | nil => rfl
  | cons b bs ih => exact (ih _ (Nat.lt_succ_of_lt h)).trans (s.setByte_byteAt_ne (Nat.ne_of_lt h) b)

theorem setBytes_byteAt_after {k a : Nat} (bs : List Byte) (s : State) (h : a + bs.length ≤ k) :
    (s.setBytes a bs).byteAt k = s.byteAt k := by
  induction bs generalizing a s with
  | nil => rfl
  | cons b bs ih =>
    have : a + 1 + bs.length ≤ k := by simp only [List.length_cons] at h; omega
    exact (ih _ this).trans (s.setByte_byteAt_ne (by omega) b)

end State

/-! ### Frames of memory -/

theorem SameMemory.refl (s : State) : SameMemory s s := fun _ => rfl

theorem SameMemory.trans {s t u : State} (h : SameMemory s t) (k : SameMemory t u) : SameMemory s u :=
  fun a => (k a).trans (h a)

theorem SameMemory.of_eq {s t : State} (h : t.mem = s.mem) : SameMemory s t := fun a => by unfold State.byteAt; rw [h]

theorem sameMemory_setReg (a : Nat) (v : Word) (s : State) : SameMemory s (s.setReg a v) := fun _ => rfl

/-- An event leaves every byte of memory as it was. -/
theorem raise_mem (stamp src code a b : Nat) (s : State) : (s.raiseAt stamp src code a b).mem = s.mem := by
  have max (r v : Nat) (t : State) : (t.regMax r v).mem = t.mem := by unfold State.regMax; split <;> rfl
  have queue (e : QEntry) : (State.raiseAt.enqueueEvent e s).mem = s.mem := by
    unfold State.raiseAt.enqueueEvent
    simp only []
    split
    · exact max ..
    · rfl
  unfold State.raiseAt
  simp only []
  split
  · rfl
  · split
    · split
      · rfl
      · exact queue _
    · split
      · split
        · rfl
        · exact queue _
      · exact queue _

end Sys2Proof.Machine
end

