-- ==== Sys2Proof/Laws/Errors.lean ====
section
/-! SUPPORT. What the correction of memory errors and a free rounding can do, said once. -/

namespace Sys2Proof.Machine

variable (s : State)

/-- A free rounding gives one of the two nearest integers, and takes at most one free value. -/
theorem roundFree_cases (tag : Nat) (n : Int) (d : Nat) :
    (n % (d : Int) = 0 ∧ s.roundFree tag n d = (n / (d : Int), s)) ∨
      (n % (d : Int) ≠ 0 ∧ ((s.roundFree tag n d).1 = n / (d : Int) ∨ (s.roundFree tag n d).1 = n / (d : Int) + 1) ∧
        (s.roundFree tag n d).2 = { s with draws := s.draws + 1 }) := by
  by_cases h : n % (d : Int) = 0
  · left
    simp [State.roundFree, h]
  · right
    refine ⟨h, ?_, by simp [State.roundFree, h, State.draw]⟩
    simp only [State.roundFree, if_neg h]
    omega

/-- What error correction never changes: memory, the words in error, what has left the block, and the free values taken. -/
def CorrectsOnly (s t : State) : Prop :=
  t.mem = s.mem ∧ t.weak = s.weak ∧ t.poison = s.poison ∧ t.out = s.out ∧ t.draws = s.draws ∧ t.flash = s.flash

theorem CorrectsOnly.refl : CorrectsOnly s s := ⟨rfl, rfl, rfl, rfl, rfl, rfl⟩

theorem CorrectsOnly.trans {s t u : State} (h : CorrectsOnly s t) (k : CorrectsOnly t u) : CorrectsOnly s u := by
  obtain ⟨a1, a2, a3, a4, a5, a6⟩ := h
  obtain ⟨b1, b2, b3, b4, b5, b6⟩ := k
  exact ⟨b1.trans a1, b2.trans a2, b3.trans a3, b4.trans a4, b5.trans a5, b6.trans a6⟩

theorem rowDue_only (addr : Nat) : CorrectsOnly s (s.rowDue addr) := by
  unfold State.rowDue
  split
  · exact CorrectsOnly.refl s
  · simp only []
    split
    · exact CorrectsOnly.refl s
    · exact ⟨rfl, rfl, rfl, rfl, rfl, rfl⟩

theorem eccCorrect_only (scrub : Bool) (addr : Nat) : CorrectsOnly s (s.eccCorrect scrub addr) := by
  unfold State.eccCorrect
  split
  · exact CorrectsOnly.refl s
  · simp only []
    split
    · exact CorrectsOnly.trans ⟨rfl, rfl, rfl, rfl, rfl, rfl⟩ (rowDue_only _ _)
    · exact ⟨rfl, rfl, rfl, rfl, rfl, rfl⟩

/-- An access that meets single-bit errors takes them out of `weak`, and touches no byte. -/
theorem eccMeet_only (addr n : Nat) :
    CorrectsOnly { s with weak := (s.eccMeet addr n).weak } (s.eccMeet addr n) ∧
      (s.eccMeet addr n).weak = s.weak.filter fun w => !decide (addr / 8 * 8 ≤ w ∧ w < addr + n) := by
  have key : ∀ (l : List Nat) (t : State), CorrectsOnly t (l.foldl (fun s w => s.eccCorrect false w) t) := by
    intro l
    induction l with
    | nil => exact fun t => CorrectsOnly.refl t
    | cons w ws ih => exact fun t => (eccCorrect_only t false w).trans (ih _)
  obtain ⟨a1, a2, a3, a4, a5, a6⟩ := key (s.weak.filter fun w => decide (addr / 8 * 8 ≤ w ∧ w < addr + n))
    { s with weak := s.weak.filter fun w => !decide (addr / 8 * 8 ≤ w ∧ w < addr + n) }
  exact ⟨⟨a1, rfl, a3, a4, a5, a6⟩, a2⟩

theorem sameMemory_eccMeet (addr n : Nat) : SameMemory s (s.eccMeet addr n) := SameMemory.of_eq (eccMeet_only s addr n).1.1

end Sys2Proof.Machine
end

