-- ==== Sys2Proof/Laws/Ops.lean ====
section
/-! SUPPORT. What each shared operation can do, said once: performance counting, events, and the instructions that change
only their core. -/

namespace Sys2Proof.Machine

/-! ### Frames of registers -/

theorem SameRegs.refl (but : List Nat) (s : State) : SameRegs but s s := fun _ _ => rfl

theorem SameRegs.trans {but : List Nat} {s t u : State} (h : SameRegs but s t) (k : SameRegs but t u) :
    SameRegs but s u := fun a ha => (k a ha).trans (h a ha)

theorem SameRegs.mono {a b : List Nat} (sub : ∀ x ∈ a, x ∈ b) {s t : State} (h : SameRegs a s t) : SameRegs b s t :=
  fun x hx => h x fun hm => hx (sub x hm)

theorem sameRegs_setReg (a : Nat) (v : Word) (s : State) : SameRegs [a] s (s.setReg a v) :=
  fun _ hk => s.setReg_reg_ne (fun e => hk (List.mem_singleton.2 e)) v

/-! ### Performance counters -/

/-- Only the counts and the overflow bits change. -/
def PerfOnly (s t : State) : Prop :=
  SameRegs [R.HLT_PERF_OVF_LO, R.HLT_PERF_OVF_HI] s t ∧
    t = { s with regs := t.regs, hlt := { s.hlt with perf := t.hlt.perf } }

theorem PerfOnly.refl (s : State) : PerfOnly s s := ⟨SameRegs.refl _ s, rfl⟩

theorem PerfOnly.trans {s t u : State} (h : PerfOnly s t) (k : PerfOnly t u) : PerfOnly s u := by
  obtain ⟨h1, h2⟩ := h
  obtain ⟨k1, k2⟩ := k
  refine ⟨h1.trans k1, ?_⟩
  rw [k2, h2]

theorem perfAdd_only (fuel i k : Nat) (s : State) : PerfOnly s (s.perfAdd fuel i k) := by
  induction fuel generalizing i k s with
  | zero => exact PerfOnly.refl s
  | succ n ih =>
    unfold State.perfAdd
    have base : ∀ p, PerfOnly s { s with hlt := { s.hlt with perf := p } } := fun p => ⟨fun _ _ => rfl, rfl⟩
    simp only []
    split
    · exact base _
    · split
      · exact (base _).trans (ih ..)
      · split
        · refine (base _).trans ⟨(sameRegs_setReg _ _ _).mono (by simp), rfl⟩
        · refine (base _).trans ⟨(sameRegs_setReg _ _ _).mono (by simp), rfl⟩

theorem perfCount_only (ev unit : Nat) (s : State) : PerfOnly s (s.perfCount ev unit) := by
  unfold State.perfCount
  split
  · generalize List.range 64 = l
    suffices ∀ (l : List Nat) (t : State), PerfOnly s t → PerfOnly s (l.foldl (fun s i =>
        if s.regField (R.HLT_PERF_SEL i) 7 0 = ev ∧ s.regField (R.HLT_PERF_SEL i) 12 8 = unit ∧
          !s.regBit (R.HLT_PERF_SEL i) 13 then s.perfAdd 64 i 1 else s) t) from this l s (PerfOnly.refl s)
    intro l
    induction l with
    | nil => exact fun t h => h
    | cons i l ih =>
      intro t h
      refine ih _ ?_
      show PerfOnly s (if _ then _ else _)
      split
      · exact h.trans (perfAdd_only ..)
      · exact h
  · exact PerfOnly.refl s

theorem retire_only (l : Nat) (before after : State) : PerfOnly after (State.retire l before after) := by
  unfold State.retire
  split
  · exact perfCount_only ..
  · exact PerfOnly.refl after

/-! ### Instructions that change only their core -/

theorem modNth_length {α : Type} (f : α → α) (l : List α) (i : Nat) : (modNth f l i).length = l.length := by
  induction l generalizing i with
  | nil => rfl
  | cons x l ih => cases i <;> simp [modNth, ih]

theorem nth_modNth_ne {α : Type} (d : α) (f : α → α) (l : List α) {i k : Nat} (h : k ≠ i) :
    nth d (modNth f l i) k = nth d l k := by
  induction l generalizing i k with
  | nil => rfl
  | cons x l ih =>
    cases i with
    | zero => cases k with
      | zero => exact absurd rfl h
      | succ k => rfl
    | succ i => cases k with
      | zero => rfl
      | succ k => exact ih fun e => h (e ▸ rfl)

theorem nth_modNth_self {α : Type} (d : α) (f : α → α) (l : List α) {i : Nat} (h : i < l.length) :
    nth d (modNth f l i) i = f (nth d l i) := by
  induction l generalizing i with
  | nil => exact absurd h (Nat.not_lt_zero _)
  | cons x l ih =>
    cases i with
    | zero => rfl
    | succ i => exact ih (Nat.lt_of_succ_lt_succ h)

theorem modNth_set {α : Type} (v : α) (l : List α) (i : Nat) : modNth (fun _ => v) l i = l.set i v := by
  induction l generalizing i with
  | nil => rfl
  | cons x l ih => cases i <;> simp [modNth, ih]

/-- What an instruction that runs answers. -/
theorem onCore_ready {l : Fin 16} {s : State} (h : Ready l s) (f : State → State) :
    s.onCore l f = .next (State.retire l s (f s)) := by
  simp [State.onCore, h.1, h.2.1]

/-- A change of the core alone, then the counts. -/
theorem becomes_modCore {l : Fin 16} {s : State} (h : Ready l s) (f : CoreSt → CoreSt) :
    CoreBecomes l (f (s.core l)) [] s (State.retire l s (s.modCore l f)) := by
  obtain ⟨hr, he⟩ := retire_only l s (s.modCore l f)
  refine ⟨?_, fun k hk => ?_, fun a ha => hr a ha, ?_⟩
  · rw [he]; exact nth_modNth_self _ _ _ h.2.2.1
  · rw [he]; exact nth_modNth_ne _ _ _ hk
  · rw [he]; rfl

/-- What `coreRow` answers. -/
theorem coreRow_becomes {l : Fin 16} {s : State} (h : Ready l s) (n : Nat) (f : CoreSt → CoreSt) :
    ∃ t, s.coreRow l n f = .next t ∧ CoreBecomes l ((f (s.core l)).advance n) [] s t :=
  ⟨_, onCore_ready h _, becomes_modCore h fun c => (f c).advance n⟩

end Sys2Proof.Machine
end

