-- ==== Sys2Proof/WellFormed.lean ====
section
/-! DEFINITION. Which command terms can be sent at all: the lengths and ranges that the wire formats and the address map
give the operands whose Lean type does not already bound them. -/

namespace Sys2Proof

/-- A list of optional bytes whose length lies in a range. -/
def optLen (lo hi : Nat) : Option (List Byte) → Bool
  | none => true
  | some b => decide (lo ≤ b.length ∧ b.length ≤ hi)

/-- An address of register space (R32) or of BAR2, which the model lays from 2^40 on. -/
def regAddr (a : Nat) : Bool := decide (0x4000000 ≤ a ∧ a < 0x5400000) || decide (2 ^ 40 ≤ a ∧ a < 2 ^ 40 + 0x20000)

/-- Lane numbers as 128 × engine + lane: 4 engines of 72 lanes (R356). -/
def lanesOk (l : List Nat) : Bool := l.all fun x => decide (x / 128 < 4 ∧ x % 128 < 72)

/-- What the spine can have outstanding: 256 transactions, at most 32 of one initiator (R53). -/
def outstandingOk (ts : List (Fin 32 × BitVec 40 × Bool)) : Bool :=
  decide (ts.length ≤ 256) && ts.all fun t => decide ((ts.countP fun u => u.1 == t.1) ≤ 32)

/-- A command that can be sent. [DESIGN CHOICE, log entry 12] -/
def Instr.wellFormed : Instr → Bool
  | .sysNop _ => true
  | .sysHello _ => true
  | .sysGetInfo _ => true
  | .sysRead _ => true
  | .sysWrite _ => true
  | .sysDomainEnable _ => true
  | .sysDomainDisable _ => true
  | .sysDomainStatus _ => true
  | .sysReset _ => true
  | .sysFwWrite _ _ => true
  | .sysFwActivate _ => true
  | .sysLock _ => true
  | .cycLoadProgram _ => true
  | .cycStart _ => true
  | .cycStop _ => true
  | .cycHold _ => true
  | .cycStatus _ => true
  | .cycTaskConfig _ => true
  | .cycForceSet _ => true
  | .cycForceRelease _ => true
  | .cycForceList _ => true
  | .cycChangeLoad _ => true
  | .cycChangeApply _ => true
  | .cycChangeValues _ => true
  | .cycChangeCancel _ => true
  | .cycReadSignals _ => true
  | .cycWriteSignals _ => true
  | .stnSegmentConfig _ => true
  | .stnSegmentEnable _ => true
  | .stnSegmentDisable _ => true
  | .stnAdmit _ => true
  | .stnRemove _ => true
  | .stnTokenIssue _ => true
  | .stnBoxwoodSet _ => true
  | .stnStatus _ => true
  | .stnList _ => true
  | .solvDescriptorLoad _ => true
  | .solvSubmit _ => true
  | .solvCancel _ => true
  | .solvStatus _ => true
  | .solvResultRead _ => true
  | .solvEngineEnable _ => true
  | .solvEngineDisable _ => true
  | .metChannelConfig _ => true
  | .metMeterConfig _ => true
  | .metUserCalWrite _ => true
  | .metMediumTableWrite _ => true
  | .metTariffConfig _ => true
  | .metPulseConfig _ => true
  | .metReadTotals _ => true
  | .metReadInterval _ => true
  | .netPortConfig _ => true
  | .netVlanConfig _ => true
  | .netSaInstall _ => true
  | .netSaRemove _ => true
  | .netPortStatus _ => true
  | .timeConfig _ => true
  | .timeStatus _ => true
  | .timeStep _ => true
  | .rtcRead _ => true
  | .rtcSetCalendar _ => true
  | .rtcSetCount _ => true
  | .rtcHalt _ => true
  | .rtcRelease _ => true
  | .rtcAlarmSet _ => true
  | .rtcAlarmClear _ => true
  | .rtcSetWeekday _ => true
  | .rtcUtcOffset _ => true
  | .canConfig _ => true
  | .canEnable _ => true
  | .canDisable _ => true
  | .canSend _ => true
  | .canAbort _ => true
  | .canRecover _ => true
  | .canStatus _ => true
  | .keyLoad _ => true
  | .keyGenerate _ => true
  | .keyDerive _ => true
  | .keyDelete _ => true
  | .keyExportWrapped _ => true
  | .keyCrypt _ => true
  | .keyAttest _ => true
  | .keySlotInfo _ => true
  | .redConfig _ => true
  | .redJoin _ => true
  | .redLeave _ => true
  | .redMaintenance _ => true
  | .redSwitchover _ => true
  | .redStatus _ => true
  | .evrReadSeq _ => true
  | .evrReadTime _ => true
  | .evrFreeze _ => true
  | .evrThaw _ => true
  | .evrClear _ => true
  | .evrConfig _ => true
  | .evrStatus _ => true
  | .hltLedger _ => true
  | .hltSensors _ => true
  | .hltSpareBringIn _ => true
  | .hltPerfConfig _ => true
  | .hltPerfRead _ => true
  | .hltBandwidth _ => true
  | .sqTailDoorbell _ _ => true
  | .cqHeadDoorbell _ _ => true
  | .ringEnable _ _ => true
  | .ringDisable _ _ => true
  | .ringFetch _ entry buf => optLen 64 64 entry && optLen 0 65535 buf
  | .ringDrainEnd _ => true
  | .busMasterEnableSet => true
  | .perstNAssert => true
  | .commandDatagram _ addr port udp bytes => decide (addr < 2 ^ 32) && decide (port < 2 ^ 16) && decide (udp < 2 ^ 16) && decide (bytes.length ≤ 65507)
  | .authLockoutExpiry => true
  | .splitLoRead _ a => regAddr a
  | .splitLoWrite _ a _ => regAddr a
  | .splitHiWrite _ a _ => regAddr a
  | .rcRegisterRead _ a => regAddr a
  | .registerWrite _ a _ => regAddr a
  | .holeAccess kind _ w =>
    decide (1 ≤ w.val) && match kind with | .write data => decide (data.length = w.val) | _ => true
  | .timeNowRead _ => true
  | .timeRawRead _ => true
  | .rtcCountRead _ => true
  | .measWord0Read _ _ => true
  | .perfLoRead _ _ => true
  | .psubmitHiWrite _ _ => true
  | .psendHiWrite _ _ => true
  | .xingCompatWrite _ _ => true
  | .lvbNewClear _ _ => true
  | .rxqHeadWrite _ _ => true
  | .txcHeadWrite _ _ => true
  | .powerOnReset => true
  | .vddCoreFall _ => true
  | .resetNLow => true
  | .pfwNHigh1ms flash _ _ => decide (flash.val = 0 ∨ 4 ≤ flash.val)
  | .ddrTrainingDone _ => true
  | .ddrZeroingDone => true
  | .autostart => true
  | .pfwNFall => true
  | .claimWriteAfterSave => true
  | .pfwResume => true
  | .deviceReset => true
  | .mgtWatchdogExpiry => true
  | .managementCoreReset => true
  | .thermalReset => true
  | .domainPowerUpDone _ => true
  | .domainShutdownDone _ => true
  | .domainPowerGoodTimeout _ => true
  | .domainRailFault _ entries ts => decide (entries.length ≤ 2 ∧ ts.length ≤ 2) && entries.all (· ≤ 128) &&
    outstandingOk ts.flatten
  | .blockReset _ entries ts => decide (entries ≤ 128) && outstandingOk ts
  | .crossingResync _ => true
  | .crossingBlockTimeout _ _ _ => true
  | .evtEdge _ _ _ => true
  | .evtRequest _ => true
  | .evtAckAfterRoom _ => true
  | .evtRequestRelease _ => true
  | .ackWithheldTimeout _ => true
  | .addi _ _ _ _ => true
  | .andi _ _ _ _ => true
  | .ori _ _ _ _ => true
  | .xori _ _ _ _ => true
  | .shli _ _ _ _ => true
  | .shri _ _ _ _ => true
  | .sari _ _ _ _ => true
  | .rori _ _ _ _ => true
  | .movhi _ _ _ _ => true
  | .add _ _ _ _ => true
  | .sub _ _ _ _ => true
  | .and _ _ _ _ => true
  | .or _ _ _ _ => true
  | .xor _ _ _ _ => true
  | .andn _ _ _ _ => true
  | .shl _ _ _ _ => true
  | .shr _ _ _ _ => true
  | .sar _ _ _ _ => true
  | .ror _ _ _ _ => true
  | .mul _ _ _ _ => true
  | .mulh _ _ _ _ => true
  | .mulhu _ _ _ _ => true
  | .div _ _ _ _ => true
  | .divu _ _ _ _ => true
  | .rem _ _ _ _ => true
  | .remu _ _ _ _ => true
  | .min _ _ _ _ => true
  | .max _ _ _ _ => true
  | .minu _ _ _ _ => true
  | .maxu _ _ _ _ => true
  | .sel _ _ _ _ _ => true
  | .clz _ _ _ => true
  | .ctz _ _ _ => true
  | .popc _ _ _ => true
  | .sextB _ _ _ => true
  | .sextH _ _ _ => true
  | .sextW _ _ _ => true
  | .zextW _ _ _ => true
  | .cmp _ _ _ _ _ _ => true
  | .cmpi _ _ _ _ _ _ => true
  | .ldb _ _ _ _ _ => true
  | .ldbu _ _ _ _ _ => true
  | .ldh _ _ _ _ _ => true
  | .ldhu _ _ _ _ _ => true
  | .ldw _ _ _ _ _ => true
  | .ldwu _ _ _ _ _ => true
  | .ldd _ _ _ _ _ => true
  | .stb _ _ _ _ => true
  | .sth _ _ _ _ => true
  | .stw _ _ _ _ => true
  | .std _ _ _ _ => true
  | .flds _ _ _ _ _ => true
  | .fldd _ _ _ _ _ => true
  | .fsts _ _ _ _ => true
  | .fstd _ _ _ _ => true
  | .aswap _ _ _ _ _ _ => true
  | .aadd _ _ _ _ _ _ => true
  | .aand _ _ _ _ _ _ => true
  | .aor _ _ _ _ _ _ => true
  | .axor _ _ _ _ _ _ => true
  | .amin _ _ _ _ _ _ => true
  | .amax _ _ _ _ _ _ => true
  | .aminu _ _ _ _ _ _ => true
  | .amaxu _ _ _ _ _ _ => true
  | .acas _ _ _ _ _ _ _ => true
  | .imldI _ _ _ _ _ _ => true
  | .imldF _ _ _ _ _ _ => true
  | .imstI _ _ _ _ => true
  | .imstF _ _ _ _ => true
  | .imq _ _ _ _ _ _ => true
  | .imts _ _ _ _ _ => true
  | .fadd _ _ _ _ _ => true
  | .fsub _ _ _ _ _ => true
  | .fmul _ _ _ _ _ => true
  | .fdiv _ _ _ _ _ => true
  | .fsqrt _ _ _ _ => true
  | .fmin _ _ _ _ _ => true
  | .fmax _ _ _ _ _ => true
  | .fabs _ _ _ _ => true
  | .fneg _ _ _ _ => true
  | .fmov _ _ _ _ => true
  | .fcvt _ _ _ _ => true
  | .ftoi _ _ _ _ => true
  | .itof _ _ _ _ => true
  | .utof _ _ _ _ => true
  | .fmvtw _ _ _ _ => true
  | .fmvfw _ _ _ _ => true
  | .fmadd _ _ _ _ _ _ => true
  | .fmsub _ _ _ _ _ _ => true
  | .fnmadd _ _ _ _ _ _ => true
  | .fnmsub _ _ _ _ _ _ => true
  | .fcmpEq _ _ _ _ _ _ => true
  | .fcmpLt _ _ _ _ _ _ => true
  | .fcmpLe _ _ _ _ _ _ => true
  | .fcmpUn _ _ _ _ _ _ => true
  | .b _ _ => true
  | .bc _ _ _ _ => true
  | .call _ _ => true
  | .jr _ _ => true
  | .callr _ _ _ => true
  | .nop _ => true
  | .fenceLd _ => true
  | .fenceSt _ => true
  | .fenceAll _ => true
  | .fenceIo _ => true
  | .cwait _ => true
  | .holdpt _ _ => true
  | .trap _ _ => true
  | .eret _ => true
  | .mfs _ _ _ => true
  | .mts _ _ _ => true
  | .impreciseBusError _ _ => true
  | .taskRelease _ _ => true
  | .copyInDone => true
  | .copyOutDone => true
  | .taskWatchdogExpiry _ => true
  | .fixedFrameStart => true
  | .modeDrainEnd => true
  | .changeSwitch => true
  | .changeWaitTimeout => true
  | .storeUpdateDone => true
  | .inputPhaseStart _ => true
  | .inputFrame _ p => decide (p.length ≤ 1500)
  | .inputPhaseEnd _ => true
  | .stagePhaseStart _ => true
  | .stageAckFrame _ p => decide (p.length ≤ 1500)
  | .commitDecision _ => true
  | .commitSend _ => true
  | .serviceWindowStart _ => true
  | .joinReqFrame _ mac p => decide (mac < 2 ^ 48) && decide (p.length ≤ 1500)
  | .joinProofFrame _ p => decide (p.length ≤ 1500)
  | .joinVerifyDone _ _ => true
  | .configAckFrame _ p => decide (p.length ≤ 1500)
  | .stationSessionTimeout _ _ => true
  | .segmentKeySwitch _ => true
  | .joinLockoutExpiry serial => serial.length == 16
  | .segmentStartDone _ => true
  | .segmentStopDone _ => true
  | .solveJobStart kat => lanesOk kat
  | .solveIteration _ r => lanesOk r.kat && lanesOk (r.mism.map (·.2))
  | .jobDeadlineExpiry _ f => lanesOk f.kat && lanesOk (f.mism.map (·.2))
  | .queuedDeadlineExpiry _ => true
  | .runAheadParked _ => true
  | .contextExpiry _ => true
  | .engineStartDone _ kat => lanesOk kat
  | .engineStopDone _ => true
  | .laneBringIn _ => true
  | .descStoreDone _ => true
  | .electricBlockEnd => true
  | .recordWriteDone _ _ => true
  | .windowBoundary => true
  | .closeWaitExpiry _ => true
  | .closingRecordWrite _ => true
  | .demandWindowEnd => true
  | .pulseOutput _ => true
  | .portFrameReceived _ f => decide (14 ≤ f.bytes.length)
  | .linkUp _ _ _ => true
  | .linkDown _ _ => true
  | .fdbAgeing vid mac => decide (vid < 4096) && decide (mac < 2 ^ 48)
  | .ptpSample _ m => m.ident.length == 10
  | .ppsEdge => true
  | .ptpMessageSend _ _ => true
  | .syncTimeout => true
  | .holdoverExpiry => true
  | .refLost => true
  | .rtcFollowUpdate => true
  | .rtcCalLearn => true
  | .rtcAlarmFire _ => true
  | .utcChangeScheduled => true
  | .haltTicksOverflow => true
  | .rtcAutoRelease => true
  | .canBusIntegration _ => true
  | .canChannelStopped _ => true
  | .canFrameReceived _ f _ _ _ => decide (f.dlc ≤ 15) && decide (f.data.length ≤ 64)
  | .canTransmitEnd _ _ _ _ => true
  | .busOff _ => true
  | .busOffRecovered _ => true
  | .canRefPeriod _ => true
  | .canRefStale _ => true
  | .lvbAgeStale _ => true
  | .linkWaitExpiry => true
  | .birlithTrained _ => true
  | .birlithLaneFailing _ => true
  | .heartbeatSend => true
  | .heartbeatMissed => true
  | .silentIndication => true
  | .takeoverStart => true
  | .takeoverReady => true
  | .stateCopySend _ => true
  | .stateCopyReceived c => decide (c.task < 32)
  | .fullSyncPassEnd c => decide (c.task < 32)
  | .stateCopyLate _ => true
  | .handoverReceived => true
  | .handoverAbandon => true
  | .deadmanExpiry => true
  | .tamperTrip _ => true
  | .rootSecretGenerate => true
  | .trngHealthFail => true
  | .drbgReseed => true
  | .eventRaised _ _ _ _ => true
  | .eventRecordWrite _ => true
  | .freezeLimitExpiry => true
  | .sensorSample v => v.length == 32
  | .equivTimeTick => true
  | .ledgerWrite => true
  | .spareSelfTest _ _ => true
  | .coreBringIn _ => true
  | .coreBringInWait _ => true
  | .coreBringInRetry _ => true
  | .rowBringIn => true
  | .scrubPass _ c u => (c ++ u).all fun a => decide (a < 2 ^ 40)
  | .perfCounterWrap _ => true
  | .bandwidthWindowEnd => true
  | .rtcTick x => decide (x.upsets.length ≤ 64)
  | .analogSample v => v.length == 32
  | .heartbeatReceived h => decide (h.role < 5) && decide (h.claim < 2 ^ 32)
  | .birlithLinkDown => true
  | .spareLaneTrained => true
  | .busMasterEnableClear => true
  | .illegalInstruction _ _ => true
  | .pdBatPowerUp => true

end Sys2Proof
end

