-- ==== Sys2Proof/Tests/Slice0.lean ====
section
/-! SUPPORT. Tests of the model: ill-formed commands, states that meet the hypotheses of the statements, and small results
taken from the spec's own tables. -/

set_option Elab.async false

namespace Sys2Proof.Tests

open Sys2Proof Sys2Proof.Machine

/-! ### Ill-formed commands -/

/-- One ill-formed command for each check of the host's rows and of the crossings (R98, R32, R34, R36, R53, R70, R254, R266,
R356, R415, R436, R477, R591, R366, R513, R514). -/
theorem test_ill_formed_host : [
    Instr.ringFetch 0 (some (zeros 63)) none, .ringFetch 0 none (some (zeros 65536)),
    .commandDatagram 0 (2 ^ 32) 0 0 [], .commandDatagram 0 0 65536 0 [], .commandDatagram 0 0 0 65536 [],
    .splitLoRead 25 0x3FFFFFC, .splitLoWrite 25 0x5400000 0, .splitHiWrite 25 0 0, .rcRegisterRead 25 (2 ^ 41),
    .registerWrite 25 0x1000000 0, .holeAccess .read 0 0, .holeAccess (.write [1]) 0 2,
    .pfwNHigh1ms 3 false [], .blockReset 0 129 [], .domainRailFault 0 [1, 1, 1] [],
    .blockReset 0 0 (List.replicate 33 (25, 0x1000000, true))].all (fun i => !i.wellFormed) = true := by decide +kernel

theorem test_ill_formed_engines :
    [Instr.inputFrame 0 (zeros 1501), .stageAckFrame 0 (zeros 1501), .joinReqFrame 0 (2 ^ 48) [],
      .joinReqFrame 0 0 (zeros 1501), .joinProofFrame 0 (zeros 1501), .configAckFrame 0 (zeros 1501),
      .joinLockoutExpiry (zeros 15), .solveJobStart [72], .engineStartDone 0 [512],
      .portFrameReceived 0 ⟨zeros 13, true, none⟩, .fdbAgeing 4096 0, .fdbAgeing 0 (2 ^ 48),
      .ptpSample 0 ⟨2, 0, zeros 9, 0, 0, 0, 0, 0⟩, .canFrameReceived 0 ⟨0, 16, false, false, []⟩ 0 true false,
      .canFrameReceived 0 ⟨0, 0, false, false, zeros 65⟩ 0 true false, .sensorSample [], .scrubPass false [2 ^ 40] [],
      .scrubPass true [] [2 ^ 40], .rtcTick ⟨0, List.replicate 65 (.word 0)⟩, .analogSample [], .heartbeatReceived ⟨5, false, 0, 0, [], false, none⟩,
      .heartbeatReceived ⟨0, false, 2 ^ 32, 0, [], false, none⟩].all (fun i => !i.wellFormed) = true := by
  decide +kernel

theorem test_ill_formed_solver :
    [Instr.jobDeadlineExpiry 0 ⟨0, [], [72]⟩, .jobDeadlineExpiry 0 ⟨0, [(0, 72)], []⟩, .solveIteration 0 ⟨[], [72]⟩,
      .solveIteration 0 ⟨[(0, 512)], []⟩].all (fun i => !i.wellFormed) = true := by decide +kernel

def copyFor (task : Nat) : StateCopy :=
  { task := task, cycle := 9, release := 0, overruns := 0, faults := 0, mode := 1, final := false, oversize := false,
    granules := [], table := [], prog := none, forces := [], adms := [], tokens := [], ctxs := [], keys := [], slots := [],
    bases := [], segs := [], segOn := 0,
    met := { chans := [], sets := [], meters := [], cal := [], tables := [], tariff := none, pulses := [] }, pkg := none }

theorem test_ill_formed_copies :
    (Instr.stateCopyReceived (copyFor 32)).wellFormed = false ∧ (Instr.fullSyncPassEnd (copyFor 32)).wellFormed = false := by
  decide +kernel

/-- A ring entry with EXT: opcode, parameter length, and a reply buffer of 65,535 bytes at 0x1000. -/
def entryOf (op len : Nat) : List Byte :=
  leBytes 2 op ++ leBytes 2 7 ++ leBytes 2 len ++ leBytes 2 16 ++ zeros 16 ++ leBytes 8 0x1000 ++ leBytes 4 65535 ++ zeros 28

/-- A command of ring 0 that waits for nothing. -/
def cmdOf (op : Nat) (params : List Byte) : Cmd :=
  { chan := .ring 0, entry := entryOf op params.length, params := params, arrival := 0, prevId := none, prevEnd := none,
    wait := none }

/-- RECOVERY with every switched domain ON: no command needs a trailer there (R136). -/
def base : State :=
  let s := (State.reset.setReg R.SYS_BOOT_STATUS 6).setReg R.SYS_DOMAIN_STATE 0xAAAAAA
  { s with host := { s.host with bme := true }, pwr := { s.pwr with mgtRuns := true } }

/-- A state with one command in flight under number 1. -/
def holding (op : Nat) (params : List Byte) (s : State) : State :=
  { s with host := { s.host with inflight := [(1, cmdOf op params)] } }

/-- The status code of the last status entry that a step posted. -/
def statusOf : Res → Option Nat
  | .next s => (s.out.findSome? fun o => match o with
      | .hostWrite _ b => if b.length = 16 then some (fieldAt b 2 2) else none
      | _ => none)
  | _ => none

/-- The codes of a list of host commands, each alone in flight. -/
def codes (l : List ((Nat → Instr) × Nat × List Byte × State)) : List (Option Nat) :=
  l.map fun x => statusOf (exec (x.1 1) (holding x.2.1 x.2.2.1 x.2.2.2))

def n4 (v : Nat) : List Byte := leBytes 4 v

/-- A SOLO unit in Stop. -/
def solo : State := base.setRegField R.RED_ROLE 2 0 0
/-- With a root secret and the DRBG running. -/
def rooted : State :=
  let s := solo.setRegBit R.KEY_STATUS 4 true
  { s with key := { s.key with root := some (zeros 32) } }
def slotOf (attr : Word) : Slot :=
  { isSealed := false, attr := attr, key := zeros 32, created := 0, parent := 0xFFFF, derived := false, ctx := [] }
def withSlots (l : List (Nat × Slot)) : State := { rooted with key := { rooted.key with slots := l } }

/-- The command that `holding` keeps in flight passes steps 6 to 10 in RECOVERY. -/
def passesNow (op : Nat) (params : List Byte) (s : State) : Bool :=
  let c := cmdOf op params
  let s := holding op params s
  decide (c.opcode = op) && s.mayStart 1 c && (State.step7 c).isNone && (s.step8 c).2.isNone && s.phase == 6 && !c.auth &&
    match opInfo op with
    | some i => (s.step10 i).isNone
    | none => false

theorem step8_stays {c : Cmd} {s : State} (h : (s.step8 c).2 = none) : s.step8 c = (s, none) := by
  by_cases hl : c.deadline ≠ 0 ∧ c.arrival + usToUnits c.deadline ≤ s.now
  · unfold State.step8 at h
    dsimp only at h
    rw [if_pos hl] at h
    generalize State.roundFree _ _ _ _ = p at h
    exact absurd h (by simp)
  · unfold State.step8
    dsimp only
    rw [if_neg hl]

theorem passes_of {op : Nat} {params : List Byte} {s : State} (h : passesNow op params s = true) :
    Passes op 1 (cmdOf op params) (holding op params s) (holding op params s) := by
  unfold passesNow at h
  cases hi : opInfo op with
  | none => simp [hi] at h
  | some i =>
    simp only [hi, Bool.and_eq_true, decide_eq_true_eq, Option.isNone_iff_eq_none, beq_iff_eq, Bool.not_eq_true'] at h
    obtain ⟨⟨⟨⟨⟨⟨h1, h2⟩, h3⟩, h4⟩, h5⟩, h6⟩, h7⟩ := h
    refine ⟨by simp [holding, tget], h1, rfl, h2, h3, step8_stays h4, i, hi, ?_, h7⟩
    unfold State.step9
    rw [if_pos h5, if_neg (by simp [h6])]

/-- Every opcode of the table has a state in which its command passes its checks. -/
theorem test_every_opcode_passes : (opTable.map (·.1)).all (fun op => passesNow op [] solo) = true := by decide +kernel

/-- The premises of the command statements hold together somewhere. -/
theorem witness_passes : Passes Op.SYS_NOP 1 (cmdOf Op.SYS_NOP []) (holding Op.SYS_NOP [] solo) (holding Op.SYS_NOP [] solo) :=
  passes_of (by decide +kernel)

/-! ### Host commands: the status that each ends with (chapters 03 to 17) -/

/-- ST_BAD_PARAM, ST_ROLE, ST_PENDING and ST_OK. -/
abbrev bad : Option Nat := some 0x8004
abbrev roleRefused : Option Nat := some 0x8010
abbrev pending : Option Nat := some 1
abbrev ok : Option Nat := some 0

/-- The state after a step. -/
def after : Res → State
  | .next s => s
  | _ => State.reset

/-- The state after a host command, with nothing in flight or sent. -/
def did (i : Nat → Instr) (op : Nat) (params : List Byte) (s : State) : State := { after (exec (i 1) (holding op params s)) with out := [] }

theorem test_sys_commands : codes [
    (.sysNop, Op.SYS_NOP, [], base), (.sysHello, Op.SYS_HELLO, [], base), (.sysGetInfo, Op.SYS_GET_INFO, [], base),
    (.sysRead, Op.SYS_READ, leBytes 8 R.SYS_ID ++ n4 1, base), (.sysRead, Op.SYS_READ, leBytes 8 2 ++ n4 1, base),
    (.sysWrite, Op.SYS_WRITE, leBytes 8 0x1000100 ++ n4 1 ++ n4 5, base),
    (.sysWrite, Op.SYS_WRITE, leBytes 8 0x1000100 ++ n4 0 ++ n4 5, base), (.sysLock, Op.SYS_LOCK, [], base)] =
    [ok, ok, ok, ok, bad, ok, bad, ok] := by decide +kernel

theorem test_power_commands : codes [
    (.sysDomainEnable, Op.SYS_DOMAIN_ENABLE, n4 6, base), (.sysDomainEnable, Op.SYS_DOMAIN_ENABLE, n4 12, base),
    (.sysDomainStatus, Op.SYS_DOMAIN_STATUS, [], base), (.sysReset, Op.SYS_RESET, n4 0, base),
    (fun i => .sysFwWrite i true, Op.SYS_FW_WRITE, n4 0 ++ n4 0 ++ n4 8192 ++ zeros 4, base),
    (.sysFwActivate, Op.SYS_FW_ACTIVATE, n4 2, base)] = [ok, bad, ok, bad, ok, bad] := by decide +kernel

theorem test_sys_write_stores :
    (did .sysWrite Op.SYS_WRITE (leBytes 8 0x1000100 ++ n4 1 ++ n4 0x01020304) base).bytesAt 0x1000100 4 = [4, 3, 2, 1] := by
  decide +kernel

theorem test_cycle_commands : codes [
    (.cycLoadProgram, Op.CYC_LOAD_PROGRAM, n4 0 ++ n4 8192 ++ zeros 8, solo), (.cycStart, Op.CYC_START, n4 0, base),
    (.cycStop, Op.CYC_STOP, n4 0, solo), (.cycHold, Op.CYC_HOLD, [], base), (.cycStatus, Op.CYC_STATUS, [], base),
    (.cycForceRelease, Op.CYC_FORCE_RELEASE, n4 0xFFFFFFFF, solo), (.cycForceList, Op.CYC_FORCE_LIST, n4 0, solo),
    (.cycForceSet, Op.CYC_FORCE_SET, n4 0 ++ n4 0 ++ zeros 8, solo), (.cycChangeCancel, Op.CYC_CHANGE_CANCEL, [], solo),
    (.cycReadSignals, Op.CYC_READ_SIGNALS, n4 0, solo), (.cycWriteSignals, Op.CYC_WRITE_SIGNALS, n4 0, solo),
    (.cycTaskConfig, Op.CYC_TASK_CONFIG, n4 0 ++ zeros 64, base)] =
    [ok, roleRefused, ok, roleRefused, ok, ok, ok, some 0x8206, ok, bad, bad, roleRefused] := by decide +kernel

/-- A segment configured for 4 stations with 8 bytes in and 4 out. -/
def configured : State :=
  did .stnSegmentConfig Op.STN_SEGMENT_CONFIG (n4 0 ++ [4, 0] ++ leBytes 2 4 ++ leBytes 2 8 ++ leBytes 2 4 ++ n4 100 ++
    n4 1 ++ n4 1000) solo

theorem test_station_commands : codes [
    (.stnSegmentConfig, Op.STN_SEGMENT_CONFIG, n4 0 ++ [0, 0] ++ zeros 18, solo),
    (.stnSegmentEnable, Op.STN_SEGMENT_ENABLE, n4 0, configured), (.stnSegmentDisable, Op.STN_SEGMENT_DISABLE, n4 0, solo),
    (.stnRemove, Op.STN_REMOVE, n4 0 ++ n4 0, solo), (.stnBoxwoodSet, Op.STN_BOXWOOD_SET, n4 0 ++ n4 0 ++ zeros 4, solo),
    (.stnStatus, Op.STN_STATUS, n4 0 ++ n4 0, solo), (.stnList, Op.STN_LIST, n4 0, solo),
    (.stnTokenIssue, Op.STN_TOKEN_ISSUE, n4 0 ++ n4 0 ++ zeros 16 ++ n4 0, rooted)] =
    [bad, pending, ok, some 0x8301, some 0x8301, some 0x8301, ok, bad] := by decide +kernel

theorem test_solver_commands : codes [
    (.solvDescriptorLoad, Op.SOLV_DESCRIPTOR_LOAD, n4 0 ++ n4 0 ++ n4 0 ++ n4 0 ++ zeros 8, solo),
    (.solvSubmit, Op.SOLV_SUBMIT, leBytes 1 16 ++ zeros 47, solo), (.solvCancel, Op.SOLV_CANCEL, n4 1, solo),
    (.solvStatus, Op.SOLV_STATUS, n4 0xFFFFFFFF, solo), (.solvResultRead, Op.SOLV_RESULT_READ, n4 0 ++ n4 0, solo),
    (.solvEngineEnable, Op.SOLV_ENGINE_ENABLE, n4 4, solo), (.solvEngineDisable, Op.SOLV_ENGINE_DISABLE, n4 0, solo)] =
    [ok, bad, bad, ok, bad, bad, ok] := by decide +kernel

theorem test_metering_commands : codes [
    (.metMeterConfig, Op.MET_METER_CONFIG, n4 2048 ++ zeros 60, solo),
    (.metMediumTableWrite, Op.MET_MEDIUM_TABLE_WRITE, n4 1 ++ n4 2 ++ zeros 24, solo),
    (.metTariffConfig, Op.MET_TARIFF_CONFIG, zeros 20, solo),
    (.metPulseConfig, Op.MET_PULSE_CONFIG, zeros 16, solo), (.metReadTotals, Op.MET_READ_TOTALS, n4 2 ++ n4 0 ++ n4 1, solo),
    (.metReadInterval, Op.MET_READ_INTERVAL, n4 0 ++ n4 0 ++ n4 257, solo)] =
    [some 0x8502, some 0x8503, bad, ok, bad, bad] := by decide +kernel

theorem test_network_commands : codes [
    (.netPortConfig, Op.NET_PORT_CONFIG, n4 20 ++ n4 0, solo), (.netVlanConfig, Op.NET_VLAN_CONFIG, n4 0 ++ n4 5 ++ n4 3 ++ n4 0, solo),
    (.netSaRemove, Op.NET_SA_REMOVE, n4 0, solo), (.netPortStatus, Op.NET_PORT_STATUS, n4 0, solo),
    (.timeStatus, Op.TIME_STATUS, [], solo), (.timeStep, Op.TIME_STEP, n4 0 ++ n4 0 ++ leBytes 8 1 ++ n4 0, solo)] =
    [some 0x8602, ok, bad, ok, ok, ok] := by decide +kernel

theorem test_clock_commands : codes [
    (.rtcRead, Op.RTC_READ, [], solo), (.rtcAlarmSet, Op.RTC_ALARM_SET, n4 4 ++ zeros 12, solo),
    (.rtcAlarmClear, Op.RTC_ALARM_CLEAR, n4 0, solo), (.rtcSetWeekday, Op.RTC_SET_WEEKDAY, n4 7, solo),
    (.rtcUtcOffset, Op.RTC_UTC_OFFSET, [2, 37, 4, 0] ++ zeros 8, solo),
    (.rtcSetCalendar, Op.RTC_SET_CALENDAR, leBytes 2 2100 ++ [2, 29, 0, 0, 0, 0] ++ n4 0, solo)] =
    [ok, some 0x8702, ok, bad, bad, some 0x8701] := by decide +kernel

theorem test_can_commands : codes [
    (.canDisable, Op.CAN_DISABLE, n4 0, solo), (.canEnable, Op.CAN_ENABLE, n4 4, solo), (.canAbort, Op.CAN_ABORT, n4 4 ++ n4 0, solo),
    (.canRecover, Op.CAN_RECOVER, n4 0, solo), (.canStatus, Op.CAN_STATUS, n4 0, solo), (.canConfig, Op.CAN_CONFIG, n4 4 ++ zeros 44, solo),
    (.canSend, Op.CAN_SEND, n4 4 ++ zeros 8, solo)] = [ok, bad, bad, ok, ok, bad, bad] := by decide +kernel

theorem test_key_commands : codes [
    (.keyGenerate, Op.KEY_GENERATE, n4 1 ++ n4 0x101, withSlots []), (.keyGenerate, Op.KEY_GENERATE, n4 1 ++ n4 0x101, solo),
    (.keyDerive, Op.KEY_DERIVE, n4 2 ++ n4 0x101 ++ leBytes 2 0xFFFF ++ leBytes 2 0 ++ zeros 96, withSlots []),
    (.keyDelete, Op.KEY_DELETE, n4 3, withSlots [(3, slotOf 0x101)]), (.keyDelete, Op.KEY_DELETE, n4 3, withSlots []),
    (.keyExportWrapped, Op.KEY_EXPORT_WRAPPED, n4 3 ++ n4 4, withSlots [(3, slotOf 0x101), (4, slotOf 0x201)]),
    (.keySlotInfo, Op.KEY_SLOT_INFO, n4 3, withSlots []), (.keyLoad, Op.KEY_LOAD, zeros 0x6C, withSlots []),
    (.keyCrypt, Op.KEY_CRYPT, n4 3 ++ [2, 0, 0, 0] ++ zeros 68, withSlots [(3, slotOf 0x1)]),
    (.keyAttest, Op.KEY_ATTEST, n4 3 ++ zeros 32, withSlots [])] =
    [ok, some 0x8905, ok, ok, some 0x8901, some 0x8902, ok, bad, some 0x8902, some 0x8901] := by decide +kernel

theorem test_redundancy_commands : codes [
    (.redConfig, Op.RED_CONFIG, n4 0 ++ n4 0, solo), (.redJoin, Op.RED_JOIN, [], solo.setRegField R.RED_ROLE 2 0 4), (.redLeave, Op.RED_LEAVE, [], solo),
    (.redMaintenance, Op.RED_MAINTENANCE, n4 1, solo), (.redSwitchover, Op.RED_SWITCHOVER, [], solo),
    (.redStatus, Op.RED_STATUS, [], solo)] = [bad, roleRefused, roleRefused, ok, roleRefused, ok] := by decide +kernel

theorem test_recorder_commands : codes [
    (.evrReadSeq, Op.EVR_READ_SEQ, n4 1 ++ n4 1, solo), (.evrReadTime, Op.EVR_READ_TIME, zeros 12 ++ zeros 12 ++ n4 1 ++ zeros 8, solo),
    (.evrFreeze, Op.EVR_FREEZE, n4 5001, solo), (.evrFreeze, Op.EVR_FREEZE, n4 0, solo), (.evrThaw, Op.EVR_THAW, [], solo),
    (.evrClear, Op.EVR_CLEAR, [], solo), (.evrClear, Op.EVR_CLEAR, [], did .evrFreeze Op.EVR_FREEZE (n4 0) solo),
    (.evrConfig, Op.EVR_CONFIG, [1, 8, 0, 0, 0, 0, 0, 0], solo), (.evrStatus, Op.EVR_STATUS, [], solo)] =
    [some 0x8B02, bad, bad, ok, ok, ok, some 0x8B01, ok, ok] := by decide +kernel

theorem test_health_commands : codes [
    (.hltLedger, Op.HLT_LEDGER, [], solo), (.hltSensors, Op.HLT_SENSORS, [], solo),
    (.hltSpareBringIn, Op.HLT_SPARE_BRING_IN, n4 0 ++ n4 3 ++ zeros 8, solo),
    (.hltSpareBringIn, Op.HLT_SPARE_BRING_IN, n4 0 ++ n4 8 ++ zeros 8, solo),
    (.hltPerfConfig, Op.HLT_PERF_CONFIG, n4 0 ++ n4 1 ++ n4 0x10, solo),
    (.hltPerfConfig, Op.HLT_PERF_CONFIG, n4 63 ++ n4 2 ++ zeros 8, solo), (.hltPerfRead, Op.HLT_PERF_READ, n4 0 ++ n4 2, solo),
    (.hltBandwidth, Op.HLT_BANDWIDTH, [], solo)] = [ok, ok, pending, bad, ok, some 0x8C02, ok, ok] := by decide +kernel

/-- A leap day reads back in the calendar of the clock that RTC_SET_CALENDAR waits to set. -/
theorem test_leap_day : civil (dayNumber 2024 2 29) = (2024, 2, 29) ∧ monthDays 2100 2 = 28 ∧ monthDays 2000 2 = 29 := by
  decide +kernel

/-! ### Logic cores (R163 to R171, R178) -/

/-- Core 0 runs a task at 0x100 with a trap handler at 0x200: w1 = 7, w2 = -2, w3 = 2^63, w5 = 0x1000100, w6 = 0x400, the others 0; v1 = 1.0 and v2 = 3.0 in FP64,
v3 = 2.0 in FP32. -/
def core0 : State :=
  let w : List DWord := [0, 7, 0xFFFFFFFFFFFFFFFE, 0x8000000000000000, 0, 0x1000100, 0x400] ++ List.replicate 9 0
  let v : List DWord := [0, 0x3FF0000000000000, 0x4008000000000000, 0x40000000] ++ List.replicate 12 0
  solo.setCore 0 { (CoreSt.empty 0) with mode := .running, w := w, v := v, pc := 0x100, tvec := 0x200 }

/-- w0, v0, the flags and the pc of core 0 after one instruction. -/
def w0 (i : Instr) : Nat := (nth 0 ((after (exec i core0)).core 0).w 0).toNat
def v0 (i : Instr) : Nat := (nth 0 ((after (exec i core0)).core 0).v 0).toNat
def flags0 (i : Instr) : Nat := ((after (exec i core0)).core 0).c.toNat
def pc0 (i : Instr) : Nat := ((after (exec i core0)).core 0).pc.toNat
def trapCause (i : Instr) : Nat := ((after (exec i core0)).core 0).tcause.toNat

theorem witness_core0_is_ready : Ready 0 core0 := by unfold Ready; decide +kernel

theorem test_integer_immediates :
    [w0 (.addi 0 0 2 (.short 5)), w0 (.andi 0 0 2 (.literal 0xFFFFFFFF)), w0 (.ori 0 0 1 (.short 8)),
      w0 (.xori 0 0 1 (.short 2)), w0 (.movhi 0 0 1 (.literal 1)), w0 (.shli 0 0 1 63), w0 (.shri 0 0 3 63),
      w0 (.sari 0 0 3 63), w0 (.rori 0 0 1 1)] =
    [3, 0xFFFFFFFE, 15, 5, 0x100000007, 2 ^ 63, 1, 2 ^ 64 - 1, 2 ^ 63 + 3] := by decide +kernel

theorem test_integer_registers :
    [w0 (.add 0 0 1 2), w0 (.sub 0 0 1 2), w0 (.and 0 0 1 2), w0 (.or 0 0 1 2), w0 (.xor 0 0 1 2), w0 (.andn 0 0 1 2),
      w0 (.shl 0 0 1 2), w0 (.shr 0 0 2 1), w0 (.sar 0 0 2 1), w0 (.ror 0 0 1 1), w0 (.min 0 0 1 2), w0 (.max 0 0 1 2),
      w0 (.minu 0 0 1 2), w0 (.maxu 0 0 1 2), w0 (.sel 0 0 1 2 3)] =
    [5, 9, 6, 2 ^ 64 - 1, 2 ^ 64 - 7, 1, 2 ^ 63 + 2 ^ 62, 2 ^ 57 - 1, 2 ^ 64 - 1, 7 * 2 ^ 57, 2 ^ 64 - 2, 7, 7, 2 ^ 64 - 2,
      2 ^ 64 - 2] := by decide +kernel

theorem test_multiply_divide :
    [w0 (.mul 0 0 1 2), w0 (.mulh 0 0 1 2), w0 (.mulhu 0 0 1 2), w0 (.div 0 0 1 2), w0 (.div 0 0 1 4), w0 (.divu 0 0 2 1),
      w0 (.rem 0 0 1 2), w0 (.rem 0 0 1 4), w0 (.remu 0 0 1 4), w0 (.clz 0 0 1), w0 (.ctz 0 0 3), w0 (.popc 0 0 2),
      w0 (.clz 0 0 4), w0 (.sextB 0 0 2), w0 (.sextH 0 0 1), w0 (.sextW 0 0 3), w0 (.zextW 0 0 2)] =
    [2 ^ 64 - 14, 2 ^ 64 - 1, 6, 2 ^ 64 - 3, 2 ^ 64 - 1, (2 ^ 64 - 2) / 7, 1, 7, 7, 61, 63, 63, 64, 2 ^ 64 - 2, 7, 0,
      2 ^ 32 - 2] := by decide +kernel

/-- DIV of −2^63 by −1 gives −2^63 with a remainder of 0 (R164). -/
theorem test_divide_overflow :
    let s := core0.modCore 0 fun c => { c with w := c.w.set 1 (BitVec.allOnes 64) }
    nth 0 ((after (exec (.div 0 0 3 1) s)).core 0).w 0 = 0x8000000000000000#64 ∧
      nth 1 ((after (exec (.rem 0 0 3 1) s)).core 0).w 0 = 0#64 := by decide +kernel

theorem test_compares :
    [flags0 (.cmp 0 .set 0 .lt 2 1), flags0 (.cmp 0 .set 1 .ltu 2 1), flags0 (.cmp 0 .or 2 .geu 2 1),
      flags0 (.cmp 0 .and 3 .eq 1 1), flags0 (.cmpi 0 .set 0 .eq 1 (.short 7)), flags0 (.cmpi 0 .set 3 .tst 1 (.short 8)),
      flags0 (.cmpi 0 .set 0 .ne 2 (.short 0x3FFE)), flags0 (.cmp 0 .set 0 .ge 1 1)] = [1, 0, 4, 0, 1, 0, 0, 1] := by
  decide +kernel

theorem test_stores_and_loads :
    let s := after (exec (.std 0 2 5 (.short 8)) core0)
    let ld (i : Instr) : Nat := (nth 0 ((after (exec i s)).core 0).w 0).toNat
    s.bytesAt 0x1000107 2 = [0, 0xFE] ∧
      [ld (.ldb 0 0 5 (.short 8) 0), ld (.ldbu 0 0 5 (.short 8) 0), ld (.ldh 0 0 5 (.short 8) 0),
        ld (.ldhu 0 0 5 (.short 8) 0), ld (.ldw 0 0 5 (.short 8) 0), ld (.ldwu 0 0 5 (.short 8) 0),
        ld (.ldd 0 0 5 (.short 8) 0)] =
      [2 ^ 64 - 2, 0xFE, 2 ^ 64 - 2, 0xFFFE, 2 ^ 64 - 2, 2 ^ 32 - 2, 2 ^ 64 - 2] := by decide +kernel

theorem test_narrow_stores :
    [(after (exec (.stb 0 2 5 (.short 0)) core0)).numAt 0x1000100 8, (after (exec (.sth 0 2 5 (.short 0)) core0)).numAt 0x1000100 8,
      (after (exec (.stw 0 2 5 (.short 0)) core0)).numAt 0x1000100 8, (after (exec (.fsts 0 3 5 (.short 0)) core0)).numAt 0x1000100 8,
      (after (exec (.fstd 0 1 5 (.short 0)) core0)).numAt 0x1000100 8,
      v0 (.flds 0 0 5 (.short 0) 0), v0 (.fldd 0 0 5 (.short 0) 0)] =
    [0xFE, 0xFFFE, 0xFFFFFFFE, 0x40000000, 0x3FF0000000000000, 0, 0] := by decide +kernel

/-- MISALIGNED is cause 3, BUS_ERROR 2, SOFTWARE 6 and ILLEGAL 1 of R179; ERET outside a handler is ILLEGAL. -/
theorem test_traps :
    [trapCause (.ldw 0 0 5 (.short 2) 0), trapCause (.stb 0 0 1 (.short 0)), trapCause (.trap 0 9), trapCause (.eret 0),
      trapCause (.illegalInstruction 0 0xFFFFFFFF), trapCause (.mts 0 0 1)] = [3, 2, 6, 1, 1, 1] ∧
      [pc0 (.ldw 0 0 5 (.short 2) 0), pc0 (.trap 0 9)] = [0x200, 0x200] ∧
      ((after (exec (.ldw 0 0 5 (.short 2) 0) core0)).core 0).tval = 0x1000102 ∧
      ((after (exec (.trap 0 9) core0)).core 0).tpc = 0x100 := by decide +kernel

theorem test_atomics :
    let s := after (exec (.std 0 1 5 (.short 0)) core0)
    let m (i : Instr) : Nat := (after (exec i s)).numAt 0x1000100 8
    [m (.aswap 0 true .none 0 5 2), m (.aadd 0 true .acq 0 5 2), m (.aand 0 true .rel 0 5 2), m (.aor 0 true .ar 0 5 2),
      m (.axor 0 true .none 0 5 2), m (.amin 0 true .none 0 5 2), m (.amax 0 true .none 0 5 2), m (.aminu 0 true .none 0 5 2),
      m (.amaxu 0 true .none 0 5 2), m (.acas 0 true .none 1 5 2 0), m (.acas 0 true .none 0 5 2 0), m (.aadd 0 false .none 0 5 2)] =
    [2 ^ 64 - 2, 5, 6, 2 ^ 64 - 1, 2 ^ 64 - 7, 2 ^ 64 - 2, 7, 7, 2 ^ 64 - 2, 2 ^ 64 - 2, 7, 5] := by decide +kernel

/-- 1 + 3, 1 − 3, 1 × 3, 1 / 2 and the others in FP64; −1 in FP32 is 0xBF800000. -/
theorem test_floats :
    [v0 (.fadd 0 true 0 1 2), v0 (.fsub 0 true 0 1 2), v0 (.fmul 0 true 0 2 2), v0 (.fdiv 0 true 0 1 1), v0 (.fsqrt 0 true 0 1),
      v0 (.fmin 0 true 0 1 2), v0 (.fmax 0 true 0 1 2), v0 (.fabs 0 true 0 1), v0 (.fneg 0 true 0 1), v0 (.fmov 0 true 0 2),
      v0 (.fcvt 0 true 0 1), v0 (.fcvt 0 false 0 3), v0 (.itof 0 true 0 2), v0 (.utof 0 true 0 1), v0 (.fmvfw 0 true 0 1),
      v0 (.fmadd 0 true 0 1 2 2), v0 (.fmsub 0 true 0 1 2 2), v0 (.fnmadd 0 true 0 1 2 2), v0 (.fnmsub 0 true 0 1 2 2)] =
    [0x4010000000000000, 0xC000000000000000, 0x4022000000000000, 0x3FF0000000000000, 0x3FF0000000000000, 0x3FF0000000000000,
      0x4008000000000000, 0x3FF0000000000000, 0xBFF0000000000000, 0x4008000000000000, 0x3F800000, 0x4000000000000000,
      0xC000000000000000, 0x401C000000000000, 7, 0x4018000000000000, 0, 0xC018000000000000, 0] := by decide +kernel

theorem test_float_compares_and_integers :
    [flags0 (.fcmpEq 0 true .set 0 1 1), flags0 (.fcmpLt 0 true .set 1 1 2), flags0 (.fcmpLe 0 true .set 2 2 1),
      flags0 (.fcmpUn 0 true .set 3 1 2), w0 (.ftoi 0 true 0 2), w0 (.fmvtw 0 true 0 1)] =
    [1, 2, 0, 0, 3, 0x3FF0000000000000] := by decide +kernel

theorem test_control_flow :
    [pc0 (.b 0 (-1)), pc0 (.bc 0 0 false 4), pc0 (.bc 0 0 true 4), pc0 (.call 0 2), pc0 (.jr 0 6), pc0 (.callr 0 0 6),
      w0 (.callr 0 0 6), pc0 (.nop 0), pc0 (.fenceLd 0), pc0 (.fenceSt 0), pc0 (.fenceAll 0), pc0 (.fenceIo 0),
      pc0 (.addi 0 0 1 (.literal 0))] =
    [0xFC, 0x110, 0x104, 0x108, 0x400, 0x400, 0x104, 0x104, 0x104, 0x104, 0x104, 0x104, 0x108] := by decide +kernel

theorem test_system_instructions :
    [w0 (.mfs 0 0 0x0C), pc0 (.mts 0 0x0A 1), pc0 (.holdpt 0 3)] = [0x200, 0x104, 0x104] ∧
      ((after (exec (.mts 0 0x0A 1) core0)).core 0).qtest = 7 := by decide +kernel

/-! ### Rings, direct accesses and the endpoint (chapters 00 to 03) -/

/-- Ring 0 ACTIVE with 16 entries and 8 commands in flight at most. -/
def ringed : State := after (exec (.ringEnable 0 0x00080041) base)

theorem test_ring_states :
    [ringed.ringState 0, (after (exec (.ringEnable 0 0x00080031) base)).ringState 0,
      (after (exec (.sqTailDoorbell 0 16) ringed)).ringState 0, (after (exec (.cqHeadDoorbell 0 1) ringed)).ringState 0,
      (after (exec (.ringDisable 0 0) ringed)).ringState 0,
      (after (exec (.ringDrainEnd 0) (after (exec (.ringDisable 0 0) ringed)))).ringState 0] = [1, 0, 3, 3, 2, 0] := by
  decide +kernel

theorem test_fetch_takes_one_command :
    let s := after (exec (.sqTailDoorbell 0 1) ringed)
    let t := after (exec (.ringFetch 0 (some (entryOf Op.SYS_HELLO 0)) (some [])) s)
    (t.host.inflight.length, (t.reg (R.CMD_RING_SQ_HEAD 0)).toNat,
      (after (exec (.ringFetch 0 none none) s)).ringState 0) = (1, 1, 3) := by decide +kernel

/-- R16, R17: the low word is held until the high word is written, and read back latched; R10, R34: a hole reads all ones. -/
theorem test_direct_accesses :
    let s := after (exec (.splitLoWrite 25 (R.CMD_RING_SQ_BASE_LO 0) 0x12345640) base)
    let t := after (exec (.splitHiWrite 25 (R.CMD_RING_SQ_BASE_HI 0) 9) s)
    (s.reg64 (R.CMD_RING_SQ_BASE_LO 0) (R.CMD_RING_SQ_BASE_HI 0), t.reg64 (R.CMD_RING_SQ_BASE_LO 0) (R.CMD_RING_SQ_BASE_HI 0)) =
      (0, 0x912345640) ∧
    (after (exec (.holeAccess .read 0x3400000 4) base)).out.head? = some (.readData 25 0x3400000 0xFFFFFFFF) ∧
    (after (exec (.rcRegisterRead 25 R.SYS_ID) base)).out.head? = some (.readData 25 R.SYS_ID 0x00139600) := by decide +kernel

theorem witness_direct_rows :
    [directReadOf 25 (.splitLoRead 25 R.HLT_EQUIV_S_LO), directReadOf 25 (.rcRegisterRead 25 R.SYS_ID),
      directReadOf 25 (.timeNowRead 25), directReadOf 25 (.timeRawRead 25), directReadOf 25 (.rtcCountRead 25),
      directReadOf 25 (.measWord0Read 25 1), directReadOf 25 (.perfLoRead 25 2)].all (·.isSome) = true ∧
    [directWriteOf 25 (.splitLoWrite 25 R.SOLV_PSUBMIT_LO 0), directWriteOf 25 (.splitHiWrite 25 R.SOLV_PSUBMIT_HI 0),
      directWriteOf 25 (.registerWrite 25 R.EVR_CONFIG 0), directWriteOf 25 (.xingCompatWrite 25 0)].all (·.isSome) = true := by
  decide +kernel

theorem test_endpoint :
    let s := { base with host := { base.host with held := [.msix 3], bme := false } }
    ((after (exec .busMasterEnableSet s)).out, (after (exec .perstNAssert base)).host.bme,
      (after (exec .busMasterEnableClear base)).host.bme) = ([.msix 3], false, false) := by decide +kernel

theorem test_status_waits_for_the_bus_master :
    let c : Cmd := ⟨.ring 0, padTo 64 [], [], 0, none, none, none⟩
    let s := { base with host := { base.host with bme := false, inflight := [(7, c)] } }
    let t := s.complete 7 .ok 0 0 []
    let u := after (exec .busMasterEnableSet t)
    (t.host.ended == [(7, .ok, 0, 0, [])] && t.host.inflight.length == 1 && t.out.isEmpty && u.host.inflight.isEmpty &&
      u.host.ended.isEmpty && u.out.length == 2) = true := by decide +kernel

theorem test_empty_queue_and_front :
    (after (step State.reset)).raw = 1 ∧
      (after (step { State.reset with pending := [.authLockoutExpiry] })).pending = [] ∧
      decodeTableWord 32 0 = none := by decide +kernel

/-! ### Events of the engines -/

/-- R143, R146: when VDD_CORE falls or RESET_N is low the phase is SUPPLY_WAIT and the domains are OFF. -/
theorem test_resets :
    [.vddCoreFall none, .resetNLow].map (fun i => let t := after (exec i base)
      (t.phase, t.domState 6, t.host.inflight.length)) = [(0, 0, 0), (0, 0, 0)] := by decide +kernel

theorem test_domain_events :
    let s := { base with regs := [(R.SYS_BOOT_STATUS, 5), (R.SYS_DOMAIN_STATE, 0x00001000)] }
    let t := { base with regs := [(R.SYS_BOOT_STATUS, 5), (R.SYS_DOMAIN_STATE, 0x00003000)] }
    [(after (exec (.domainPowerUpDone 6) s)).domState 6, (after (exec (.domainPowerGoodTimeout 6) s)).domState 6,
      (after (exec (.domainShutdownDone 6) t)).domState 6, (after (exec (.domainShutdownDone 6) s)).domState 6] = [2, 1, 0, 1] := by
  decide +kernel

theorem test_crossing_block :
    let s := after (exec (.blockReset 3 2 []) base)
    ((s.reg (R.XING_DISCARDS 3)).toNat, ((after (exec (.crossingResync 3) s)).reg (R.XING_RESYNCS 3)).toNat) = (2, 1) := by
  decide +kernel

theorem test_recorder_events :
    let s := { solo with evr := { solo.evr with restored := true } }
    let t := after (exec (.eventRaised 24 (BitVec.ofNat 16 Ev.CMD_INTERNAL) 5 6) s)
    let u := after (exec (.eventRecordWrite true) t)
    (t.evr.queue.length, u.evr.queue.length, u.evr.log.length, (u.reg R.EVR_SEQ_NEWEST).toNat,
      (after (exec (.eventRaised 24 0 5 6) s)).evr.queue.length) = (1, 0, 1, 1, 0) := by decide +kernel

/-- A repeat within the window is counted in the newest record (R571). -/
theorem test_recorder_merges :
    let s := { solo with evr := { solo.evr with restored := true } }
    let e : Instr := .eventRaised 24 (BitVec.ofNat 16 Ev.CMD_INTERNAL) 5 6
    let t := after (exec e (after (exec e s)))
    (t.evr.queue.length, t.evr.queue.map (·.rep), (t.reg R.EVR_REPEATS).toNat) = (1, [1], 1) := by decide +kernel

/-- R555 to R557: a PURGE source pending for its filter destroys the root secret. -/
theorem test_tamper_purges :
    let s := ((rooted.setReg R.KEY_TAMPER_CFG 2).setReg R.KEY_TAMPER_STATUS 2).setReg R.KEY_TAMPER_FILT 0
    let t := after (exec (.tamperTrip false) s)
    (t.key.root, t.tamperState 0, t.regField R.KEY_TAMPER_COUNT 15 0) = (none, 3, 1) ∧
      (rooted.tamperSource 0 true).tamperState 0 = 0 := by decide +kernel

theorem test_random_sources :
    let s := { rooted with key := { rooted.key with trngRun := 2 } }
    let t := after (exec .trngHealthFail s)
    (t.drbgOk, (after (exec .drbgReseed t)).drbgOk) = (false, true) ∧
      (after (exec .rootSecretGenerate { solo with key := { solo.key with root := some [] } })).key.root = some [] := by
  decide +kernel

theorem test_health_events :
    let t := solo.publishSensor 23 500
    (t.regField (R.HLT_SENSOR_LO 23) 15 0, (after (exec (.scrubPass false [0x1000000] []) solo)).reg (R.HLT_ECC_CORR 1),
      (after (exec (.scrubPass false [] [0x1000008]) solo)).poison) = (500, 1#32, [0x1000008]) := by decide +kernel

/-- A row due for its spare takes it; without one the event alone is left (R596). -/
theorem test_row_spare :
    let s := { solo with hlt := { solo.hlt with rows := [⟨3, 0, 0x1000000⟩] } }
    let t := after (exec .rowBringIn s)
    (t.spareUsed 3 0, t.hlt.rows, t.hlt.maps.units) = (1, [], [(3, 0x1000000)]) := by decide +kernel

theorem test_core_spare :
    let s := (solo.setRegBit R.HLT_CTRL 1 true)
    let s := { s with hlt := { s.hlt with due := [⟨3, false, 0, none, false⟩] } }
    let t := after (exec (.coreBringIn 3) s)
    ((t.core 3).phys, t.hlt.maps.retired, t.hlt.due) = (8, [3], []) ∧
      (after (exec (.spareSelfTest 17 false) solo)).hlt.maps.retired = [17] := by decide +kernel

theorem test_counter_wraps :
    let s := ((solo.setReg R.HLT_PERF_CTRL 1).setReg (R.HLT_PERF_SEL 0) 0x20)
    let t := after (exec (.perfCounterWrap 0) s)
    (t.regBit R.HLT_PERF_OVF_LO 0, nth 9 t.hlt.perf 0) = (true, 0) := by decide +kernel

theorem test_clock_events :
    let t := after (exec (.rtcTick ⟨0, []⟩) solo)
    (t.rtc.sub, t.rtc.count - solo.rtc.count) = (1, 2 ^ 17) := by decide +kernel

theorem test_link_events :
    let s := solo.setReg (R.NET_PORT_CFG 16) 3
    (after (exec (.linkDown 16 false) s)).regBit (R.NET_PORT_STATE 16) 0 = false ∧
      ((after (exec (.portFrameReceived 16 ⟨zeros 60, false, none⟩) s)).reg (R.NET_PORT_FCS_ERR 16)).toNat ≤ 1 := by
  decide +kernel

theorem test_pair_events :
    let s := (solo.setReg R.RED_LINK 2).setRegField R.RED_ROLE 2 0 1
    let h : Heartbeat := ⟨2, true, 4, 0, [], false, none⟩
    let t := after (exec (.heartbeatReceived h) s)
    (t.peerRole, t.peerPresent, (t.reg R.RED_CLAIM_SEEN).toNat, t.role) = (2, true, 4, 1) ∧
      (after (exec (.heartbeatReceived { h with leaving := true }) s)).role = 0 ∧
      (after (exec .deadmanExpiry s)).role = 3 ∧ (after (exec .birlithLinkDown s)).peerPresent = false := by decide +kernel

theorem test_state_copies :
    let s := (solo.setReg R.RED_LINK 2).setRegField R.RED_ROLE 2 0 2
    let t := after (exec (.stateCopyReceived (copyFor 4)) s)
    (tget t.red.copied 4, t.role) = (some (9, 0, false), 2) ∧
      (after (exec (.fullSyncPassEnd (copyFor 4)) s)).synced = true ∧
      (after (exec (.stateCopyLate 4) (s.setRegBit R.RED_ROLE 4 true))).synced = false := by decide +kernel

/-! ### The engines: one event each where its situation exists (chapters 06 to 13) -/

/-- What a list of events leaves, seen through one view each. -/
def sees {α : Type} (l : List (Instr × State × (State → α))) : List α := l.map fun x => x.2.2 (after (exec x.1 x.2.1))

/-- Run, 5 ms after the raw count began: task 0 enabled with a period of 4 ticks (R190). -/
def running : State :=
  let s := ((solo.setReg (R.CYC_TASK_CFG 0) 1).setReg (R.CYC_PERIOD 0) 4).setRegField R.CYC_MODE 1 0 1
  { s with time := { s.time with raw := 1250000 }, cyc := { s.cyc with runFrom := solo.now } }

/-- The task inside a cycle, with its copy-in or copy-out in the transfer unit. -/
def inCycle (p : CycPhase) (out : Bool) : State :=
  let s := running.modTask 0 fun x => { x with phase := p }
  { s with cyc := { s.cyc with xfer := [(0, out)] } }

def cyPhase (s : State) : CycPhase := (s.task 0).phase

theorem witness_releases :
    running.releasable 0 = true ∧ running.fixedRun = false ∧ running.onGrid 0 (tickOf running.now) = true ∧
      tickOf running.now = tickOf solo.now + 20 ∧ running.holdsRelease = false ∧ running.inside 0 = false ∧
      (inCycle .ready false).inside 0 = true := by decide +kernel

theorem test_cycle_phases : sees [(.taskRelease 0 false, running, cyPhase), (.copyInDone, inCycle .copyIn false, cyPhase),
    (.copyOutDone, inCycle .copyOut true, cyPhase)] = [.copyIn, .running, .idle] := by decide +kernel

theorem test_drain_and_fixed_frame :
    let s := { running.setRegBit R.CYC_MODE 5 true with cyc := { running.cyc with drain := some (1, 0, 0) } }
    let f := (running.setRegBit R.CYC_MODE 2 true).setReg R.CYC_FRAME 20
    (s.drainingTasks, (after (exec .modeDrainEnd s)).isDraining) = ([], false) ∧
      (after (exec .fixedFrameStart f)).mode = 1 := by decide +kernel

/-- A change of values that waits with no task inside a cycle, and one whose wait has ended. -/
def changing : State :=
  let s := running.setRegField R.CYC_CHANGE_STATUS 2 0 2
  { s with cyc := { s.cyc with change := some ⟨true, [], zeros 16, false, 0⟩ } }

theorem test_online_change :
    let late := changing.setRegField R.CYC_CHANGE_WAIT_MAX 15 0 1
    (changing.cyc.change.isSome, changing.changeState, (List.range 32).any changing.inside) = (true, 2, false) ∧
    sees [(.changeWaitTimeout, changing, fun s => (s.cyc.change.isSome, s.changeState)),
      (.changeWaitTimeout, late, fun s => (s.cyc.change.isSome, s.changeState))] = [(true, 2), (true, 1)] := by
  decide +kernel

/-- Segment 0 in ACTIVE, in a phase of its bus cycle. -/
def busAt (p : BusPhase) : State :=
  (configured.setRegField (R.STN_SEG_STATE 0) 1 0 2).modSeg 0 fun g => { g with phase := p }

def segPhase (s : State) : BusPhase := (s.seg 0).phase

theorem test_bus_cycle : sees [(.inputPhaseEnd 0, busAt .input, segPhase), (.commitDecision 0, busAt .stage, segPhase),
    (.commitSend 0, busAt .decided, segPhase), (.serviceWindowStart 0, busAt .commit, segPhase)] =
    [.inputDone, .decided, .commit, .service] := by decide +kernel

theorem test_station_frames :
    (busAt .input).segListens 0 = true ∧
    sees [(.inputFrame 0 [], busAt .idle, fun s => s.reg R.STN_BAD_FRAMES), (.stageAckFrame 0 [], busAt .input, fun s => s.reg R.STN_BAD_FRAMES),
      (.joinReqFrame 0 1 [], busAt .input, fun s => s.reg R.STN_BAD_FRAMES),
      (.inputFrame 0 [], solo, fun s => s.reg R.STN_BAD_FRAMES)] = [1, 1, 1, 0] := by decide +kernel

theorem test_segment_starts_and_stops :
    let starting := configured.setRegField (R.STN_SEG_STATE 0) 1 0 1
    let stopping := configured.setRegField (R.STN_SEG_STATE 0) 1 0 3
    sees [(.segmentStartDone 0, starting, fun s => s.segState 0), (.segmentStartDone 0, stopping, fun s => s.segState 0),
      (.segmentStopDone 0, stopping, fun s => s.segState 0), (.segmentStopDone 0, starting, fun s => s.segState 0)] =
      [2, 3, 0, 1] := by decide +kernel

theorem test_segment_key_and_lockout :
    let keyed := (busAt .commit).modSeg 0 fun g => { g with txSeq := 9, newKey := some ⟨zeros 32, 3, [], 0, 1⟩ }
    let waits := (busAt .commit).modSeg 0 fun g => { g with txSeq := 9, newKey := some ⟨zeros 32, 3, [5], 0, 1⟩ }
    let locked (t : Nat) : State := { solo with stn := { solo.stn with locks := [(0, t)] } }
    sees [(.segmentKeySwitch 0, keyed, fun s => ((s.seg 0).epoch, (s.seg 0).txSeq)),
      (.segmentKeySwitch 0, waits, fun s => ((s.seg 0).epoch, (s.seg 0).txSeq))] = [(3, 0), (0, 9)] ∧
    sees [(.joinLockoutExpiry (zeros 16), locked 0, fun s => s.stn.locks.length),
      (.joinLockoutExpiry (zeros 16), locked 1, fun s => s.stn.locks.length)] = [0, 1] := by decide +kernel

/-- Engine 0 STARTING, STOPPING; a submission outside the SRAM (R321, R355, R357). -/
theorem test_engines :
    let starting := solo.setRegField (R.SOLV_ENG_STATE 0) 1 0 1
    let stopping := solo.setRegField (R.SOLV_ENG_STATE 0) 1 0 3
    sees [(.engineStartDone 0 [], starting, fun s => s.engState 0), (.engineStopDone 0, stopping, fun s => s.engState 0),
      (.engineStopDone 0, starting, fun s => s.engState 0)] = [2, 0, 1] ∧
    sees [(.psubmitHiWrite 3 0xFF, solo, fun s => s.reg R.SOLV_SUBMIT_REFUSED)] = [1] := by decide +kernel

/-- A job in a state, with a deadline 2^-32 s after the epoch and no descriptor. -/
def jobIn (state : Nat) : Job :=
  { id := 0, slot := 0, ver := 0, bank := 0, noApply := false, prio := 0, deadline := 1, resAddr := 0, tag := 0, host := true,
    order := 0, state := state, inputs := [], subst := 0, submitted := 0, started := none, startRaw := 0, engines := 0,
    iters := 0, spec := 0, ranAhead := false, gen := 0, data := [], pt := [], pivots := 0, retries := 0, refine := 0, firstRetry := 0,
    inertia := false, refineLimit := false, mism := [], status := .ok, record := [], reads := [], endRaw := 0 }

/-- R318: an ended job's context is freed 60 s after its end and not before. -/
theorem test_context_expiry :
    let s (raw : Nat) : State := { solo with time := { solo.time with raw := raw },
                                             solv := { solo.solv with jobs := [(5, jobIn 2)] } }
    sees [(.contextExpiry 5, s 14999999999, fun s => s.solv.jobs.length), (.contextExpiry 5, s 15000000000, fun s => s.solv.jobs.length)] =
      [1, 0] := by decide +kernel

/-- R322: of two queued jobs of one priority the earlier deadline is first, and none goes last. -/
theorem test_job_order :
    let job (n d p : Nat) : Nat × Job := (n, { jobIn 0 with deadline := d, prio := p, order := n })
    let s := { solo with solv := { solo.solv with jobs := [job 1 0 1, job 2 9 1, job 3 8 1, job 4 0 0] } }
    s.jobQueue.map (·.1) = [4, 3, 2, 1] := by decide +kernel

/-- R366, R389: a sample is stamped and kept; a block ends after 160 samples; a record write lands where it was begun. -/
theorem test_metering_events :
    let due := { solo with met := { solo.met with blkN := 160 } }
    (solo.domOn 8, solo.blockDue, due.blockDue) = (true, false, true) ∧
    sees [(.analogSample (List.replicate 32 7), solo, fun s => (s.met.hist.length, (s.reg (R.MET_CH_PEAK 3)).toNat)),
      (.electricBlockEnd, due, fun s => (s.met.blkN, 0)), (.electricBlockEnd, solo, fun s => (s.met.blkN, 0))] =
      [(1, 7), (0, 0), (0, 0)] := by decide +kernel

theorem test_record_write :
    let s := solo.modMetCh 3 fun x => { x with writing := some (0, [1, 2, 3]) }
    sees [(.recordWriteDone 3 true, s, fun s => s.bytesAt (metRec 3 0) 3)] = [[1, 2, 3]] := by decide +kernel

/-- R391: a waiting pulse starts, and stays high until its width has passed. -/
theorem test_pulses :
    let s := { solo with met := { solo.met with pulses := List.replicate 16 ⟨0, 2, 0, 0, false⟩ },
                         nvNext := { solo.nvNext with met := { solo.nvNext.met with pulses := [(0, ⟨0, 0, 0, 1, 30, 30⟩)] } } }
    let t := after (exec (.pulseOutput 0) s)
    (t.met.pulses[0]?.map (·.phase), (after (exec (.pulseOutput 0) t)).met.pulses[0]?.map (·.waiting)) = (some 1, some 1) := by
  decide +kernel

/-- R439, R441, R443: the PPS edge, the time-outs and the end of holdover need their source and state. -/
theorem test_time_events :
    let pps := (solo.setRegField R.TIME_CFG 2 0 2).setRegField R.TIME_CFG 6 5 2
    let silent := { (pps.setRegField R.TIME_STATE 1 0 2) with time := { pps.time with raw := 750000000 } }
    let held := { (solo.setRegField R.TIME_STATE 1 0 3).setRegField R.TIME_HOLDOVER_MAX 15 0 1 with
      time := { solo.time with raw := 250000000 } }
    sees [(.syncTimeout, silent, fun s => s.servo), (.syncTimeout, pps, fun s => s.servo),
      (.holdoverExpiry, held, fun s => s.servo), (.holdoverExpiry, pps, fun s => s.servo)] = [3, 0, 0, 0] ∧
    (pps.timeSource, pps.refIn, (after (exec .ppsEdge solo)).draws == solo.draws) = (2, 2, true) := by decide +kernel

theorem test_steps :
    ((solo.stepTime (2 ^ 32) true).now, (solo.stepTime (2 ^ 32) true).reg R.TIME_LAST_STEP_HI) = (solo.now + 2 ^ 32, 1) := by
  decide +kernel

/-- R454, R465, R467: a tick adds 2^-15 s, or counts a halted tick; an alarm fires at its time. -/
theorem test_clock_ticks :
    let halted := solo.setRegBit R.RTC_STATUS 1 true
    let armed := solo.setReg (R.RTC_ALARM_STATE 2) 1
    let ended := (halted.setReg R.RTC_HALT_TICKS 0xFFFFFFFF)
    sees [(.rtcTick ⟨0, []⟩, solo, fun s => (s.rtc.count, s.reg R.RTC_HALT_TICKS)),
      (.rtcTick ⟨0, []⟩, halted, fun s => (s.rtc.count, s.reg R.RTC_HALT_TICKS))] = [(solo.rtc.count + 2 ^ 17, 0), (solo.rtc.count, 1)] ∧
    sees [(.rtcAlarmFire 2, armed, fun s => s.reg (R.RTC_ALARM_STATE 2)), (.rtcAlarmFire 1, armed, fun s => s.reg (R.RTC_ALARM_STATE 2)),
      (.haltTicksOverflow, ended, fun s => s.reg R.RTC_STATUS &&& 8), (.haltTicksOverflow, halted, fun s => s.reg R.RTC_STATUS &&& 8)] =
      [2, 1, 8, 0] := by decide +kernel

/-- R476, R484, R487, R490: a channel starts, stops, goes to bus-off and recovers; NEW is cleared by a 1. -/
theorem test_can_channel :
    let st (v : Word) : State := solo.setReg (R.CAN_STATE 1) v
    let off := (st 2).modCan 1 fun y => { y with tec := 256 }
    sees [(.canBusIntegration 1, st 1, fun s => (s.canState 1, s.canErr 1)), (.canChannelStopped 1, st 3, fun s => (s.canState 1, s.canErr 1)),
      (.busOff 1, off, fun s => (s.canState 1, s.canErr 1)), (.busOff 1, st 2, fun s => (s.canState 1, s.canErr 1)),
      (.busOffRecovered 1, st 0x52, fun s => (s.canState 1, s.canErr 1))] = [(2, 0), (0, 0), (2, 2), (2, 0), (2, 0)] ∧
    sees [(.lvbNewClear 4 1, solo.setReg (R.CAN_LVB_STATUS 4) 3, fun s => s.regBit (R.CAN_LVB_STATUS 4) 0),
      (.lvbNewClear 4 0, solo.setReg (R.CAN_LVB_STATUS 4) 3, fun s => s.regBit (R.CAN_LVB_STATUS 4) 0)] = [false, true] := by
  decide +kernel

theorem test_can_frames :
    let s := (solo.setReg (R.CAN_STATE 1) 2).modCan 1 fun y => { y with tec := 5, rec_ := 7 }
    let f : CanFrame := ⟨0x123, 1, false, false, [9]⟩
    sees [(.canFrameReceived 1 f 0 true false, s, fun s => ((s.reg (R.CAN_RX_OK 1)).toNat, (s.canCh 1).rec_)),
      (.canFrameReceived 1 f 0 false true, s, fun s => ((s.reg (R.CAN_RX_OK 1)).toNat, (s.canCh 1).rec_)),
      (.canTransmitEnd 1 false .sent 0, s, fun s => ((s.reg (R.CAN_RX_OK 1)).toNat, (s.canCh 1).rec_))] =
      [(1, 6), (0, 15), (0, 7)] := by decide +kernel

/-- R420: a frame on a port that is down has no effect; one with a wrong check sequence is counted on one that is up. -/
theorem test_received_frames :
    let up := (solo.setRegField (R.NET_PORT_CFG 17) 1 0 2).setReg (R.NET_PORT_STATE 17) 1
    let f : RxFrame := ⟨zeros 60, false, none⟩
    sees [(.portFrameReceived 17 f, up, fun s => s.reg (R.NET_PORT_FCS_ERR 17)), (.portFrameReceived 17 f, solo, fun s => s.reg (R.NET_PORT_FCS_ERR 17)),
      (.linkUp 17 true true, up, fun s => s.reg (R.NET_PORT_LINK_DOWNS 17)),
      (.linkDown 17 false, up, fun s => s.reg (R.NET_PORT_LINK_DOWNS 17))] = [1, 0, 0, 1] := by decide +kernel

/-! ### States that meet the premises of the statements on crossings, errors, stations, jobs and words -/

/-- Crossing `n` is blocked (R79). -/
def blocked (n : Nat) (s : State) : State := s.setRegBit R.XING_RESYNC_STATUS n true

theorem witness_blocked_crossings :
    ((blocked 0 base).crossBlocked 0, (blocked 8 base).crossBlocked 8, (blocked 1 base).crossBlocked 1, base.crossBlocked 0,
      (after (exec (.sqTailDoorbell 0 1) (blocked 0 ringed))).reg (R.CMD_RING_SQ_TAIL 0),
      (after (exec (.sqTailDoorbell 0 1) ringed)).reg (R.CMD_RING_SQ_TAIL 0)) = (true, true, true, false, 0, 1) := by
  decide +kernel

/-- R60: an AtomicOp request is unsupported; shared SRAM reads back what was written. -/
theorem test_host_memory :
    let s := after (exec (.holeAccess (.write [1, 2, 3, 4]) 0x1000100 4) base)
    base.powered = true ∧ (after (exec (.holeAccess .read 0x1000100 4) s)).out.head? = some (.memData 0x1000100 [1, 2, 3, 4]) ∧
      (after (exec (.holeAccess .atomic 0x1000100 8) base)).out.head? = some (.unsupported 0x1000100) := by decide +kernel

/-- R104, R144: a command is late; a commanded reset waits for its status entry. -/
theorem witness_late_and_waiting :
    let late := { cmdOf Op.SYS_NOP [] with entry := (entryOf Op.SYS_NOP 0).take 12 ++ leBytes 4 1 ++ (entryOf Op.SYS_NOP 0).drop 16 }
    let w := { base with pwr := { base.pwr with resetDue := some (0, 1), resetWaits := true } }
    (late.deadline ≠ 0 ∧ (base.step8 late).2.isSome = true) ∧ (after (exec .deviceReset w)).pwr.resetDue = some (0, 1) ∧
      (after (exec .busMasterEnableSet w)).pwr.resetDue = some (250000, 1) := by decide +kernel

/-- R36: DDR training reports the size once. -/
theorem witness_training :
    let s := { base with pwr := { base.pwr with ddrWait := true } }.setReg R.SYS_BOOT_STATUS 3
    let t (g : Bool) : State := after (exec (.ddrTrainingDone 8) { s with pwr := { s.pwr with gibSet := g } })
    s.domOn 10 = true ∧ s.phase < 5 ∧ (t false).regField R.SYS_MEMCFG 4 0 = 8 ∧
      (t true).regField R.SYS_MEMCFG 4 0 = s.regField R.SYS_MEMCFG 4 0 := by decide +kernel

/-- R39: a pc outside code SRAM takes BUS_ERROR (cause 2) at fetch. -/
theorem test_fetch_outside_code :
    let s := core0.modCore 0 fun c => { c with pc := 0x800000 }
    s.coreRuns 0 = true ∧ inCode (s.core 0).pc.toNat = false ∧ ((after (exec (.nop 0) s)).core 0).tcause = 2 := by decide +kernel

/-! Words written out from the formats of R160 and the tables of R163 to R178. -/

theorem test_words :
    [decodeCoreWord 0 0x0A5C0005 0, decodeCoreWord 0 0x6E5A0000 0x12345, decodeCoreWord 0 0x068D0015 0,
      decodeCoreWord 0 0xA28D0202 0, decodeCoreWord 0 0xC5800004 0, decodeCoreWord 0 0xE0000000 0] =
    [some (.addi 0 9 7 (.short 5)), some (.std 0 9 6 (.literal 0x12345)), some (.divu 0 10 3 4), some (.fmul 0 true 10 3 4),
      some (.bc 0 1 true 4), some (.nop 0)] := by decide +kernel

theorem test_illegal_words :
    [(0 : Word), 0xFFFFFFFF, 0x04000FFF].map (fun w => (decodeCoreWord 0 w 0, legalWord w)) = List.replicate 3 (none, false) := by
  decide +kernel

/-! Word errors (R27, R596). -/

theorem test_word_errors :
    let one := base.upset 0x1000104
    let two := one.upset 0x1000100
    let met := one.eccMeet 0x1000100 4
    [one.weak, one.poison, two.weak, two.poison, met.weak, (two.setByte 0x1000103 0).poison] =
      [[0x1000100], [], [], [0x1000100], [], []] ∧
    (met.reg (R.HLT_ECC_CORR 1), (base.upset 0x3400000).weak) = (1, []) := by decide +kernel

theorem test_tick_upsets :
    (after (exec (.rtcTick ⟨0, [.word 0x1000100]⟩) solo)).weak = [0x1000100] ∧
      (after (exec (.rtcTick ⟨0, [.fetch 0 0x100 2]⟩) core0)).reg (R.LC_PARITY_REFETCH 0) = 2#32 := by decide +kernel

/-- R76: an event of the compatibility handshake is never merged. -/
theorem test_alone :
    let e (alone : Bool) : QEntry := ⟨0, 5, 0, 0, 0, 0, 0, alone⟩
    ((e false).mergesInto (e false) 9, (e false).mergesInto (e true) 9, (e true).mergesInto (e false) 9) = (true, false, false) := by
  decide +kernel

/-! Stations. -/

/-- A context in a state of its own: SYNCING, new, with its STAGE acknowledged. -/
def ctxIn (state : Nat) (acked fresh : Bool) : Ctx := ⟨0, state, 0, [], 0, 0, 0, 0, 0, 0, 0, false, 0, 0, fresh, acked, [], []⟩

/-- Segment 0 bound to task 0, in Hold, in a phase of its bus cycle, with station 1 in a context. -/
def bound (p : BusPhase) (c : Ctx) (g : Option Staged) : State :=
  let s := (((busAt p).setReg (R.CYC_TASK_CFG 0) 1).setReg (R.CYC_SEG_MASK 0) 1).setRegField R.CYC_MODE 1 0 2
  { s with stn := { s.stn with ctxs := [(1, c)] } }.modSeg 0 fun x => { x with staged := g }

def stagedOne (bitmap : Nat) : Staged := ⟨7, 0, [1], 0, [(1, 0)], bitmap⟩

theorem witness_bound_segment :
    let s := bound .inputDone (ctxIn 3 true true) none
    let b := (s.seg 0).boundary
    [s.claiming, !s.finalMarked 0, (s.task 0).faultBoundary != some b, (s.reg R.RED_CLAIM).toNat == 0] =
      List.replicate 4 true ∧
    (s.boundTask 0, s.segState 0, (s.seg 0).phase, (s.seg 0).settle, s.stageSource 0 b) =
      (some 0, 2, .inputDone, 0, some 0) := by decide +kernel

theorem test_bus_cycle_of_a_bound_segment :
    let c := ctxIn 3 true true
    let t := after (exec (.stagePhaseStart 0) (bound .inputDone c none))
    let u := after (exec (.commitDecision 0) (bound .stage c (some (stagedOne 0))))
    let v := after (exec (.commitSend 0) (bound .decided c (some (stagedOne 2))))
    let w := after (exec (.commitDecision 0) (bound .stage (ctxIn 4 false false) (some (stagedOne 0))))
    (((t.seg 0).phase, (t.seg 0).staged.map (·.cycle)), (u.seg 0).staged.map (·.bitmap), (v.ctx 1).map (·.state),
      (w.ctx 1).map (·.state)) = ((.stage, some 0), some 2, some 4, some 5) := by decide +kernel

theorem test_commit_of_each_state :
    let s (c : Ctx) : State := bound .commit c none
    [(ctxIn 3 true true), (ctxIn 3 true false), (ctxIn 5 true false), (ctxIn 4 true false), (ctxIn 6 true false)].map
      (fun c => ((s c).commitStation 0 (stagedOne 2) 1 |>.ctx 1).map (·.state)) = [some 4, some 4, some 4, some 4, some 6] := by
  decide +kernel

/-- A JOIN_REQ of segment 0 with `n` bytes behind the serial number, and the states that know its sender. -/
def joinFrame (mode n : Nat) : List Byte :=
  [1, 2] ++ leBytes 2 (17 + n) ++ zeros 12 ++ zeros 16 ++ leBytes 1 mode ++ zeros n

theorem witness_joins :
    let s := ((busAt .service).setRegBit R.KEY_STATUS 4 true)
    let host := { s with nvNext := { s.nvNext with tokens := [(0, ⟨3, none, [], none, true⟩)] } }
    let known := { s with nvNext := { s.nvNext with adms := [(3, ⟨zeros 16, [], 0, 0, 0, 0, 0, [], none⟩)] } }
    (State.frameOk 0 0x02 false (joinFrame 1 43), State.frameOk 0 0x02 false (joinFrame 0 139), s.segListens 0, s.drbgOk,
      (s.seg 0).joinReqs, s.serialLocked (zeros 16)) = (true, true, true, true, 0, false) ∧
    (host.joinPosition 0 (State.bodyOf (joinFrame 1 43)), known.joinPosition 0 (State.bodyOf (joinFrame 0 139))) =
      (.inl 3, .inl 3) ∧
    (((after (exec (.joinReqFrame 0 9 (joinFrame 1 43)) host)).seg 0).joins.map (·.1),
      ((after (exec (.joinReqFrame 0 9 (joinFrame 0 139)) known)).seg 0).joins.map (·.1)) = ([3], [3]) := by decide +kernel

/-- R50, R65: a copy-in waits for the input phase of its task's segment. -/
theorem witness_input_phase :
    let s := (bound .input (ctxIn 4 false false) none).modTask 0 fun x => { x with phase := .copyIn }
    let s := { s with cyc := { s.cyc with xfer := [(0, false)] } }
    (s.inputOpen 0, cyPhase (after (exec .copyInDone s))) = (true, .copyIn) := by decide +kernel

/-! Jobs: a problem without stages shows the order of the tests. -/

/-- A version whose point converges, or never does, with an iteration limit of 5. -/
def version (place : Nat) (never : Bool) : DescVer :=
  { ver := 1, home := sramBase, bytes := zeros 0x1E ++ [5] ++ zeros 0x25 ++ leBytes 4 (if never then 0xBF800000 else 0) ++
      zeros 0xB8, sum := 0, place := place, binds := [], stored := false }

/-- Engine 0 is ON; context 5 holds a job of the version in slot 0, or run-ahead work. -/
def solving (v : DescVer) (j : Option Job) (w : Option Ahead) : State :=
  let s := solo.setRegField (R.SOLV_ENG_STATE 0) 1 0 2
  let s := s.modDescSlot 0 fun x => { x with cur := some v }
  { s with solv := { s.solv with jobs := (j.map fun j => (5, j)).toList, ahead := (w.map fun w => (5, w)).toList } }

def runJob (state iters : Nat) : Job := { jobIn state with ver := 1, deadline := 0, iters := iters, engines := state }
def ahead0 (iters : Nat) : Ahead := ⟨0, 1, 0, 0, 1, [], [], [], iters, false, 0, []⟩

def jobStates (s : State) : List (Nat × Nat) := s.solv.jobs.map fun x => (x.2.state, x.2.iters)

theorem witness_versions :
    [version 0 true, version 0 false].map (fun v => (converges v.bytes ((State.jobProb v (runJob 1 0)).metrics []),
      (bankFaultAt [] v.bytes []).isNone, planWords v.bytes, (dIterLimit v.bytes))) =
      [(false, true, 0, 5), (true, true, 0, 5)] := by decide +kernel

theorem test_job_runs :
    let s (never : Bool) (st k : Nat) : State := solving (version 0 never) (some (runJob st k)) none
    sees [(.solveJobStart [], s true 0 0, jobStates), (.solveIteration 5 ⟨[], []⟩, s true 1 2, jobStates),
      (.solveIteration 5 ⟨[], []⟩, s true 1 5, jobStates), (.solveIteration 5 ⟨[], []⟩, s false 1 2, jobStates),
      (.solveJobStart [], s true 2 0, jobStates)] = [[(1, 0)], [(1, 3)], [(2, 5)], [(2, 2)], [(2, 0)]] := by decide +kernel

theorem test_job_deadlines :
    let late (st : Nat) : State := solving (version 0 true) (some { runJob st 2 with deadline := 1 }) none
    ((late 1).now ≠ 0) ∧
    sees [(.jobDeadlineExpiry 5 ⟨0, [], []⟩, late 1, jobStates), (.solveIteration 5 ⟨[], []⟩, late 1, jobStates),
      (.queuedDeadlineExpiry 5, late 0, jobStates), (.solveJobStart [], late 0, jobStates)] =
      [[(2, 2)], [(2, 2)], [(2, 2)], [(2, 2)]] := by decide +kernel

theorem test_run_ahead :
    let s (never : Bool) : State := solving (version 0 never) none (some (ahead0 2))
    sees [(.solveIteration 5 ⟨[], []⟩, s true, fun t => t.solv.ahead.map fun x => (x.2.iters, x.2.parked)),
      (.runAheadParked 5, s false, fun t => t.solv.ahead.map fun x => (x.2.iters, x.2.parked)),
      (.runAheadParked 5, s true, fun t => t.solv.ahead.map fun x => (x.2.iters, x.2.parked))] =
      [[(3, false)], [(2, true)], [(2, false)]] := by decide +kernel

/-- R356: two mismatches of one lane in a job end it with LANE_FAULT. -/
theorem test_lane_fault :
    let s := solving (version 0 true) (some (runJob 1 2)) none
    let t := after (exec (.solveIteration 5 ⟨[(0, 3), (0, 3)], []⟩) s)
    (jobStates t, (t.laneMap 0).faulty, (t.reg (R.SOLV_ENG_RESIDUE_ERR 0)).toNat) = ([(2, 2)], [3], 2) := by decide +kernel

/-- R316, R337: nine stages on four engines; a pivot below its limit. -/
theorem test_ranges_and_pivots :
    let d : List Byte := zeros 0x10 ++ [9] ++ zeros 0xEF
    (List.range 4).map (fun r => (rangeStart d r, rangeLen d r)) = [(1, 3), (4, 2), (6, 2), (8, 2)] ∧
    [pivotRule true fOne fHalf 0, pivotRule false fOne fHalf 0, pivotRule true fOne fHalf 0xBF000000,
      pivotRule true fOne fHalf 0xC0000000, pivotRule false fOne fHalf 0xC0000000] =
      [(fHalf, true, false), (0xBF000000, true, false), (0xBF000000, true, false), (0xC0000000, false, true),
        (0xC0000000, false, false)] := by decide +kernel

/-- 1 + 2^-40 is held by the accumulator and rounded when it leaves (R335). -/
theorem test_accumulator :
    let acc := accAdd false 0x2B800000 (accIn fOne)
    (accOut acc, accOut (accAdd true fOne acc)) = (fOne, 0x2B800000) := by decide +kernel

end Sys2Proof.Tests
end

section
/-! SUPPORT. Little-endian numbers and runs of bytes: a number and its bytes give each other back, and memory reads back
the bytes that were stored (R9). -/

namespace Sys2Proof.Machine

@[simp] theorem leBytes_length (n v : Nat) : (leBytes n v).length = n := by
  induction n generalizing v with
  | zero => rfl
  | succ n ih => simp [leBytes, ih]

/-- The bytes of a number spell it back, as far as they reach. -/
theorem leNat_leBytes (n v : Nat) : leNat (leBytes n v) = v % 256 ^ n := by
  induction n generalizing v with
  | zero => simp [leBytes, leNat, Nat.mod_one]
  | succ n ih => rw [leBytes, leNat, ih, BitVec.toNat_ofNat, Nat.pow_succ' (m := 256), Nat.mod_mul]

theorem leNat_lt (bs : List Byte) : leNat bs < 256 ^ bs.length := by
  induction bs with
  | nil => simp [leNat]
  | cons b bs ih =>
    have hb := b.isLt
    rw [leNat, List.length_cons, Nat.pow_succ']
    omega

/-- Bytes are those of the number that they spell. -/
theorem leBytes_leNat (bs : List Byte) : leBytes bs.length (leNat bs) = bs := by
  induction bs with
  | nil => rfl
  | cons b bs ih =>
    have hb := b.isLt
    have hlow : BitVec.ofNat 8 (b.toNat + 256 * leNat bs) = b := by
      apply BitVec.eq_of_toNat_eq
      rw [BitVec.toNat_ofNat]
      omega
    have hhigh : (b.toNat + 256 * leNat bs) / 256 = leNat bs := by omega
    rw [List.length_cons, leNat, leBytes, hlow, hhigh, ih]

namespace State

variable (s : State)

@[simp] theorem bytesAt_length (a n : Nat) : (s.bytesAt a n).length = n := by
  induction n generalizing a with
  | zero => rfl
  | succ n ih => simp [bytesAt, ih]

theorem bytesAt_add (a m n : Nat) : s.bytesAt a (m + n) = s.bytesAt a m ++ s.bytesAt (a + m) n := by
  induction m generalizing a with
  | zero => simp [bytesAt]
  | succ m ih =>
    rw [Nat.succ_add, bytesAt, bytesAt, ih, Nat.add_assoc a 1 m, Nat.add_comm 1 m, List.cons_append]

/-- A part of a run of bytes is the run at that part's address. -/
theorem slice_bytesAt (a : Nat) {off len n : Nat} (h : off + len ≤ n) :
    slice (s.bytesAt a n) off len = s.bytesAt (a + off) len := by
  obtain ⟨rest, rfl⟩ := Nat.exists_eq_add_of_le h
  rw [slice, Nat.add_assoc, bytesAt_add, bytesAt_add, List.drop_left' (s.bytesAt_length ..),
    List.take_left' (s.bytesAt_length ..)]

/-- Memory reads back the bytes that were stored. -/
theorem setBytes_bytesAt (a : Nat) (bs : List Byte) : (s.setBytes a bs).bytesAt a bs.length = bs := by
  induction bs generalizing a s with
  | nil => rfl
  | cons b bs ih =>
    have hfirst : ((s.setByte a b).setBytes (a + 1) bs).byteAt a = b :=
      (setBytes_byteAt_before bs _ (Nat.lt_succ_self a)).trans (setByte_byteAt a b s)
    rw [List.length_cons, setBytes, bytesAt, hfirst, ih]

/-- A number reads back what its bytes hold of it. -/
theorem setNum_numAt (a n v : Nat) : (s.setNum a n v).numAt a n = v % 256 ^ n := by
  have hbytes : (s.setNum a n v).bytesAt a n = leBytes n v := by
    simpa [setNum] using s.setBytes_bytesAt a (leBytes n v)
  rw [numAt, hbytes, leNat_leBytes]

/-- Storing a number leaves the bytes on either side. -/
theorem setNum_byteAt_outside {a n x : Nat} (v : Nat) (h : x < a ∨ a + n ≤ x) :
    (s.setNum a n v).byteAt x = s.byteAt x := by
  rcases h with below | above
  · exact setBytes_byteAt_before _ s below
  · exact setBytes_byteAt_after _ s (by simpa using above)

/-- The bytes of a word as it is read are the bytes at its address. -/
theorem leBytes_wordAt (a : Nat) : leBytes 4 (BitVec.ofNat 32 (s.numAt a 4)).toNat = s.bytesAt a 4 := by
  have hlt : s.numAt a 4 < 2 ^ 32 := by simpa [numAt] using leNat_lt (s.bytesAt a 4)
  rw [BitVec.toNat_ofNat, Nat.mod_eq_of_lt hlt]
  simpa [numAt] using leBytes_leNat (s.bytesAt a 4)

end State

/-- Settles O6: bytes and registers read back by the laws of the tables, numbers by induction over their bytes. -/
theorem writesReadBackAndNothingElseChanges : Obligations.WritesReadBackAndNothingElseChanges := by
  intro s _
  refine ⟨fun a b => ⟨State.setByte_byteAt a b s, fun x hx => s.setByte_byteAt_ne hx b⟩,
    fun a v => ⟨State.setReg_reg a v s, fun x hx => s.setReg_reg_ne hx v⟩, fun a n v => ?_⟩
  exact ⟨s.setNum_numAt a n v, fun x hx => s.setNum_byteAt_outside v hx⟩

end Sys2Proof.Machine
end

section
/-! Direct reads and writes of registers: what each row does, whichever row names the register (R10 to R17, R87). -/

namespace Sys2Proof.Machine

namespace State

variable {s : State} {ini : Fin 32} {a : Nat}

theorem hostWaits_of_blocked (h : s.crossBlocked 0 = true) : s.hostWaits 25 = true := by simp [hostWaits, h]

/-- An access that is not the host's, or meets an open crossing 0, does not wait. -/
theorem hostWaits_eq_false (h : ini ≠ 25 ∨ s.crossBlocked 0 = false) : s.hostWaits ini = false := by
  rcases h with other | isOpen
  · have hval : ini.val ≠ 25 := fun e => other (Fin.ext e)
    simp [hostWaits, hval]
  · simp [hostWaits, isOpen]

theorem directRead_waits (h : s.hostWaits ini = true) : s.directRead ini a = s := by simp [directRead, h]

theorem directRead_allowed (hp : s.powered = true) (hw : s.hostWaits ini = false) (ha : a % 4 = 0)
    (hm : s.regMay ini false a = true) :
    s.directRead ini a = (s.regRead ini a).2.emit (.readData ini a (s.regRead ini a).1) := by
  simp [directRead, hp, hw, ha, hm]

theorem directRead_refused (hp : s.powered = true) (hw : s.hostWaits 25 = false) (hm : s.regMay 25 false a = false) :
    s.directRead 25 a = (s.refuseAccess 25 a).emit (.readData 25 a 0xFFFFFFFF) := by
  simp [directRead, hp, hw, hm]

variable {v : Word}

theorem directWrite_waits (h : s.hostWaits ini = true) : s.directWrite ini a v = s := by simp [directWrite, h]

theorem directWrite_allowed (hp : s.powered = true) (hw : s.hostWaits ini = false) (ha : a % 4 = 0)
    (hm : s.regMay ini true a = true) : s.directWrite ini a v = s.regWrite ini ini false a v := by
  simp [directWrite, hp, hw, ha, hm]

theorem directWrite_refused (hp : s.powered = true) (hw : s.hostWaits ini = false) (hm : s.regMay ini true a = false) :
    s.directWrite ini a v = s.refuseAccess ini a := by
  simp [directWrite, hp, hw, hm]

/-! ### A write of a register at its row -/

variable {r : RegRow} {j k who who' : Nat} {auth : Bool}

theorem regWrite_privileged (hrow : regRow a = some (r, j, k)) (hpriv : r.priv = true) :
    s.regWrite who who' false a v = s.accessFault who' a := by
  simp [regWrite, hrow, hpriv]

theorem regWrite_off (hrow : regRow a = some (r, j, k)) (hpriv : r.priv = false) (hoff : s.rowOff r = true) :
    s.regWrite who who' auth a v = s := by
  simp [regWrite, hrow, hpriv, hoff]

theorem regWrite_row (hrow : regRow a = some (r, j, k)) (hpriv : r.priv = false) (hoff : s.rowOff r = false) :
    s.regWrite who who' auth a v = s.rowWrite r j k who a v := by
  simp [regWrite, hrow, hpriv, hoff]

theorem rowWrite_low (hring : ringBase r.base = false) (hlo : isLo a = true) (htakes : rowTakes r = true) :
    s.rowWrite r j k who a v = s.holdLo who a v := by
  simp [rowWrite, hring, hlo, htakes]

theorem regRead_off (hrow : regRow a = some (r, j, k)) (hoff : s.rowOff r = true) : s.regRead who a = (0, s) := by
  simp [regRead, hrow, hoff]

theorem regRead_unmapped (hrow : regRow a = none) : s.regRead who a = (0, s) := by simp [regRead, hrow]

theorem regWrite_unmapped (hrow : regRow a = none) : s.regWrite who who' auth a v = s := by simp [regWrite, hrow]

end State

/-- Every row that reads a register is one direct read. -/
theorem exec_of_directReadOf {ini : Fin 32} {i : Instr} {a : Nat} (h : directReadOf ini i = some a) (s : State) :
    exec i s = .next (s.directRead ini a) := by
  unfold directReadOf at h
  split at h <;> simp only [Option.ite_none_right_eq_some, Option.some.injEq, reduceCtorEq] at h
  case h_1 =>
    obtain ⟨⟨rfl, hlo⟩, rfl⟩ := h
    exact congrArg _ (if_pos hlo)
  case h_2 =>
    obtain ⟨⟨rfl, hlo⟩, rfl⟩ := h
    exact congrArg _ (if_neg (by simpa using hlo))
  all_goals
    obtain ⟨rfl, rfl⟩ := h
    rfl

/-- Every row that writes a register is one direct write. -/
theorem exec_of_directWriteOf {ini : Fin 32} {i : Instr} {a : Nat} {v : Word} (h : directWriteOf ini i = some (a, v))
    (s : State) : exec i s = .next (s.directWrite ini a v) := by
  unfold directWriteOf at h
  split at h <;> simp only [Option.ite_none_right_eq_some, Option.some.injEq, Prod.mk.injEq, reduceCtorEq] at h
  case h_1 =>
    obtain ⟨⟨rfl, hlo⟩, rfl, rfl⟩ := h
    exact congrArg _ (if_pos hlo)
  case h_2 =>
    obtain ⟨⟨rfl, hhi⟩, rfl, rfl⟩ := h
    exact congrArg _ (if_pos hhi)
  case h_3 =>
    obtain ⟨⟨rfl, hlo, hhi⟩, rfl, rfl⟩ := h
    exact congrArg _ (if_neg (by simpa using And.intro hlo hhi))
  case h_4 =>
    obtain ⟨rfl, rfl, rfl⟩ := h
    rfl

/-- Settles O13: each row is one direct access, and each clause one case of it. -/
theorem directReadsAndWrites : Obligations.DirectReadsAndWrites := by
  constructor
  · intro s ini i a hp hi
    rw [exec_of_directReadOf hi]
    refine ⟨?_, fun hopen => ⟨fun ha hm => ?_, ?_⟩⟩
    · rintro rfl hb
      rw [State.directRead_waits (State.hostWaits_of_blocked hb)]
    · rw [State.directRead_allowed hp (State.hostWaits_eq_false hopen) ha hm]
    · rintro - rfl hm
      exact congrArg _ (State.directRead_refused hp (State.hostWaits_eq_false hopen) hm)
  · intro s ini i a v hp hi
    rw [exec_of_directWriteOf hi]
    refine ⟨?_, fun hopen ha => ⟨fun hm => ?_, fun hm r j k hrow => ?_⟩⟩
    · rintro rfl hb
      rw [State.directWrite_waits (State.hostWaits_of_blocked hb)]
    · rw [State.directWrite_refused hp (State.hostWaits_eq_false hopen) hm]
    · rw [State.directWrite_allowed hp (State.hostWaits_eq_false hopen) ha hm]
      refine ⟨fun hpriv => ?_, fun hpriv hoff => ?_, fun hpriv hoff hring hlo htakes => ?_, fun hpriv hoff => ?_⟩
      · rw [State.regWrite_privileged hrow hpriv]
      · rw [State.regWrite_off hrow hpriv hoff]
      · rw [State.regWrite_row hrow hpriv hoff, State.rowWrite_low hring hlo htakes, State.holdLo]
      · rw [State.regWrite_row hrow hpriv hoff]

end Sys2Proof.Machine
end

section
/-! Host accesses over BAR0 to holes and to memory, and registers that are not there (R12, R34, R37, R47, R60, R85,
R86). -/

namespace Sys2Proof.Machine

namespace State

variable {s : State}

theorem regionOf_ne_shared_of_ge {a : Nat} (h : 0x2000000 ≤ a) : s.regionOf a ≠ .shared := by
  rw [regionOf, if_neg (by omega), if_neg (by omega), if_neg (by omega)]
  dsimp only
  repeat' split
  all_goals nofun

theorem regionOf_eq_shared_iff (a : Nat) : s.regionOf a = .shared ↔ 0x1000000 ≤ a ∧ a < 0x2000000 := by
  rcases Nat.lt_or_ge a 0x1000000 with below | hlo
  · refine iff_of_false ?_ (by omega)
    by_cases hcode : a < 0x800000 <;> simp [regionOf, hcode, below]
  · rcases Nat.lt_or_ge a 0x2000000 with hhi | above
    · rw [regionOf, if_neg (by omega), if_neg (by omega), if_pos hhi]
      exact iff_of_true rfl ⟨hlo, hhi⟩
    · exact iff_of_false (regionOf_ne_shared_of_ge above) (by omega)

theorem eccMeet_of_no_weak (hw : s.weak = []) (a n : Nat) : s.eccMeet a n = s := by
  have hsame : { s with weak := [] } = s := by rw [← hw]
  simp [eccMeet, hw, hsame]

/-- A word of shared SRAM without errors reads as its bytes, and the read leaves the state as it is. -/
theorem memWord_shared (hw : s.weak = []) (hp : s.poison = []) (who : Nat) {a : Nat} (ha : s.regionOf a = .shared) :
    s.memWord who a = (BitVec.ofNat 32 (s.numAt a 4), s) := by
  have hgood : s.poisoned a = false := by simp [poisoned, hp]
  simp [memWord, eccMeet_of_no_weak hw, ha, hgood]

theorem memBytes_shared (hw : s.weak = []) (hp : s.poison = []) (who : Nat) {a n : Nat} (hlo : 0x1000000 ≤ a)
    (hhi : a + 4 * n ≤ 0x2000000) : s.memBytes who a n = (s.bytesAt a (4 * n), s) := by
  induction n generalizing a with
  | zero => rfl
  | succ n ih =>
    have hword := memWord_shared hw hp who ((regionOf_eq_shared_iff (s := s) a).2 ⟨hlo, by omega⟩)
    simp only [memBytes, hword, ih (a := a + 4) (by omega) (by omega)]
    rw [leBytes_wordAt, ← bytesAt_add, Nat.mul_succ, Nat.add_comm 4]

/-! ### The host's accesses -/

variable {a width : Nat}

theorem hostRefused_of_denied {write : Bool} (h : hostMay write (s.regionOf a) = false) :
    s.hostRefused write a width = true := by
  simp [hostRefused, h]

theorem hostRefused_shared (write : Bool) (ha : s.regionOf a = .shared) (hend : s.regionOf (a + width - 1) = .shared) :
    s.hostRefused write a width = false := by
  simp [hostRefused, ha, hend, hostMay]

theorem holeAccess_waits (hb : s.crossBlocked 0 = true) (kind : HostAccess) : s.holeAccess kind a width = s := by
  simp [holeAccess, hostWaits_of_blocked hb]

variable (hp : s.powered = true) (hw : s.hostWaits 25 = false)
include hp hw

theorem holeAccess_atomic : s.holeAccess .atomic a width = s.emit (.unsupported a) := by
  simp [holeAccess, hp, hw]

theorem holeAccess_read_refused (h : s.hostRefused false a width = true) :
    s.holeAccess .read a width = (s.accessFault 25 a).emit (.readData 25 a 0xFFFFFFFF) := by
  simp [holeAccess, hp, hw, h]

theorem holeAccess_write_refused (data : List Byte) (h : s.hostRefused true a width = true) :
    s.holeAccess (.write data) a width = s.accessFault 25 a := by
  simp [holeAccess, hp, hw, h]

theorem holeAccess_write_shared (data : List Byte) (ha : s.regionOf a = .shared)
    (hend : s.regionOf (a + width - 1) = .shared) :
    s.holeAccess (.write data) a width = s.setBytes a (padTo width data) := by
  simp [holeAccess, hp, hw, hostRefused_shared true ha hend, ha]

/-- The words that the host's bytes lie in are read whole, and the bytes asked for are cut out of them. -/
theorem holeAccess_read_shared (hweak : s.weak = []) (hpoison : s.poison = []) (ha : s.regionOf a = .shared)
    (hend : s.regionOf (a + width - 1) = .shared) :
    s.holeAccess .read a width = s.emit (.memData a (s.bytesAt a width)) := by
  obtain ⟨hlo, hhi⟩ := (regionOf_eq_shared_iff a).1 ha
  obtain ⟨-, hlast⟩ := (regionOf_eq_shared_iff _).1 hend
  have hwords := memBytes_shared (n := (a % 4 + width + 3) / 4) hweak hpoison 25
    (show 0x1000000 ≤ a / 4 * 4 by omega) (by omega)
  have hcut : slice (s.bytesAt (a / 4 * 4) (4 * ((a % 4 + width + 3) / 4))) (a % 4) width = s.bytesAt a width := by
    rw [slice_bytesAt _ _ (by omega), Nat.div_add_mod' a 4]
  simp [holeAccess, hp, hw, hostRefused_shared false ha hend, ha, hwords, hcut]

end State

theorem hostMay_of_hole_or_config {region : Region} (h : region = .hole ∨ region = .config) (write : Bool) :
    hostMay write region = false := by
  rcases h with rfl | rfl <;> rfl

theorem exec_holeAccess (kind : HostAccess) (a : BitVec 40) (w : Fin 65) (s : State) :
    exec (.holeAccess kind a w) s = .next (s.holeAccess kind a.toNat w) := rfl

/-- Settles O14: each clause is one case of a host access, or of a register that no row or no power stands behind. -/
theorem holesAndAbsentRegisters : Obligations.HolesAndAbsentRegisters := by
  constructor
  · intro s a w data hp
    simp only [exec_holeAccess]
    refine ⟨fun hb kind => by rw [State.holeAccess_waits hb], fun hopen => ?_⟩
    have hw : s.hostWaits 25 = false := State.hostWaits_eq_false (ini := 25) (.inr hopen)
    refine ⟨by rw [State.holeAccess_atomic hp hw], fun hdenied => ?_, fun ha hend => ⟨fun hweak hpoison => ?_, ?_⟩⟩
    · have hmay := hostMay_of_hole_or_config hdenied
      rw [State.holeAccess_read_refused hp hw (State.hostRefused_of_denied (hmay false)),
        State.holeAccess_write_refused hp hw data (State.hostRefused_of_denied (hmay true))]
      exact ⟨rfl, rfl⟩
    · rw [State.holeAccess_read_shared hp hw hweak hpoison ha hend]
    · rw [State.holeAccess_write_shared hp hw data ha hend]
  · intro s who a v auth
    refine ⟨fun hrow => ⟨State.regRead_unmapped hrow, State.regWrite_unmapped hrow⟩, fun r j k hrow hoff => ?_⟩
    exact ⟨State.regRead_off hrow hoff, fun hpriv => State.regWrite_off hrow hpriv hoff⟩

end Sys2Proof.Machine
end

section
/-! Crossings and event inputs: what each row does in each of its cases (R75 to R84). -/

namespace Sys2Proof.Machine

namespace State

variable {s : State}

/-! ### Crossings -/

section Crossings

variable {n : Nat}

theorem blockReset_of_open (hopen : s.regBit R.XING_RESYNC_STATUS n = false) (entries : Nat) :
    s.blockReset n entries [] = ((s.setRegBit R.XING_RESYNC_STATUS n true).modXing fun x =>
      { x with blockedAt := modNth (fun _ => s.raw) x.blockedAt n }).discard n (min entries (2 * crossDepth n)) := by
  simp [blockReset, spineShow, hopen]

theorem blockReset_of_blocked (hblocked : s.regBit R.XING_RESYNC_STATUS n = true) (entries : Nat) :
    s.blockReset n entries [] = s.discard n (min entries (2 * crossDepth n)) := by
  simp [blockReset, spineShow, hblocked]

theorem crossingResync_of_open (hopen : s.regBit R.XING_RESYNC_STATUS n = false) : s.crossingResync n = s := by
  simp [crossingResync, hopen]

theorem crossingResync_of_blocked (hblocked : s.regBit R.XING_RESYNC_STATUS n = true) :
    s.crossingResync n =
      (((((s.setRegBit R.XING_RESYNC_STATUS n false).bump16 (R.XING_RESYNCS n) 1).raise srcXing Ev.XING_RESYNC n
        (nth 0 s.xing.lost n)).modXing fun x => { x with lost := modNth (fun _ => 0) x.lost n }).releaseHeld) := by
  simp [crossingResync, hblocked]

variable {ini : Nat} {addr : BitVec 40} {read : Bool}

theorem blockTimeout_of_open (hopen : s.regBit R.XING_RESYNC_STATUS n = false) :
    s.blockTimeout n ini addr read = s := by
  simp [blockTimeout, hopen]

theorem blockTimeout_of_overdue (hblocked : s.regBit R.XING_RESYNC_STATUS n = true)
    (hlate : nth 0 s.xing.blockedAt n + 250 * s.regField R.XING_BLOCK_TIMEOUT 15 0 < s.raw) :
    s.blockTimeout n ini addr read = (((s.discard n 1).setRegBit R.XING_BLOCKED n true).raise srcXing
      Ev.XING_BLOCK_TIMEOUT n ini).busErrorTo ini addr read := by
  have hdue : ¬ ((!s.regBit R.XING_RESYNC_STATUS n) = true ∨
      s.raw ≤ nth 0 s.xing.blockedAt n + rawUs (s.regField R.XING_BLOCK_TIMEOUT 15 0)) :=
    not_or.2 ⟨by rw [hblocked]; decide, Nat.not_le.2 hlate⟩
  exact if_neg hdue

/-- No logical core stands behind initiator 25, the host: its read returns all ones, and its write is lost (R80). -/
theorem busErrorTo_host (hcores : ∀ l, l < 16 → (s.core l).phys ≠ 25) :
    s.busErrorTo 25 addr read = if read = true then s.emit (.readData 25 addr.toNat 0xFFFFFFFF) else s := by
  have hnone : ((List.range 16).find? fun l => (s.core l).phys == 25 && s.coreRuns l) = none := by
    simpa using fun l hl e => absurd e (hcores l hl)
  simp [busErrorTo, hnone]

end Crossings

/-! ### Event inputs -/

section EventInputs

variable {m : Nat}

theorem evtEdge_of_compat (hcompat : s.evtCompat = true) (edges : Nat) (high : Bool) : s.evtEdge m edges high = s := by
  simp [evtEdge, hcompat]

theorem setPin_evtOn (high : Bool) : (s.setPin m high).evtOn m = s.evtOn m := rfl

theorem evtEdge_of_watched (hnative : s.evtCompat = false) (hon : s.evtOn m = true) {edges : Nat} (hedges : edges ≠ 0)
    (high : Bool) :
    s.evtEdge m edges high = ((s.setPin m high).modReg (R.XING_EVT_EDGES m) (· + BitVec.ofNat 32 edges)).raise
      (0x28 + m) Ev.EVR_INPUT m edges := by
  simp [evtEdge, hnative, setPin_evtOn, hon, hedges]

theorem evtRequest_of_high (hhigh : bit s.xing.pins m = true) : s.evtRequest m = s := by
  simp [evtRequest, hhigh]

variable (hcompat : s.evtCompat = true)
include hcompat

theorem evtRequest_of_unwatched (hlow : bit s.xing.pins m = false) (hoff : s.evtOn m = false) :
    s.evtRequest m = s.setPin m true := by
  simp [evtRequest, hcompat, hlow, hoff]

/-- A request on a watched input counts its edge, then is accepted or withheld as the queue has room. -/
theorem evtRequest_of_watched (hlow : bit s.xing.pins m = false) (hon : s.evtOn m = true) :
    s.evtRequest m =
      let u := (s.setPin m true).modReg (R.XING_EVT_EDGES m) (· + 1)
      if u.evtRoom then u.evtAccept m u.now
      else (u.setRegBit R.XING_EVT_STATUS (16 + m) true).modXing fun x =>
        { x with evtStamp := modNth (fun _ => u.now) x.evtStamp m, evtRaw := modNth (fun _ => u.raw) x.evtRaw m,
                 evtLogged := setBit x.evtLogged m false } := by
  simp [evtRequest, hcompat, hlow, hon]

theorem evtRelease_of_compat :
    s.evtRelease m =
      ((s.setPin m false).setRegBit R.XING_EVT_STATUS (8 + m) false).setRegBit R.XING_EVT_STATUS (16 + m) false := by
  simp [evtRelease, hcompat]

end EventInputs

section Withheld

variable {m : Nat}

theorem evtAckAfterRoom_of_full (hfull : s.evtRoom = false) : s.evtAckAfterRoom m = s := by
  simp [evtAckAfterRoom, hfull]

theorem evtAckAfterRoom_of_room (hdom : s.domOn 7 = true) (hheld : s.regBit R.XING_EVT_STATUS (16 + m) = true)
    (hroom : s.evtRoom = true) : s.evtAckAfterRoom m = s.evtAccept m (nth 0 s.xing.evtStamp m) := by
  simp [evtAckAfterRoom, hdom, hheld, hroom]

theorem evtWithheld_of_early (hearly : s.raw ≤ nth 0 s.xing.evtRaw m + 250000) : s.evtWithheld m = s := by
  exact if_neg fun ⟨_, _, _, hlate⟩ => Nat.not_lt.2 hearly hlate

/-- After 1 ms of withholding, the time that is logged is rounded freely. -/
theorem evtWithheld_of_late (hdom : s.domOn 7 = true) (hheld : s.regBit R.XING_EVT_STATUS (16 + m) = true)
    (hfirst : bit s.xing.evtLogged m = false) (hlate : nth 0 s.xing.evtRaw m + 250000 < s.raw) :
    s.evtWithheld m =
      let r := s.roundFree 76 ((s.raw - nth 0 s.xing.evtRaw m : Nat) : Int) 250
      (r.2.modXing fun x => { x with evtLogged := setBit x.evtLogged m true }).raise srcXing Ev.XING_ACK_WITHHELD m
        (satTo 32 r.1.toNat) := by
  simp [evtWithheld, rawUs, hdom, hheld, hfirst, hlate]

end Withheld

/-- A free rounding of a count: one of its two neighbours, and no change but in the free values taken. -/
theorem roundFree_natCast (s : State) (tag k d : Nat) :
    (∃ c, (s.roundFree tag k d).2 = { s with draws := c }) ∧
      ((s.roundFree tag k d).1.toNat = k / d ∨ (k % d ≠ 0 ∧ (s.roundFree tag k d).1.toNat = k / d + 1)) := by
  rcases roundFree_cases s tag k d with ⟨-, heq⟩ | ⟨hrest, hvalue, hstate⟩
  · rw [heq]
    exact ⟨⟨s.draws, rfl⟩, .inl (by simp [← Int.natCast_ediv])⟩
  · refine ⟨⟨_, hstate⟩, ?_⟩
    have hmod : k % d ≠ 0 := by exact_mod_cast hrest
    rcases hvalue with hdown | hup
    · exact .inl (by rw [hdown, ← Int.natCast_ediv, Int.toNat_natCast])
    · exact .inr ⟨hmod, by rw [hup, ← Int.natCast_ediv, ← Int.natCast_succ, Int.toNat_natCast]⟩

end State

/-! ### The rows -/

section Rows

variable (s : State) (n : Fin 13) (m : Fin 8)

theorem exec_blockReset_idle (entries : Nat) :
    exec (.blockReset n entries []) s = .next (s.blockReset n entries []) := rfl

theorem exec_crossingResync : exec (.crossingResync n) s = .next (s.crossingResync n) := rfl

theorem exec_crossingBlockTimeout (ini : Fin 32) (addr : BitVec 40) (read : Bool) :
    exec (.crossingBlockTimeout n ini (addr, read)) s = .next (s.blockTimeout n ini addr read) := rfl

theorem exec_evtEdge (edges : Nat) (high : Bool) :
    exec (.evtEdge m edges high) s = .next (s.evtEdge m edges high) := rfl

theorem exec_evtRequest : exec (.evtRequest m) s = .next (s.evtRequest m) := rfl

theorem exec_evtRequestRelease : exec (.evtRequestRelease m) s = .next (s.evtRelease m) := rfl

theorem exec_evtAckAfterRoom : exec (.evtAckAfterRoom m) s = .next (s.evtAckAfterRoom m) := rfl

theorem exec_ackWithheldTimeout : exec (.ackWithheldTimeout m) s = .next (s.evtWithheld m) := rfl

end Rows

/-- Settles O20: each clause is one case of a crossing's or an event input's row. -/
theorem crossingsAndEventInputs : Obligations.CrossingsAndEventInputs := by
  constructor
  · intro s n
    refine ⟨fun entries hopen => ?_, fun entries hblocked => ?_, fun hblocked => ?_, fun hopen => ?_,
      fun ini addr read => ⟨fun hblocked hlate => ?_, fun hopen => ?_, fun u => State.busErrorTo_host⟩⟩
    · rw [exec_blockReset_idle, State.blockReset_of_open hopen, State.crossDepth]
    · rw [exec_blockReset_idle, State.blockReset_of_blocked hblocked, State.crossDepth]
    · rw [exec_crossingResync, State.crossingResync_of_blocked hblocked]
    · rw [exec_crossingResync, State.crossingResync_of_open hopen]
    · rw [exec_crossingBlockTimeout, State.blockTimeout_of_overdue hblocked hlate]
    · rw [exec_crossingBlockTimeout, State.blockTimeout_of_open hopen]
  · intro s m
    simp only [exec_evtEdge, exec_evtRequest, exec_evtRequestRelease, exec_evtAckAfterRoom, exec_ackWithheldTimeout]
    refine ⟨fun edges high hdom hnative henabled hedges => ?_, fun edges high hcompat => ?_, fun _ hhigh => ?_,
      fun hcompat hlow hoff => ?_, fun hcompat hon hlow => ⟨fun hroom => ?_, fun hfull => ?_⟩, fun hcompat => ?_,
      fun hdom hheld hroom => ?_, fun hfull => ?_, fun hdom hheld hfirst hlate => ?_, fun hearly => ?_⟩
    · have hon : s.evtOn m = true := by simp [State.evtOn, hdom, henabled]
      rw [State.evtEdge_of_watched hnative hon hedges, State.setPin]
    · rw [State.evtEdge_of_compat hcompat]
    · rw [State.evtRequest_of_high hhigh]
    · rw [State.evtRequest_of_unwatched hcompat hlow hoff, State.setPin]
    · rw [State.evtRequest_of_watched hcompat hlow hon]
      exact congrArg _ (if_pos hroom)
    · rw [State.evtRequest_of_watched hcompat hlow hon]
      exact congrArg _ (if_neg (Bool.eq_false_iff.1 hfull))
    · rw [State.evtRelease_of_compat hcompat, State.setPin]
    · rw [State.evtAckAfterRoom_of_room hdom hheld hroom]
    · rw [State.evtAckAfterRoom_of_full hfull]
    · obtain ⟨hdraws, hvalue⟩ := s.roundFree_natCast 76 (s.raw - nth 0 s.xing.evtRaw m) 250
      exact ⟨_, _, hdraws, hvalue, by rw [State.evtWithheld_of_late hdom hheld hfirst hlate]⟩
    · rw [State.evtWithheld_of_early hearly]

end Sys2Proof.Machine
end

section
/-! What loads, stores, atomics and image instructions share: a core's registers, the errors that an access meets, and a
store (R153, R161, R169, R184). -/

namespace Sys2Proof.Machine

/-! ### Registers, flags and pc of a core -/

namespace CoreSt

variable (c : CoreSt) (d : Fin 16) (n : Nat)

theorem wv_eq_getW : c.wv d = (c.getW d).toNat := rfl

theorem advance_pc : (c.advance n).pc = BitVec.ofNat 40 (c.pc.toNat + n) := by
  simp [advance, BitVec.ofNat_add]

theorem advance_eq : c.advance n = { c with pc := BitVec.ofNat 40 (c.pc.toNat + n) } := by
  rw [← advance_pc]
  rfl

@[simp] theorem advance_zero : c.advance 0 = c := by simp [advance]

theorem advance_setW (v : Nat) : (c.setW d (BitVec.ofNat 64 v)).advance n = c.wrote d v n := by
  simp [advance_eq, setW, wrote, modNth_set]

theorem advance_setV (v : Nat) : (c.setV d (BitVec.ofNat 64 v)).advance n = c.wroteV d v n := by
  simp [advance_eq, setV, wroteV, modNth_set]

theorem setBit_eq_flagAfter : ∀ (old : BitVec 4) (k : Fin 4) (r : Bool), setBit old k r =
    BitVec.ofNat 4 (old.toNat - (if old.toNat.testBit k then 2 ^ k.val else 0) + (if r then 2 ^ k.val else 0)) := by
  decide

theorem advance_setFlag (k : Fin 4) (r : Bool) : (c.setFlag k r).advance n = c.flagged .set k r n := by
  rw [advance_eq, setFlag, setBit_eq_flagAfter]
  rfl

/-- A flag that is set before the pc moves. -/
theorem setFlag_eq_flagged (k : Fin 4) (r : Bool) : c.setFlag k r = c.flagged .set k r 0 := by
  rw [← advance_setFlag, advance_zero]

end CoreSt

theorem ofInt_eq_ofNat_asWord (i : Int) : BitVec.ofInt 64 i = BitVec.ofNat 64 (asWord i) := by
  apply BitVec.eq_of_toNat_eq
  have hlt : asWord i < 2 ^ 64 := by unfold asWord; omega
  rw [BitVec.toNat_ofInt, BitVec.toNat_ofNat, Nat.mod_eq_of_lt hlt, asWord]
  rfl

/-! ### What a change of a core leaves -/

section Cores

variable {l : Fin 16} {c : CoreSt} {but : List Nat} {s t : State}

theorem Ready.lt_cores_length (h : Ready l s) : l.val < s.cores.length := h.2.2.1

theorem modCore_core_self (hl : l.val < s.cores.length) (f : CoreSt → CoreSt) : (s.modCore l f).core l = f (s.core l) :=
  nth_modNth_self _ _ _ hl

theorem modCore_modCore (hl : l.val < s.cores.length) (f g : CoreSt → CoreSt) :
    (s.modCore l f).modCore l g = s.modCore l fun c => g (f c) := by
  rw [State.modCore, modCore_core_self hl]
  simp [State.modCore, State.setCore, modNth_set]

theorem coreBecomes_modCore (hl : l.val < s.cores.length) (f : CoreSt → CoreSt) :
    CoreBecomes l (f (s.core l)) [] s (s.modCore l f) :=
  ⟨modCore_core_self hl f, fun _ hk => nth_modNth_ne _ _ _ hk, fun _ _ => rfl, rfl⟩

/-- What a change of a core leaves, the counts of the retirement leave too. -/
theorem CoreBecomes.retired (h : CoreBecomes l c but s t) (before : State) :
    CoreBecomes l c but s (State.retire l before t) := by
  obtain ⟨hcore, hothers, hregs, heq⟩ := h
  obtain ⟨hcount, hrest⟩ := retire_only l before t
  have hcores : (State.retire l before t).cores = t.cores := by rw [hrest]
  refine ⟨?_, fun k hk => ?_, hregs.trans (hcount.mono (by simp)), ?_⟩
  · rw [State.core, hcores]
    exact hcore
  · rw [State.core, hcores]
    exact hothers k hk
  · rw [hrest, heq]

theorem CoreBecomes.mem (h : CoreBecomes l c but s t) : t.mem = s.mem := by
  obtain ⟨-, -, -, heq⟩ := h
  rw [heq]

/-- What a change of the core and the counts of the retirement leave of a state `w` that has the cores of `s` and the
registers of `u`: so a store's end looks. -/
theorem retire_stored {s u w : State} (hcores : w.cores = s.cores) (hregs : w.regs = u.regs)
    (hl : l.val < s.cores.length) (f : CoreSt → CoreSt) (before : State) :
    let t := State.retire l before (w.modCore l f)
    t.mem = w.mem ∧ t.core l = f (s.core l) ∧ SameCores l s t ∧
      SameRegs [R.HLT_PERF_OVF_LO, R.HLT_PERF_OVF_HI] u t := by
  intro t
  have hcore (k : Nat) : w.core k = s.core k := by rw [State.core, hcores, State.core]
  have hend : CoreBecomes l (f (w.core l)) [] w t := (coreBecomes_modCore (hcores ▸ hl) f).retired before
  have hmem := hend.mem
  obtain ⟨hself, hothers, hsame, -⟩ := hend
  refine ⟨hmem, hcore l ▸ hself, fun k hk => (hothers k hk).trans (hcore k), fun a ha => (hsame a ha).trans ?_⟩
  rw [State.reg, hregs, State.reg]

end Cores

/-! ### Errors that an access meets -/

namespace State

variable (s : State)

@[simp] theorem rowDue_cores (addr : Nat) : (s.rowDue addr).cores = s.cores := by
  unfold rowDue
  dsimp only
  repeat' split
  all_goals rfl

@[simp] theorem eccCorrect_cores (scrub : Bool) (addr : Nat) : (s.eccCorrect scrub addr).cores = s.cores := by
  unfold eccCorrect
  dsimp only
  split
  · rfl
  · split <;> simp [bump, modReg]

@[simp] theorem eccMeet_cores (addr n : Nat) : (s.eccMeet addr n).cores = s.cores := by
  rw [eccMeet]
  exact List.foldlRecOn (motive := fun t : State => t.cores = s.cores) _ _ rfl
    fun t ht w _ => (eccCorrect_cores t false w).trans ht

@[simp] theorem eccMeet_core (addr n l : Nat) : (s.eccMeet addr n).core l = s.core l := by simp [core]

@[simp] theorem eccMeet_mem (addr n : Nat) : (s.eccMeet addr n).mem = s.mem := by
  obtain ⟨⟨hmem, -⟩, -⟩ := eccMeet_only s addr n
  exact hmem

@[simp] theorem eccMeet_poisoned (addr n a : Nat) : (s.eccMeet addr n).poisoned a = s.poisoned a := by
  obtain ⟨⟨-, -, hpoison, -⟩, -⟩ := eccMeet_only s addr n
  rw [poisoned, hpoison, poisoned]

@[simp] theorem parityCount_mem (l p : Nat) : (s.parityCount l p).mem = s.mem := by unfold parityCount; split <;> rfl

@[simp] theorem parityCount_cores (l p : Nat) : (s.parityCount l p).cores = s.cores := by
  unfold parityCount; split <;> rfl

@[simp] theorem parityCount_core (l p k : Nat) : (s.parityCount l p).core k = s.core k := by simp [core]

@[simp] theorem parityCount_poisoned (l p a : Nat) : (s.parityCount l p).poisoned a = s.poisoned a := by
  unfold parityCount; split <;> rfl

theorem parityCount_zero (l : Nat) : s.parityCount l 0 = s := rfl

theorem sameRegs_parityCount (l p : Nat) : SameRegs [R.LC_PARITY_REFETCH l] s (s.parityCount l p) := by
  unfold parityCount
  split
  · exact SameRegs.refl _ s
  · exact sameRegs_setReg _ _ s

theorem parityCount_eq (l p : Nat) : s.parityCount l p = { s with regs := (s.parityCount l p).regs } := by
  unfold parityCount; split <;> rfl

theorem byteAt_eq_of_mem {s t : State} (h : t.mem = s.mem) (a : Nat) : t.byteAt a = s.byteAt a := SameMemory.of_eq h a

theorem bytesAt_eq_of_mem {s t : State} (h : t.mem = s.mem) (a n : Nat) : t.bytesAt a n = s.bytesAt a n := by
  induction n generalizing a with
  | zero => rfl
  | succ n ih => rw [bytesAt, bytesAt, ih, byteAt_eq_of_mem h]

theorem numAt_eq_of_mem {s t : State} (h : t.mem = s.mem) (a n : Nat) : t.numAt a n = s.numAt a n := by
  rw [numAt, numAt, bytesAt_eq_of_mem h]

theorem numAt_lt (a n : Nat) : s.numAt a n < 256 ^ n := by simpa [numAt] using leNat_lt (s.bytesAt a n)

/-- One byte is the number that it spells. -/
theorem numAt_one (a : Nat) : s.numAt a 1 = (s.byteAt a).toNat := by simp [numAt, bytesAt, leNat]

/-- A load goes on where fewer than three parity failures meet it and no word that it needs is lost. -/
theorem meetLoad_of_good {p : Fin 4} (hp : p.val < 3) {words : List Nat} (hgood : ∀ a ∈ words, s.poisoned a = false)
    (l addr len : Nat) (go : State → State) : s.meetLoad l addr len p words go = go (s.parityCount l p) := by
  have hnone : words.find? (s.parityCount l p).poisoned = none :=
    List.find?_eq_none.2 fun a ha => by rw [parityCount_poisoned, hgood a ha]; decide
  rw [meetLoad, parityMeet, if_neg (by omega)]
  simp only [hnone]

/-! ### A store -/

@[simp] theorem setBytes_cores (a : Nat) (bs : List Byte) : (s.setBytes a bs).cores = s.cores := by
  induction bs generalizing a s with
  | nil => rfl
  | cons b bs ih => exact ih ..

@[simp] theorem setBytes_regs (a : Nat) (bs : List Byte) : (s.setBytes a bs).regs = s.regs := by
  induction bs generalizing a s with
  | nil => rfl
  | cons b bs ih => exact ih ..

@[simp] theorem setNum_cores (a n v : Nat) : (s.setNum a n v).cores = s.cores := setBytes_cores ..

@[simp] theorem setNum_regs (a n v : Nat) : (s.setNum a n v).regs = s.regs := setBytes_regs ..

@[simp] theorem markTask_cores (l addr : Nat) : (s.markTask l addr).cores = s.cores := by
  unfold markTask
  dsimp only
  repeat' split
  all_goals rfl

@[simp] theorem markTask_regs (l addr : Nat) : (s.markTask l addr).regs = s.regs := by
  unfold markTask
  dsimp only
  repeat' split
  all_goals rfl

@[simp] theorem markTask_mem (l addr : Nat) : (s.markTask l addr).mem = s.mem := by
  unfold markTask
  dsimp only
  repeat' split
  all_goals rfl

end State

/-- The counts of parity failures are among what a load may change beside its core. -/
theorem CoreBecomes.of_parityCount {l : Fin 16} {c : CoreSt} {p : Nat} {s t : State}
    (h : CoreBecomes l c [] (s.parityCount l p) t) : CoreBecomes l c [R.LC_PARITY_REFETCH l] s t := by
  obtain ⟨hcore, hothers, hregs, heq⟩ := h
  refine ⟨hcore, fun k hk => (hothers k hk).trans (s.parityCount_core l p k), ?_, ?_⟩
  · exact ((s.sameRegs_parityCount l p).mono (by simp)).trans (hregs.mono (by simp))
  · rw [heq, s.parityCount_eq l p]

end Sys2Proof.Machine
end

section
/-! Atomics on shared data SRAM (R66 to R68, R171). -/

namespace Sys2Proof.Machine

/-- The bytes of an atomic's word. -/
def atomicSize (dbl : Bool) : Nat := if dbl then 8 else 4

/-- What an atomic's flag takes: only ACAS names one. -/
def atomicFlag (k : Option (Fin 4)) (wrote : Bool) (c : CoreSt) : CoreSt :=
  match k with
  | some k => c.setFlag k wrote
  | none => c

namespace State

/-- The store of an atomic that gives a new word. -/
def atomicWrite (l addr n : Nat) (r : Option Nat) (s : State) : State :=
  match r with
  | some v => (s.setNum addr n v).markTask l addr
  | none => s

section Write

variable (s : State) (l addr n : Nat) (r : Option Nat)

@[simp] theorem atomicWrite_cores : (s.atomicWrite l addr n r).cores = s.cores := by cases r <;> simp [atomicWrite]

@[simp] theorem atomicWrite_regs : (s.atomicWrite l addr n r).regs = s.regs := by cases r <;> simp [atomicWrite]

theorem atomicWrite_numAt :
    (s.atomicWrite l addr n r).numAt addr n = (r.map (· % 256 ^ n)).getD (s.numAt addr n) := by
  cases r with
  | none => rfl
  | some v => rw [atomicWrite, numAt_eq_of_mem (markTask_mem ..), setNum_numAt]; rfl

theorem atomicWrite_byteAt_outside {x : Nat} (h : x < addr ∨ addr + n ≤ x) :
    (s.atomicWrite l addr n r).byteAt x = s.byteAt x := by
  cases r with
  | none => rfl
  | some v => rw [atomicWrite, byteAt_eq_of_mem (markTask_mem ..), setNum_byteAt_outside s v h]

end Write

section Row

variable {s : State} {l : Fin 16} {dbl : Bool} {a : Fin 16} {addr : Nat}

/-- An aligned atomic on a good word of shared SRAM: the write of its new word, then its core. -/
theorem atomicRow_shared (hready : Ready l s) (haddr : (s.core l).wv a % 2 ^ 40 = addr)
    (haligned : addr % atomicSize dbl = 0) (hshared : s.regionOf addr = .shared) (hgood : s.poisoned addr = false)
    (d b : Fin 16) (f : Nat → Nat → Nat → Option Nat) (fl : Bool → CoreSt → CoreSt) :
    let n := atomicSize dbl
    let old := s.numAt addr n
    let r := f old ((s.core l).wv b % 2 ^ (8 * n)) ((s.core l).wv d % 2 ^ (8 * n))
    s.atomicRow l dbl d a b f fl = .next (retire l s (((s.eccMeet addr n).atomicWrite l addr n r).modCore l
      fun c => (fl r.isSome (c.setW d (BitVec.ofInt 64 (toSigned (8 * n) old)))).advance 4)) := by
  have hregion : ∀ t : State, t.regionOf addr = .shared := fun t =>
    (regionOf_eq_shared_iff addr).2 ((regionOf_eq_shared_iff addr).1 hshared)
  have hmeet : ∀ a ∈ [addr], (s.eccMeet addr (atomicSize dbl)).poisoned a = false := by simpa using hgood
  simp only [CoreSt.wv_eq_getW] at haddr ⊢
  simp only [atomicRow, ← atomicSize.eq_1, haddr]
  rw [memRow, if_neg (by simp [ddrWaits, hshared]), onCore_ready hready,
    if_neg (by simp [atomicOk, haligned, hshared]), meetLoad_of_good _ (by decide) hmeet]
  simp only [hregion, reduceCtorEq, false_and, if_false, Fin.val_zero, parityCount_zero]
  rw [numAt_eq_of_mem (s.eccMeet_mem ..)]
  rfl

/-- What an aligned atomic on a good word of shared SRAM leaves. -/
theorem atomicRow_outcome (hready : Ready l s) (haddr : (s.core l).wv a % 2 ^ 40 = addr)
    (haligned : addr % atomicSize dbl = 0) (hshared : s.regionOf addr = .shared) (hgood : s.poisoned addr = false)
    (d b : Fin 16) (f : Nat → Nat → Nat → Option Nat) (fl : Bool → CoreSt → CoreSt) :
    let n := atomicSize dbl
    let old := s.numAt addr n
    let r := f old ((s.core l).wv b % 2 ^ (8 * n)) ((s.core l).wv d % 2 ^ (8 * n))
    ∃ t, s.atomicRow l dbl d a b f fl = .next t ∧ t.numAt addr n = (r.map (· % 256 ^ n)).getD old ∧
      (∀ x, x < addr ∨ addr + n ≤ x → t.byteAt x = s.byteAt x) ∧
      t.core l = (fl r.isSome ((s.core l).setW d (BitVec.ofInt 64 (toSigned (8 * n) old)))).advance 4 ∧
      SameCores l s t ∧ SameRegs [R.HLT_PERF_OVF_LO, R.HLT_PERF_OVF_HI] (s.eccMeet addr n) t := by
  intro n old r
  have hmeet : (s.eccMeet addr n).mem = s.mem := s.eccMeet_mem ..
  obtain ⟨hmem, hcore, hothers, hregs⟩ := retire_stored (s := s) (u := s.eccMeet addr n)
    (w := (s.eccMeet addr n).atomicWrite l addr n r) (by simp) (by simp) hready.lt_cores_length
    (fun c => (fl r.isSome (c.setW d (BitVec.ofInt 64 (toSigned (8 * n) old)))).advance 4) s
  refine ⟨_, atomicRow_shared hready haddr haligned hshared hgood d b f fl, ?_, fun x hx => ?_, hcore, hothers, hregs⟩
  · rw [numAt_eq_of_mem hmem, atomicWrite_numAt, numAt_eq_of_mem hmeet]
  · rw [byteAt_eq_of_mem hmem, atomicWrite_byteAt_outside _ _ _ _ _ hx, byteAt_eq_of_mem hmeet]

end Row

end State

/-! ### The forms -/

theorem toSigned_injOn {bits x y : Nat} (hx : x < 2 ^ bits) (hy : y < 2 ^ bits)
    (h : toSigned bits x = toSigned bits y) : x = y := by
  simp only [toSigned, Nat.mod_eq_of_lt hx, Nat.mod_eq_of_lt hy] at h
  split at h <;> split at h <;> omega

theorem pickSigned_larger (bits x y : Nat) :
    pickSigned bits true x y = if toSigned bits x < toSigned bits y then y else x := by simp [pickSigned]

/-- Where the two are equal as signed numbers, it does not matter which is taken. -/
theorem pickSigned_smaller {bits x y : Nat} (hx : x < 2 ^ bits) (hy : y < 2 ^ bits) :
    pickSigned bits false x y = if toSigned bits y < toSigned bits x then y else x := by
  obtain hlt | heq | hgt := Int.lt_trichotomy (toSigned bits x) (toSigned bits y)
  · rw [pickSigned, decide_eq_true hlt, if_neg (by decide), if_neg (Int.not_lt.2 (Int.le_of_lt hlt))]
  · obtain rfl := toSigned_injOn hx hy heq
    rw [pickSigned, ite_self, ite_self]
  · rw [pickSigned, decide_eq_false (Int.not_lt.2 (Int.le_of_lt hgt)), if_pos (by decide), if_pos hgt]

/-- The new word of a form agrees with the model's, cut to the word's size. -/
def AtomicAgrees (bits : Nat) (g : Nat → Nat → Nat → Option Nat) (f : Nat → Nat → Nat → Nat → Option Nat) : Prop :=
  ∀ m x w, m < 2 ^ bits → x < 2 ^ bits → (g m x w).map (· % 2 ^ bits) = f bits m x w

theorem AtomicAgrees.of_lt {bits : Nat} {g : Nat → Nat → Nat → Nat}
    (h : ∀ m x w, m < 2 ^ bits → x < 2 ^ bits → g m x w < 2 ^ bits) :
    AtomicAgrees bits (fun m x w => some (g m x w)) (fun _ m x w => some (g m x w)) := fun m x w hm hx => by
  rw [Option.map_some, Nat.mod_eq_of_lt (h m x w hm hx)]

/-- Every atomic is one atomic row, whose function agrees with its form's. -/
theorem exec_of_atomicForm {i : Instr} {l d a b : Fin 16} {dbl : Bool} {k : Option (Fin 4)}
    {f : Nat → Nat → Nat → Nat → Option Nat} (h : atomicForm i = some (l, dbl, d, a, b, k, f)) (s : State) :
    ∃ g, exec i s = s.atomicRow l dbl d a b g (atomicFlag k) ∧ AtomicAgrees (8 * atomicSize dbl) g f := by
  have hbits : (if dbl then 64 else 32) = 8 * atomicSize dbl := by cases dbl <;> rfl
  unfold atomicForm at h
  split at h <;> simp only [Option.some.injEq, Prod.mk.injEq, reduceCtorEq] at h
  all_goals obtain ⟨rfl, rfl, rfl, rfl, rfl, rfl, rfl⟩ := h
  case h_1 => exact ⟨fun _ x _ => some x, rfl, .of_lt fun _ _ _ _ hx => hx⟩
  case h_2 => exact ⟨fun m x _ => some (m + x), rfl, fun _ _ _ _ _ => rfl⟩
  case h_3 => exact ⟨fun m x _ => some (m &&& x), rfl, .of_lt fun _ _ _ hm _ => Nat.lt_of_le_of_lt Nat.and_le_left hm⟩
  case h_4 => exact ⟨fun m x _ => some (m ||| x), rfl, .of_lt fun _ _ _ => Nat.or_lt_two_pow⟩
  case h_5 => exact ⟨fun m x _ => some (m ^^^ x), rfl, .of_lt fun _ _ _ => Nat.xor_lt_two_pow⟩
  case h_6 _ _ dbl _ _ _ _ =>
    refine ⟨fun m x _ => some (pickSigned (if dbl then 64 else 32) false m x), rfl, fun m x w hm hx => ?_⟩
    simp only [hbits, pickSigned_smaller hm hx, Option.map_some, Option.some.injEq]
    exact Nat.mod_eq_of_lt (by split <;> assumption)
  case h_7 _ _ dbl _ _ _ _ =>
    refine ⟨fun m x _ => some (pickSigned (if dbl then 64 else 32) true m x), rfl, fun m x w hm hx => ?_⟩
    simp only [hbits, pickSigned_larger, Option.map_some, Option.some.injEq]
    exact Nat.mod_eq_of_lt (by split <;> assumption)
  case h_8 => exact ⟨fun m x _ => some (min m x), rfl, .of_lt fun _ _ _ hm _ => Nat.lt_of_le_of_lt (Nat.min_le_left ..) hm⟩
  case h_9 => exact ⟨fun m x _ => some (max m x), rfl, .of_lt fun _ _ _ hm hx => Nat.max_lt.2 ⟨hm, hx⟩⟩
  case h_10 =>
    refine ⟨fun m x w => if m = w then some x else none, rfl, fun m x w hm hx => ?_⟩
    by_cases heq : m = w <;> simp [heq, Nat.mod_eq_of_lt hx]

/-- An atomic's core: the old word, and for ACAS the flag. -/
theorem atomic_core (c : CoreSt) (d : Fin 16) (old : Int) (k : Option (Fin 4)) (wrote : Bool) :
    (atomicFlag k wrote (c.setW d (BitVec.ofInt 64 old))).advance 4 =
      match k with
      | some k => (c.wrote d (asWord old) 0).flagged .set k wrote 4
      | none => c.wrote d (asWord old) 4 := by
  rw [ofInt_eq_ofNat_asWord]
  cases k with
  | none => exact c.advance_setW d 4 _
  | some k =>
    have hset : c.wrote d (asWord old) 0 = c.setW d (BitVec.ofNat 64 (asWord old)) := by
      rw [← CoreSt.advance_setW, CoreSt.advance_zero]
    rw [atomicFlag, hset, CoreSt.advance_setFlag]

/-- An aligned atomic on a good word of shared SRAM, by its form: value, flag and frame. -/
theorem atomics_replace_one_word {s : State} {i : Instr} {l d a b : Fin 16} {dbl : Bool} {k : Option (Fin 4)}
    {f : Nat → Nat → Nat → Nat → Option Nat} (hform : atomicForm i = some (l, dbl, d, a, b, k, f)) (hready : Ready l s)
    (n addr : Nat) (hn : n = if dbl then 8 else 4) (haddr : addr = (s.core l).wv a % 2 ^ 40) (haligned : addr % n = 0)
    (hshared : s.regionOf addr = .shared) (hgood : s.poisoned addr = false) :
    let new := f (8 * n) (s.numAt addr n) ((s.core l).wv b % 2 ^ (8 * n)) ((s.core l).wv d % 2 ^ (8 * n))
    ∃ t, exec i s = .next t ∧ t.numAt addr n = new.getD (s.numAt addr n) ∧
       (∀ x, x < addr ∨ addr + n ≤ x → t.byteAt x = s.byteAt x) ∧
       t.core l = (match k with
         | some k => ((s.core l).wrote d (asWord (toSigned (8 * n) (s.numAt addr n))) 0).flagged .set k new.isSome 4
         | none => (s.core l).wrote d (asWord (toSigned (8 * n) (s.numAt addr n))) 4) ∧
       SameCores l s t ∧ SameRegs [R.HLT_PERF_OVF_LO, R.HLT_PERF_OVF_HI] (s.eccMeet addr n) t := by
  obtain rfl : n = atomicSize dbl := hn
  have hpow : 256 ^ atomicSize dbl = 2 ^ (8 * atomicSize dbl) := by rw [Nat.pow_mul]
  obtain ⟨g, hexec, hagrees⟩ := exec_of_atomicForm hform s
  have hnew := hagrees _ _ ((s.core l).wv d % 2 ^ (8 * atomicSize dbl)) (hpow ▸ s.numAt_lt addr (atomicSize dbl))
    (Nat.mod_lt ((s.core l).wv b) (Nat.two_pow_pos (8 * atomicSize dbl)))
  obtain ⟨t, hrow, hnum, hbytes, hcore, hothers, hregs⟩ :=
    State.atomicRow_outcome hready haddr.symm haligned hshared hgood d b g (atomicFlag k)
  rw [hpow, hnew] at hnum
  rw [atomic_core, ← Option.isSome_map (f := (· % 2 ^ (8 * atomicSize dbl))), hnew] at hcore
  exact ⟨t, hexec.trans hrow, hnum, hbytes, hcore, hothers, hregs⟩

end Sys2Proof.Machine
end

section
/-! Image instructions on an entry of their class (R169, R172 to R176, R184). -/

namespace Sys2Proof.Machine

/-! ### Entries -/

theorem imageIndex_eq (s : State) (l : Fin 16) (base : Option (Fin 16)) (off : Imm 10) :
    (((base.map (s.core l).getW).getD 0) + immU off).toNat = imageIndex s l base off := by
  have hbase : ((base.map (s.core l).getW).getD 0).toNat = (base.map (s.core l).wv).getD 0 := by cases base <;> rfl
  have hoff : (immU off).toNat = match off with | .short v => v.toNat | .literal w => w.toNat := by
    cases off with
    | short v => exact BitVec.toNat_setWidth_of_le (by decide)
    | literal w => exact BitVec.toNat_setWidth_of_le (by decide)
  rw [BitVec.toNat_add, hbase, hoff]
  rfl

theorem imageEntry_eq (s : State) (l : Fin 16) (out : Bool) (index : Nat) :
    (if out = true then s.outSection (s.core l).task else s.inSection (s.core l).task) + 16 * index =
      imageEntry s l out index := rfl

theorem qualityTest_eq (c : CoreSt) (q : Nat) :
    State.qualityTest c q = ((q &&& c.qtest.toNat % 256) == c.qtest.toNat / 256 % 256) := by
  simp [State.qualityTest, field, Nat.shiftRight_eq_div_pow]

theorem toInt_ofNat_eq_toSigned (v : Nat) : (BitVec.ofNat 32 v).toInt = toSigned 32 v := by
  rw [BitVec.toInt_eq_toNat_cond, BitVec.toNat_ofNat]
  simp only [toSigned]
  split <;> split <;> omega

/-- The value of an integer-class entry as a number of a register. -/
theorem loadInt_eq (s : State) (addr ty : Nat) : s.loadInt addr ty = BitVec.ofNat 64
    (if ty = 1 then s.numAt addr 1 else if ty = 2 then asWord (toSigned 32 (s.numAt addr 4))
      else if ty = 3 then s.numAt addr 4 else s.numAt addr 8) := by
  unfold State.loadInt
  split
  · rfl
  · rw [BitVec.signExtend, toInt_ofNat_eq_toSigned, ofInt_eq_ofNat_asWord]
    rfl
  · rfl
  · rw [if_neg ‹_›, if_neg ‹_›, if_neg ‹_›]

/-- The size of an entry's value (R173). -/
theorem typeSize_eq {ty : Nat} (h : 1 ≤ ty ∧ ty ≤ 5 ∨ ty = 8 ∨ ty = 9) :
    typeSize ty = if ty = 1 then 1 else if ty = 2 ∨ ty = 3 ∨ ty = 8 then 4 else 8 := by
  obtain rfl | rfl | rfl | rfl | rfl | rfl | rfl :
    ty = 1 ∨ ty = 2 ∨ ty = 3 ∨ ty = 4 ∨ ty = 5 ∨ ty = 8 ∨ ty = 9 := by omega
  all_goals rfl

theorem isInt_eq_true {ty : Nat} (h : 1 ≤ ty ∧ ty ≤ 5) : isInt ty = true := decide_eq_true h

theorem isFloat_eq_true {ty : Nat} (h : ty = 8 ∨ ty = 9) : isFloat ty = true := decide_eq_true h

theorem isInt_or_isFloat {ty : Nat} (h : 1 ≤ ty ∧ ty ≤ 5 ∨ ty = 8 ∨ ty = 9) : (isInt ty || isFloat ty) = true := by
  rcases h with hint | hfloat
  · rw [isInt_eq_true hint, Bool.true_or]
  · rw [isFloat_eq_true hfloat, Bool.or_true]

/-- The value of a float-class entry as a register holds it: a type of 4 bytes clears the upper half (R154, R174). -/
theorem setF_typeSize (c : CoreSt) (d : Fin 16) (s : State) (addr : Nat) {ty : Nat} (h : ty = 8 ∨ ty = 9) :
    c.setF (ty == 9) d (s.numAt addr (typeSize ty)) =
      c.setV d (BitVec.ofNat 64 (s.numAt addr (if ty = 8 then 4 else 8))) := by
  rcases h with rfl | rfl
  · have hlt : s.numAt addr 4 < 2 ^ 32 := s.numAt_lt addr 4
    exact congrArg (fun v => c.setV d (BitVec.ofNat 64 v)) (Nat.mod_eq_of_lt hlt)
  · rfl

/-! ### The row of an image instruction -/

/-- An image instruction of core `l` names the entry of a type at an address, and nothing stops its reading: it lies in
the section, fewer than three parity failures in a row meet it, and no word of it that is needed is lost. -/
structure EntryReadable (s : State) (l : Fin 16) (base : Option (Fin 16)) (x : ImageRead) (off : Imm 10)
    (words : List Nat) (addr ty : Nat) : Prop where
  ready : Ready l s
  inside : imageIndex s l base off <
    (s.reg (if x.out then R.CYC_OUT_COUNT (s.core l).task else R.CYC_IN_COUNT (s.core l).task)).toNat
  named : imageEntry s l x.out (imageIndex s l base off) = addr
  type : (s.byteAt (addr + 9)).toNat = ty
  parity : x.parity.val < 3
  words_good : ∀ w ∈ words, s.poisoned (addr + w) = false
  type_good : s.poisoned (addr + 8) = false

namespace State

section Row

variable {s : State} {l : Fin 16} {base : Option (Fin 16)} {x : ImageRead} {off : Imm 10} {words : List Nat}
  {addr ty : Nat} {ok : Nat → Bool} {f : Nat → Nat → State → State}

/-- An image instruction on an entry of its class: its effect, then the pc moves on. -/
theorem imageRow_of_readable (h : EntryReadable s l base x off words addr ty) (hok : ok ty = true) :
    s.imageRow l base x off words ok f = .next (retire l s
      ((f addr ty ((s.eccMeet addr 16).parityCount l x.parity)).modCore l fun c => c.advance (immLen off))) := by
  obtain ⟨hready, hinside, hnamed, hty, hp, hwords, htype⟩ := h
  have hcount : ¬ (if x.out then s.outCount (s.core l).task else s.inCount (s.core l).task) ≤
      imageIndex s l base off := by
    rw [Nat.not_le]
    cases hout : x.out <;> simpa [hout, inCount, outCount] using hinside
  have hgood : ∀ a ∈ words.map (addr + ·) ++ [addr + 8], (s.eccMeet addr 16).poisoned a = false := by
    simpa [or_imp, forall_and] using And.intro hwords htype
  have hread : (((s.eccMeet addr 16).parityCount l x.parity).byteAt (addr + 9)).toNat = ty := by
    rw [byteAt_eq_of_mem (s := s) (by simp), hty]
  rw [imageRow, onCore_ready hready]
  simp only [imageIndex_eq, if_neg hcount, imageEntry_eq, hnamed]
  rw [meetLoad_of_good _ hp hgood]
  simp [hread, hok]

/-- An image instruction whose effect is a change of the core. -/
theorem imageRow_becomes (h : EntryReadable s l base x off words addr ty) (hok : ok ty = true) (g : CoreSt → CoreSt)
    (hf : ∀ t : State, t.mem = s.mem → t.cores = s.cores → f addr ty t = t.modCore l g) :
    ∃ t, s.imageRow l base x off words ok f = .next t ∧
      CoreBecomes l ((g (s.core l)).advance (immLen off)) [R.LC_PARITY_REFETCH l] (s.eccMeet addr 16) t := by
  have hmet : ((s.eccMeet addr 16).parityCount l x.parity).cores = s.cores := by simp
  have hl : l.val < ((s.eccMeet addr 16).parityCount l x.parity).cores.length := hmet ▸ h.ready.lt_cores_length
  refine ⟨_, imageRow_of_readable h hok, ?_⟩
  rw [hf _ (by simp) hmet, modCore_modCore hl]
  have hend := ((coreBecomes_modCore hl fun c => (g c).advance (immLen off)).retired s).of_parityCount
  rwa [parityCount_core, eccMeet_core] at hend

/-- An image instruction that tests the entry's quality into a flag, then changes the core. -/
theorem imageRow_tests_quality (h : EntryReadable s l base x off words addr ty) (hok : ok ty = true) (k : Fin 4)
    (put : CoreSt → CoreSt)
    (hf : ∀ t : State, t.mem = s.mem → f addr ty t = (t.testQuality l k addr).modCore l put) :
    ∃ t, s.imageRow l base x off words ok f = .next t ∧
      CoreBecomes l ((put ((s.core l).flagged .set k (qualityTest (s.core l) (s.byteAt (addr + 8)).toNat) 0)).advance
        (immLen off)) [R.LC_PARITY_REFETCH l] (s.eccMeet addr 16) t := by
  rw [← CoreSt.setFlag_eq_flagged]
  refine imageRow_becomes h hok (fun c => put (c.setFlag k (qualityTest c (s.byteAt (addr + 8)).toNat)))
    fun t hmem hcores => ?_
  rw [hf t hmem, testQuality, modCore_modCore (hcores ▸ h.ready.lt_cores_length), byteAt_eq_of_mem hmem]

/-- An image instruction that stores a number in the entry. -/
theorem imageRow_stores (h : EntryReadable s l base ⟨true, 0⟩ off words addr ty) (hok : ok ty = true) (size v : Nat)
    (hf : ∀ t : State, t.cores = s.cores → f addr ty t = t.setNum addr size v) :
    ∃ t, s.imageRow l base ⟨true, 0⟩ off words ok f = .next t ∧ t.numAt addr size = v % 2 ^ (8 * size) ∧
      (∀ a, a < addr ∨ addr + size ≤ a → t.byteAt a = s.byteAt a) ∧
      t.core l = { s.core l with pc := BitVec.ofNat 40 ((s.core l).pc.toNat + immLen off) } ∧ SameCores l s t ∧
      SameRegs [R.HLT_PERF_OVF_LO, R.HLT_PERF_OVF_HI] (s.eccMeet addr 16) t := by
  obtain ⟨hmem, hcore, hothers, hregs⟩ := retire_stored (s := s) (u := s.eccMeet addr 16)
    (w := (s.eccMeet addr 16).setNum addr size v) (by simp) (by simp) h.ready.lt_cores_length
    (fun c => c.advance (immLen off)) s
  rw [CoreSt.advance_eq] at hcore
  refine ⟨_, imageRow_of_readable h hok, ?_⟩
  rw [Fin.val_zero, parityCount_zero, hf _ (s.eccMeet_cores ..)]
  refine ⟨?_, fun a ha => ?_, hcore, hothers, hregs⟩
  · rw [numAt_eq_of_mem hmem, setNum_numAt, Nat.pow_mul]
  · rw [byteAt_eq_of_mem hmem, setNum_byteAt_outside _ v ha, byteAt_eq_of_mem (s.eccMeet_mem ..)]

end Row

/-! ### The instructions -/

section Instructions

variable {s : State} {l d : Fin 16} {base : Option (Fin 16)} {x : ImageRead} {off : Imm 10} {addr ty : Nat} (k : Fin 4)

theorem execImldI_outcome (h : EntryReadable s l base x off [0] addr ty) (hint : 1 ≤ ty ∧ ty ≤ 5) :
    ∃ t, execImldI l d base x k off s = .next t ∧
      CoreBecomes l (((s.core l).flagged .set k (qualityTest (s.core l) (s.byteAt (addr + 8)).toNat) 0).wrote d
          (if ty = 1 then s.numAt addr 1 else if ty = 2 then asWord (toSigned 32 (s.numAt addr 4))
            else if ty = 3 then s.numAt addr 4 else s.numAt addr 8) (immLen off))
        [R.LC_PARITY_REFETCH l] (s.eccMeet addr 16) t := by
  rw [← CoreSt.advance_setW, ← loadInt_eq]
  refine imageRow_tests_quality h (isInt_eq_true hint) k (CoreSt.setW d (s.loadInt addr ty)) fun t hmem => ?_
  simp only [loadInt_eq, numAt_eq_of_mem hmem]

theorem execImldF_outcome (h : EntryReadable s l base x off [0] addr ty) (hfloat : ty = 8 ∨ ty = 9) :
    ∃ t, execImldF l d base x k off s = .next t ∧
      CoreBecomes l (((s.core l).flagged .set k (qualityTest (s.core l) (s.byteAt (addr + 8)).toNat) 0).wroteV d
          (s.numAt addr (if ty = 8 then 4 else 8)) (immLen off))
        [R.LC_PARITY_REFETCH l] (s.eccMeet addr 16) t := by
  rw [← CoreSt.advance_setV]
  refine imageRow_tests_quality h (isFloat_eq_true hfloat) k _ fun t hmem => ?_
  simp only [setF_typeSize _ _ _ _ hfloat, numAt_eq_of_mem hmem]

theorem execImq_outcome (h : EntryReadable s l base x off [] addr ty) (hclass : 1 ≤ ty ∧ ty ≤ 5 ∨ ty = 8 ∨ ty = 9) :
    ∃ t, execImq l d base x k off s = .next t ∧
      CoreBecomes l (((s.core l).flagged .set k (qualityTest (s.core l) (s.byteAt (addr + 8)).toNat) 0).wrote d
          (s.byteAt (addr + 8)).toNat (immLen off))
        [R.LC_PARITY_REFETCH l] (s.eccMeet addr 16) t := by
  rw [← CoreSt.advance_setW]
  refine imageRow_tests_quality h (isInt_or_isFloat hclass) k _ fun t hmem => ?_
  simp only [numAt_one, byteAt_eq_of_mem hmem]

theorem execImts_outcome (h : EntryReadable s l base x off [] addr ty) (hclass : 1 ≤ ty ∧ ty ≤ 5 ∨ ty = 8 ∨ ty = 9) :
    ∃ t, execImts l d base x off s = .next t ∧
      CoreBecomes l ((s.core l).wrote d (s.numAt (addr + 12) 4) (immLen off)) [R.LC_PARITY_REFETCH l]
        (s.eccMeet addr 16) t := by
  rw [← CoreSt.advance_setW]
  refine imageRow_becomes h (isInt_or_isFloat hclass) _ fun t hmem _ => ?_
  simp only [numAt_eq_of_mem hmem]

end Instructions

end State

/-- The number that IMST.I or IMST.F stores in an entry: a BOOL takes 1 for any value but 0 (R174). -/
def imstValue (c : CoreSt) (d : Fin 16) (ty : Nat) : Nat :=
  if ty = 8 ∨ ty = 9 then (nth 0 c.v d).toNat else if ty = 1 then min (c.wv d) 1 else c.wv d

/-- IMST.I and IMST.F store the low bytes of their type's size. -/
theorem exec_imst_outcome {s : State} {l d : Fin 16} {base : Option (Fin 16)} {off : Imm 10} {addr ty : Nat} {i : Instr}
    (h : EntryReadable s l base ⟨true, 0⟩ off [] addr ty)
    (hi : (1 ≤ ty ∧ ty ≤ 5 ∧ i = .imstI l d base off) ∨ ((ty = 8 ∨ ty = 9) ∧ i = .imstF l d base off)) :
    ∃ t, exec i s = .next t ∧
      t.numAt addr (typeSize ty) = imstValue (s.core l) d ty % 2 ^ (8 * typeSize ty) ∧
      (∀ a, a < addr ∨ addr + typeSize ty ≤ a → t.byteAt a = s.byteAt a) ∧
      t.core l = { s.core l with pc := BitVec.ofNat 40 ((s.core l).pc.toNat + immLen off) } ∧ SameCores l s t ∧
      SameRegs [R.HLT_PERF_OVF_LO, R.HLT_PERF_OVF_HI] (s.eccMeet addr 16) t := by
  rcases hi with ⟨hlo, hhi, rfl⟩ | ⟨hfloat, rfl⟩
  · have hvalue : imstValue (s.core l) d ty = if ty = 1 then min ((s.core l).wv d) 1 else (s.core l).wv d :=
      if_neg (by omega)
    change ∃ t, execImstI l d base off s = .next t ∧ _
    refine State.imageRow_stores h (isInt_eq_true ⟨hlo, hhi⟩) _ _ fun t hcores => ?_
    rw [hvalue, State.core, hcores]
    rfl
  · have hvalue : imstValue (s.core l) d ty = (nth 0 (s.core l).v d).toNat := if_pos hfloat
    change ∃ t, execImstF l d base off s = .next t ∧ _
    refine State.imageRow_stores h (isFloat_eq_true hfloat) _ _ fun t hcores => ?_
    rw [hvalue, State.core, hcores]
    rfl

/-- Settles O26: an atomic is one store of its row's new word; an image instruction is a change of its core, or one
store, on an entry that can be read. -/
theorem atomicsAndImageAccesses : Obligations.AtomicsAndImageAccesses := by
  constructor
  · intro s i l dbl d a b f k _ hform hready n addr new haligned hshared hgood
    exact atomics_replace_one_word hform hready n addr rfl rfl haligned hshared hgood
  · intro s l d base out k p off hready c index addr ty q n good hin hvalue htype hp u
    have hn : n = immLen off := by cases off <;> rfl
    have hq : good = State.qualityTest c q := (qualityTest_eq c q).symm
    have hentry (words : List Nat) (hwords : ∀ w ∈ words, s.poisoned (addr + w) = false) (p : Fin 4) (hp : p.val < 3) :
        EntryReadable s l base ⟨out, p⟩ off words addr ty :=
      ⟨hready, by cases out <;> exact hin, rfl, rfl, hp, hwords, htype⟩
    have hload := hentry [0] (by simpa using hvalue) p hp
    have hread := hentry [] (by simp) p hp
    rw [hn, hq]
    refine ⟨fun hint => State.execImldI_outcome k hload hint, fun hfloat => State.execImldF_outcome k hload hfloat,
      fun hclass => ⟨State.execImq_outcome k hread hclass, State.execImts_outcome hread hclass⟩, fun hout _ i hi => ?_⟩
    subst hout
    have hclass : 1 ≤ ty ∧ ty ≤ 5 ∨ ty = 8 ∨ ty = 9 :=
      hi.imp (fun ⟨hlo, hhi, _⟩ => ⟨hlo, hhi⟩) fun ⟨hfloat, _⟩ => hfloat
    rw [← typeSize_eq hclass]
    exact exec_imst_outcome (hentry [] (by simp) 0 (by decide)) hi

end Sys2Proof.Machine
end

section
/-! Rings: doorbells, enabling, disabling, draining and fetching (R88 to R102). -/

namespace Sys2Proof.Machine

/-! ### Fields of a register -/

section Fields

variable {n : Nat}

theorem getLsbD_setField (w : BitVec n) {hi : Nat} (hn : hi < n) (lo v i : Nat) :
    (setField w hi lo v).getLsbD i = if lo ≤ i ∧ i ≤ hi then v.testBit (i - lo) else w.getLsbD i := by
  have hmask : ((BitVec.ofNat n (2 ^ (hi + 1 - lo) - 1)) <<< lo).getLsbD i = decide (lo ≤ i ∧ i ≤ hi) := by
    simp only [BitVec.getLsbD_shiftLeft, BitVec.getLsbD_ofNat, Nat.testBit_two_pow_sub_one]
    grind
  simp only [setField, BitVec.getLsbD_or, BitVec.getLsbD_and, BitVec.getLsbD_not, hmask, BitVec.getLsbD_shiftLeft,
    BitVec.getLsbD_ofNat]
  by_cases hin : lo ≤ i ∧ i ≤ hi
  · simp [hin, show i < n by omega, show ¬ i < lo by omega, show i - lo < n by omega]
  · by_cases hi_n : i < n
    · simp [hin, hi_n]
    · simp [hin, hi_n, BitVec.getLsbD_of_ge w i (by omega)]

theorem testBit_field (w : BitVec n) (hi lo j : Nat) :
    (field w hi lo).testBit j = (decide (j < hi + 1 - lo) && w.getLsbD (lo + j)) := by
  simp [field, BitVec.getLsbD]

/-- A field reads back what was put into it, and a lower part of it that value's lower part. -/
theorem field_setField (w : BitVec n) {hi hi' lo : Nat} (hn : hi < n) (h : hi' ≤ hi) (v : Nat) :
    field (setField w hi lo v) hi' lo = v % 2 ^ (hi' + 1 - lo) := by
  apply Nat.eq_of_testBit_eq
  intro j
  rw [testBit_field, getLsbD_setField w hn, Nat.testBit_mod_two_pow]
  by_cases hj : j < hi' + 1 - lo
  · rw [if_pos (by omega), Nat.add_sub_cancel_left]
  · simp [hj]

end Fields

namespace State

theorem reg_setReg (s : State) (a k : Nat) (v : Word) : (s.setReg a v).reg k = if k = a then v else s.reg k := by
  split
  · subst_vars; exact setReg_reg ..
  · exact s.setReg_reg_ne ‹_› v

section Shadow

variable (s : State) (n : Nat)

theorem emitHost_regs (o : Out) : (s.emitHost o).regs = s.regs := by unfold emitHost; split <;> rfl

theorem emitHost_mem (o : Out) : (s.emitHost o).mem = s.mem := by unfold emitHost; split <;> rfl

theorem writeShadow_reg (a : Nat) : (s.writeShadow n).reg a = s.reg a := by rw [reg, writeShadow, emitHost_regs, reg]

theorem writeShadow_mem : (s.writeShadow n).mem = s.mem := emitHost_mem ..

end Shadow

/-! ### Doorbells -/

section Doorbells

variable {s : State} {n : Nat} {v : Word}

theorem sqTail_of_inactive (h : s.ringState n ≠ 1) : s.sqTail n v = s := if_pos h

theorem sqTail_of_outside (h : s.ringState n = 1) (hv : s.ringSize n ≤ v.toNat) : s.sqTail n v = s.ringError n 1 := by
  rw [sqTail, if_neg (not_not_intro h), if_pos hv]

theorem sqTail_of_inside (h : s.ringState n = 1) (hv : v.toNat < s.ringSize n) :
    s.sqTail n v = s.setReg (R.CMD_RING_SQ_TAIL n) v := by
  rw [sqTail, if_neg (not_not_intro h), if_neg (Nat.not_le.2 hv)]

theorem cqHead_of_inactive (h : s.ringState n ≠ 1) : s.cqHead n v = s := if_pos h

/-- An ACTIVE ring takes a head inside the ring that does not pass the tail; any other stops it. -/
theorem cqHead_of_active (h : s.ringState n = 1) :
    s.cqHead n v =
      let passed (x : Nat) := (x + s.ringSize n - (s.reg (R.CMD_RING_CQ_HEAD n)).toNat) % s.ringSize n
      if s.ringSize n ≤ v.toNat ∨ passed (s.reg (R.CMD_RING_CQ_TAIL n)).toNat < passed v.toNat then s.ringError n 1
      else s.setReg (R.CMD_RING_CQ_HEAD n) v := by
  simp [cqHead, h]

end Doorbells

/-! ### Enabling and disabling -/

section Enable

variable {s : State} {n : Nat}

theorem ringCfgWrite_enable (h : s.ringState n = 0) {v : Word} (hon : bit v 0 = true) :
    s.ringCfgWrite n v = (s.setReg (R.CMD_RING_CFG n) (v &&& 0x00FF0FF1)).ringActivate n := by
  simp [ringCfgWrite, h, hon]

theorem ringCfgWrite_disable (h : s.ringState n = 1 ∨ s.ringState n = 3) {v : Word} (hoff : bit v 0 = false) :
    s.ringCfgWrite n v = (s.setRegBit (R.CMD_RING_CFG n) 0 false).ringDrain n := by
  rcases h with h | h <;> simp [ringCfgWrite, h, hoff]

theorem ringActivate_of_invalid (h : s.regField (R.CMD_RING_CFG n) 7 4 < 4 ∨ 12 < s.regField (R.CMD_RING_CFG n) 7 4 ∨
    s.regField (R.CMD_RING_CFG n) 23 16 = 0 ∨ 128 < s.regField (R.CMD_RING_CFG n) 23 16) :
    s.ringActivate n = s.setReg (R.CMD_RING_STATUS n) 0x30 := if_pos h

/-- The registers of ring `n` as its activation leaves them. -/
def ringCleared (n : Nat) (s : State) : State :=
  let limit := min (s.regField (R.CMD_RING_CFG n) 23 16) (2 ^ s.regField (R.CMD_RING_CFG n) 7 4 - 1)
  (((((s.setRegField (R.CMD_RING_CFG n) 23 16 limit).setRegField (R.CMD_RING_STATUS n) 2 0 1).setReg
    (R.CMD_RING_SQ_HEAD n) 0).setReg (R.CMD_RING_SQ_TAIL n) 0).setReg (R.CMD_RING_CQ_HEAD n) 0).setReg
    (R.CMD_RING_CQ_TAIL n) 0

section Valid

variable (hlo : 4 ≤ s.regField (R.CMD_RING_CFG n) 7 4) (hhi : s.regField (R.CMD_RING_CFG n) 7 4 ≤ 12)
  (hpos : 0 < s.regField (R.CMD_RING_CFG n) 23 16) (hmax : s.regField (R.CMD_RING_CFG n) 23 16 ≤ 128)
include hlo hhi hpos hmax

theorem ringActivate_reg_of_valid (a : Nat) : (s.ringActivate n).reg a = (s.ringCleared n).reg a := by
  rw [ringActivate, if_neg (by omega), writeShadow_reg]
  rfl

theorem ringActivate_mem_of_valid : (s.ringActivate n).mem = s.mem := by
  rw [ringActivate, if_neg (by omega), writeShadow_mem]
  rfl

end Valid

/-- An activated ring is ACTIVE. -/
theorem ringCleared_status : field ((s.ringCleared n).reg (R.CMD_RING_STATUS n)) 1 0 = 1 := by
  have hreg : (s.ringCleared n).reg (R.CMD_RING_STATUS n) = setField (s.reg (R.CMD_RING_STATUS n)) 2 0 1 := by
    simp [ringCleared, setRegField, modReg, reg_setReg]
  rw [hreg]
  exact field_setField _ (by decide) (by decide) 1

/-- Its limit of commands in flight is one of 1 to 128, so the field holds it. -/
theorem ringCleared_limit (hmax : s.regField (R.CMD_RING_CFG n) 23 16 ≤ 128) :
    field ((s.ringCleared n).reg (R.CMD_RING_CFG n)) 23 16 =
      min (s.regField (R.CMD_RING_CFG n) 23 16) (2 ^ s.regField (R.CMD_RING_CFG n) 7 4 - 1) := by
  have hreg : (s.ringCleared n).reg (R.CMD_RING_CFG n) = setField (s.reg (R.CMD_RING_CFG n)) 23 16
      (min (s.regField (R.CMD_RING_CFG n) 23 16) (2 ^ s.regField (R.CMD_RING_CFG n) 7 4 - 1)) := by
    simp [ringCleared, setRegField, modReg, reg_setReg]
  rw [hreg, field_setField _ (by decide) (by decide)]
  exact Nat.mod_eq_of_lt (by omega)

theorem ringCleared_indices :
    (s.ringCleared n).reg (R.CMD_RING_SQ_HEAD n) = 0 ∧ (s.ringCleared n).reg (R.CMD_RING_SQ_TAIL n) = 0 ∧
      (s.ringCleared n).reg (R.CMD_RING_CQ_HEAD n) = 0 ∧ (s.ringCleared n).reg (R.CMD_RING_CQ_TAIL n) = 0 := by
  simp [ringCleared, reg_setReg]

end Enable

/-! ### Fetches -/

section Fetch

variable {s : State} {n : Nat} {buf : Option (List Byte)}

theorem ringFetch_of_barred (h : s.mayFetch n = false) (entry : Option (List Byte)) : s.ringFetch n entry buf = s := by
  simp [ringFetch, h]

theorem ringFetch_of_failed (h : s.mayFetch n = true) : s.ringFetch n none buf = s.ringError n 2 := by
  simp [ringFetch, h]

/-- The command of a fetched entry whose parameters lie in the entry itself. -/
def inlineCmd (s : State) (n : Nat) (e : List Byte) : Cmd :=
  { s.mkCmd (.ring n) e [] (nth ⟨none, none⟩ s.host.last n) with
    params := slice (padTo 64 e) 0x10 (min (fieldAt (padTo 64 e) 4 2) 48) }

/-- A fetched entry without EXT takes a place, is answered ST_BUSY where it is relaxed and finds none, and waits
otherwise. -/
theorem ringFetch_of_inline (h : s.mayFetch n = true) {e : List Byte}
    (hinline : bit (BitVec.ofNat 16 (fieldAt (padTo 64 e) 6 2)) 4 = false) :
    s.ringFetch n (some e) buf =
      if s.host.inflight.length < 128 then (s.passHead n).takeCmd (s.inlineCmd n e) true
      else if (s.inlineCmd n e).order = 0 then (s.passHead n).refuseBusy (s.inlineCmd n e)
      else s := by
  have hext : (s.mkCmd (.ring n) e [] (nth ⟨none, none⟩ s.host.last n)).ext = false := hinline
  simp [ringFetch, h, hext, placeFree]
  rfl

end Fetch

end State

/-! ### The rows -/

section Rows

variable (s : State) (n : Fin 16) (v : Word)

theorem exec_sqTailDoorbell : exec (.sqTailDoorbell n v) s = .next (if s.crossBlocked 0 then s else s.sqTail n v) := rfl

theorem exec_cqHeadDoorbell : exec (.cqHeadDoorbell n v) s = .next (if s.crossBlocked 0 then s else s.cqHead n v) := rfl

theorem exec_ringEnable :
    exec (.ringEnable n v) s = .next (if s.crossBlocked 0 then s else s.ringCfgWrite n (v ||| 1)) := rfl

theorem exec_ringDisable :
    exec (.ringDisable n v) s = .next (if s.crossBlocked 0 then s else s.ringCfgWrite n (v &&& ~~~1)) := rfl

/-- A blocked crossing 0 passes no write of the host to a ring's registers (R79). -/
theorem exec_ringWrite_of_blocked (hblocked : s.crossBlocked 0 = true) :
    ∀ i ∈ [Instr.sqTailDoorbell n v, .cqHeadDoorbell n v, .ringEnable n v, .ringDisable n v], exec i s = .next s := by
  simp [exec_sqTailDoorbell, exec_cqHeadDoorbell, exec_ringEnable, exec_ringDisable, hblocked]

section Open

variable {s} (hopen : s.crossBlocked 0 = false)
include hopen

theorem exec_sqTailDoorbell_of_open : exec (.sqTailDoorbell n v) s = .next (s.sqTail n v) := by
  rw [exec_sqTailDoorbell, if_neg (Bool.eq_false_iff.1 hopen)]

theorem exec_cqHeadDoorbell_of_open : exec (.cqHeadDoorbell n v) s = .next (s.cqHead n v) := by
  rw [exec_cqHeadDoorbell, if_neg (Bool.eq_false_iff.1 hopen)]

theorem exec_ringEnable_of_open : exec (.ringEnable n v) s = .next (s.ringCfgWrite n (v ||| 1)) := by
  rw [exec_ringEnable, if_neg (Bool.eq_false_iff.1 hopen)]

theorem exec_ringDisable_of_open : exec (.ringDisable n v) s = .next (s.ringCfgWrite n (v &&& ~~~1)) := by
  rw [exec_ringDisable, if_neg (Bool.eq_false_iff.1 hopen)]

end Open

theorem exec_ringFetch (entry buf : Option (List Byte)) :
    exec (.ringFetch n entry buf) s = .next (s.ringFetch n entry buf) := rfl

theorem exec_ringDrainEnd_of_busy (h : s.ringInflight n ≠ 0) : exec (.ringDrainEnd n) s = .next s := by
  change execRingDrainEnd n s = _
  simp [execRingDrainEnd, h]

/-- The end of draining, without an enable that waits. -/
theorem exec_ringDrainEnd_of_drained (hstate : s.ringState n = 2) (hidle : s.ringInflight n = 0)
    (hagain : s.regBit (R.CMD_RING_STATUS n) 2 = false) :
    exec (.ringDrainEnd n) s = .next (s.setRegField (R.CMD_RING_STATUS n) 2 0 0) := by
  change execRingDrainEnd n s = _
  simp [execRingDrainEnd, hstate, hidle, hagain]

end Rows

/-- Settles O11: each clause is one case of a ring's row, or what an activation leaves of the ring's registers. -/
theorem ringsAndTheirFetches : Obligations.RingsAndTheirFetches := by
  refine ⟨fun s n v => ?_, fun s n _ => ?_, fun s n entry buf => ?_⟩
  · intro size head tail
    refine ⟨exec_ringWrite_of_blocked s n v, fun hopen => ⟨fun hstate => ⟨?_, ?_⟩, fun hstate => ?_, fun hstate => ?_⟩,
      fun hopen hstate => ⟨fun hv => ?_, fun hv => ⟨?_, ?_⟩, fun hv hpassed => ?_, fun hv hpassed => ?_⟩,
      exec_ringDrainEnd_of_drained s n, fun _ => exec_ringDrainEnd_of_busy s n⟩
    · rw [exec_sqTailDoorbell_of_open n v hopen, State.sqTail_of_inactive hstate]
    · rw [exec_cqHeadDoorbell_of_open n v hopen, State.cqHead_of_inactive hstate]
    · rw [exec_ringEnable_of_open n v hopen, State.ringCfgWrite_enable hstate (by simp [bit])]
    · rw [exec_ringDisable_of_open n v hopen, State.ringCfgWrite_disable hstate (by simp [bit])]
    · rw [exec_sqTailDoorbell_of_open n v hopen, State.sqTail_of_inside hstate hv]
    · rw [exec_sqTailDoorbell_of_open n v hopen, State.sqTail_of_outside hstate hv]
    · rw [exec_cqHeadDoorbell_of_open n v hopen, State.cqHead_of_active hstate]
      exact congrArg _ (if_pos (.inl hv))
    · rw [exec_cqHeadDoorbell_of_open n v hopen, State.cqHead_of_active hstate]
      exact congrArg _ (if_neg (not_or.2 ⟨Nat.not_le.2 hv, Nat.not_lt.2 hpassed⟩))
    · rw [exec_cqHeadDoorbell_of_open n v hopen, State.cqHead_of_active hstate]
      exact congrArg _ (if_pos (.inr hpassed))
  · intro log2 maxIn
    refine ⟨fun hinvalid => ?_, fun hlo hhi hpos hmax => ?_⟩
    · rw [State.ringActivate_of_invalid hinvalid]
      exact ⟨State.setReg_reg .., sameRegs_setReg _ _ s⟩
    · intro t
      have hreg := State.ringActivate_reg_of_valid hlo hhi hpos hmax
      have hmem := State.ringActivate_mem_of_valid hlo hhi hpos hmax
      refine ⟨?_, ?_, ?_⟩
      · rw [State.ringState, State.regField, hreg]
        exact State.ringCleared_status
      · rw [State.regField, hreg]
        exact State.ringCleared_limit hmax
      · obtain ⟨hsqh, hsqt, hcqh, hcqt⟩ := State.ringCleared_indices (s := s) (n := n)
        rw [hreg, hreg, hreg, hreg]
        exact ⟨hsqh, hsqt, hcqh, hcqt, SameMemory.of_eq hmem⟩
  · refine ⟨fun hbarred => ?_, fun hmay => ⟨?_, ?_⟩⟩
    · rw [exec_ringFetch, State.ringFetch_of_barred hbarred]
    · rw [exec_ringFetch, State.ringFetch_of_failed hmay]
    · rintro e rfl hinline c
      rw [exec_ringFetch, State.ringFetch_of_inline hmay hinline]
      refine ⟨fun hplace => ?_, fun hfull horder => ?_, fun hfull horder => ?_⟩
      · exact congrArg _ (if_pos hplace)
      · rw [if_neg (by omega)]
        exact congrArg _ (if_pos horder)
      · rw [if_neg (by omega)]
        exact congrArg _ (if_neg horder)

end Sys2Proof.Machine
end

section
/-! What an event and a host command that passes its checks leave (R103, R570 to R572). -/

namespace Sys2Proof.Machine

/-! ### Events -/

/-- What an event may change: the recorder's own state and its counters. -/
def EventOnly (s t : State) : Prop :=
  SameRegs [R.EVR_REPEATS, R.EVR_QUEUE_PEAK, R.EVR_LOST_PENDING, R.EVR_LOST_TOTAL] s t ∧
    t = { s with regs := t.regs, evr := t.evr }

namespace EventOnly

variable {s t u : State}

theorem refl (s : State) : EventOnly s s := ⟨SameRegs.refl _ s, rfl⟩

theorem trans (h : EventOnly s t) (k : EventOnly t u) : EventOnly s u := by
  obtain ⟨hregs, heq⟩ := h
  obtain ⟨kregs, keq⟩ := k
  exact ⟨hregs.trans kregs, by rw [keq, heq]⟩

/-- The recorder's state is its own. -/
theorem evr (s : State) (e : EvrSt) : EventOnly s { s with evr := e } := ⟨fun _ _ => rfl, rfl⟩

theorem bump {a : Nat} (ha : a = R.EVR_REPEATS ∨ a = R.EVR_LOST_PENDING ∨ a = R.EVR_LOST_TOTAL) (k : Nat) (s : State) :
    EventOnly s (s.bump a k) := by
  refine ⟨(sameRegs_setReg a _ s).mono fun x hx => ?_, rfl⟩
  rw [List.mem_singleton.1 hx]
  rcases ha with rfl | rfl | rfl <;> simp

theorem peak (v : Nat) (s : State) : EventOnly s (s.regMax R.EVR_QUEUE_PEAK v) := by
  unfold State.regMax
  split
  · exact ⟨(sameRegs_setReg _ _ s).mono (by simp), rfl⟩
  · exact refl s

theorem enqueue (e : QEntry) (s : State) : EventOnly s (State.raiseAt.enqueueEvent e s) := by
  unfold State.raiseAt.enqueueEvent
  simp only []
  split
  · exact (evr s _).trans (peak ..)
  · exact ((evr s _).trans (bump (.inr (.inl rfl)) ..)).trans (bump (.inr (.inr rfl)) ..)

theorem raiseAt (stamp src code a b : Nat) (s : State) : EventOnly s (s.raiseAt stamp src code a b) := by
  have repeated (e : EvrSt) : EventOnly s (State.bump R.EVR_REPEATS 1 { s with evr := e }) :=
    (evr s e).trans (bump (.inl rfl) ..)
  unfold State.raiseAt
  simp only []
  split
  · exact refl s
  · split
    · split
      · exact repeated _
      · exact enqueue ..
    · split
      · split
        · exact repeated _
        · exact enqueue ..
      · exact enqueue ..

end EventOnly

namespace State

variable (s : State) (src code a b : Nat)

theorem raise_only : EventOnly s (s.raise src code a b) := EventOnly.raiseAt ..

@[simp] theorem raise_met : (s.raise src code a b).met = s.met := by rw [(s.raise_only src code a b).2]

end State

/-! ### Commands -/

/-- The row of a command that passes its checks ends the command as its execution says. -/
theorem answers_of_passes {op id : Nat} {c : Cmd} {s s1 : State} {i : Instr} {body : Cmd → State → State × CmdEnd}
    {r : State × CmdEnd} (h : Passes op id c s s1) (hrow : exec i s = hostRow op id body s) (hbody : body c s1 = r) :
    Answers i id s r := by
  obtain ⟨hflight, hop, hwait, hstart, h7, h8, info, hinfo, h9, h10⟩ := h
  have hchecked : State.runChecked info c body s = r := by simp [State.runChecked, h7, h8, h9, h10, hbody]
  rw [Answers, hrow, hostRow, State.runHost, hflight, hinfo]
  simp [hop, hwait, hstart, hchecked]

end Sys2Proof.Machine
end

section
/-! The switched power domains: their commands and their events (R147 to R150, R619). -/

namespace Sys2Proof.Machine

namespace State

/-! ### The state of a domain -/

section DomState

variable {s : State} {k : Nat}

/-- The state of a domain stands in one register, which no event changes. -/
theorem domState_raise (src code a b : Nat) : (s.raise src code a b).domState k = s.domState k := by
  have hreg := (s.raise_only src code a b).1 R.SYS_DOMAIN_STATE (by decide)
  rw [domState, regField, hreg, domState, regField]

theorem domState_setRegBit {a i : Nat} {v : Bool} (h : R.SYS_DOMAIN_STATE ≠ a) :
    (s.setRegBit a i v).domState k = s.domState k := by
  have hreg : (s.setRegBit a i v).reg R.SYS_DOMAIN_STATE = s.reg R.SYS_DOMAIN_STATE := setReg_reg_ne s h _
  rw [domState, regField, hreg, domState, regField]

end DomState

/-! ### Commands -/

section Commands

variable {c : Cmd} {s : State}

theorem domainEnable_of_unknown (h : 12 ≤ c.p 0 4) : s.domainEnable c = (s, .st .badParam) := if_pos h

theorem domainDisable_of_unknown (h : 12 ≤ c.p 0 4) : s.domainDisable c = (s, .st .badParam) := if_pos h

section Known

variable {k : Nat} (hk : c.p 0 4 = k) (h12 : k < 12)
include hk h12

theorem domainEnable_of_on (hst : s.domState k = 2) : s.domainEnable c = (s, .st .ok) := by
  simp [domainEnable, hk, hst, Nat.not_le.2 h12]

theorem domainEnable_of_off (hst : s.domState k = 0) :
    s.domainEnable c = (s.domStart k false, .later (.domainOn k)) := by
  simp [domainEnable, hk, hst, Nat.not_le.2 h12]

theorem domainEnable_of_starting (hst : s.domState k = 1) (hdis : bit s.pwr.disableWaiting k = false) :
    s.domainEnable c = (s, .later (.domainOn k)) := by
  simp [domainEnable, hk, hst, hdis, Nat.not_le.2 h12]

/-- An enable of a domain that goes down, or will once it is up, stays pending. -/
theorem domainEnable_of_leaving
    (hst : s.domState k = 3 ∨ s.domState k = 1 ∧ bit s.pwr.disableWaiting k = true) :
    s.domainEnable c = (s.setRegBit R.SYS_DOMAIN_PENDING k true, .st .pending) := by
  rcases hst with hst | ⟨hst, hdis⟩
  · simp [domainEnable, hk, hst, Nat.not_le.2 h12]
  · simp [domainEnable, hk, hst, hdis, Nat.not_le.2 h12]

theorem domainDisable_of_off (hst : s.domState k = 0) : s.domainDisable c = (s, .st .ok) := by
  simp [domainDisable, hk, hst, Nat.not_le.2 h12]

theorem domainDisable_of_refused (hst : s.domState k ≠ 0) {e : CmdEnd} (he : s.disableRefusal k = some e) :
    s.domainDisable c = (s, e) := by
  simp [domainDisable, hk, hst, he, Nat.not_le.2 h12]

section Allowed

variable (hfree : s.disableRefusal k = none)
include hfree

theorem domainDisable_of_on (hst : s.domState k = 2) (hpend : s.domPending k = false) :
    s.domainDisable c = ((s.domIsolate k).setDom k 3, .later (.domainOff k)) := by
  simp [domainDisable, domShut, hk, hst, hfree, hpend, Nat.not_le.2 h12]

theorem domainDisable_of_starting (hst : s.domState k = 1) (hpend : s.domPending k = false) :
    s.domainDisable c =
      (s.modPwr fun p => { p with disableWaiting := setBit p.disableWaiting k true }, .later (.domainOff k)) := by
  simp [domainDisable, hk, hst, hfree, hpend, Nat.not_le.2 h12]

/-- A disable of a domain that goes down takes back the pending enable. -/
theorem domainDisable_of_stopping (hst : s.domState k = 3) (hpend : s.domPending k = true) :
    s.domainDisable c =
      ((s.setRegBit R.SYS_DOMAIN_PENDING k false).raise srcPower Ev.SYS_DOMAIN_ENABLE_CANCELLED k 0,
        .later (.domainOff k)) := by
  have hafter : ((s.setRegBit R.SYS_DOMAIN_PENDING k false).raise srcPower Ev.SYS_DOMAIN_ENABLE_CANCELLED k
      0).domState k = 3 := by rw [domState_raise, domState_setRegBit (by decide), hst]
  simp [domainDisable, hk, hst, hfree, hpend, hafter, Nat.not_le.2 h12]

end Allowed

end Known

/-- Clusters, the switch and DDR go down in Stop only. -/
theorem disableRefusal_of_running {k : Nat} (hk : k < 2 ∨ k = 6 ∨ k = 10)
    (hrun : s.mode ≠ 0 ∨ s.regBit R.CYC_MODE 5 = true) : s.disableRefusal k = some (.st .mode) := by
  have hstopped : s.stopped = false := by
    rcases hrun with hmode | hbusy
    · simp [stopped, hmode]
    · simp [stopped, hbusy]
  exact if_pos ⟨hk, by rw [hstopped]; rfl⟩

/-- PD_LINK goes down only in SOLO and in MAINTENANCE. -/
theorem disableRefusal_of_paired (hsolo : s.role ≠ 0) (hother : s.role ≠ 4) :
    s.disableRefusal 11 = some (.st .role) := by
  simp [disableRefusal, hsolo, hother]

theorem domainStatus_of_room (h : 12 ≤ c.replyLen) :
    s.domainStatus c = (s, .done .ok 12 0 (leBytes 4 (s.reg R.SYS_DOMAIN_STATE).toNat ++
      leBytes 4 (s.reg R.SYS_DOMAIN_PENDING).toNat ++ leBytes 4 (s.reg R.SYS_DOMAIN_FAULT).toNat)) := by
  simp [domainStatus, replyOr, h]

end Commands

/-! ### What happens to a domain -/

section Events

variable {s : State} {k : Nat}

theorem domArriveOn_of_other (h : s.domState k ≠ 1) : s.domArriveOn k = s := if_pos h

/-- A domain that was starting is ON, its block comes up, and the enables that waited are answered. -/
def domArrived (k : Nat) (s : State) : State :=
  let u := (s.setDom k 2).raise srcPower Ev.SYS_DOMAIN_ON k (if bit s.pwr.pendingStart k then 1 else 0)
  (State.domUp k (u.modPwr fun p => { p with pendingStart := setBit p.pendingStart k false })).completeWaiting
    (.domainOn k) .ok 0

theorem domArriveOn_of_starting (h : s.domState k = 1)
    (hstays : bit (s.domArrived k).pwr.disableWaiting k = false) : s.domArriveOn k = s.domArrived k := by
  have hno : ¬ bit (s.domArrived k).pwr.disableWaiting k = true := by rw [hstays]; decide
  exact (if_neg (fun hne => hne h)).trans (if_neg hno)

theorem domArriveOff_of_other (h : s.domState k ≠ 3) : s.domArriveOff k = s := if_pos h

theorem domArriveOff_of_stopping (h : s.domState k = 3) :
    s.domArriveOff k = State.domNext k ((((s.domGone k).setDom k 0).raise srcPower Ev.SYS_DOMAIN_OFF k
      0).completeWaiting (.domainOff k) .ok 0) :=
  if_neg (fun hne => hne h)

/-- Power-good is late: the fault, no switching left to do, and both kinds of waiting commands answered. -/
theorem domTimeout_of_overdue (h : s.domState k = 1)
    (hlate : nth 0 s.pwr.changedAt k + 250 * (2000 * powerUpMs k) ≤ s.raw) :
    s.domTimeout k = State.domNext k ((((s.modPwr fun p => { p with
      disableWaiting := setBit p.disableWaiting k false,
      pendingStart := setBit p.pendingStart k false }).domFault k).completeWaiting
        (.domainOn k) .domainOff k).completeWaiting (.domainOff k) .ok 0) :=
  if_neg (not_or.2 ⟨fun hne => hne h, Nat.not_lt.2 hlate⟩)

theorem domRailFault_of_off (h : s.domOn k = false) (entries : List Nat)
    (trans : List (List (Nat × BitVec 40 × Bool))) : s.domRailFault k entries trans = s := by
  simp [domRailFault, h]

/-- The rail of a solver engine's domain: its one crossing is reset, and nothing else is prepared. -/
theorem domRailFault_of_solver (h : s.domOn k = true) (hlo : 2 ≤ k) (hhi : k < 6) (entries : List Nat)
    (trans : List (List (Nat × BitVec 40 × Bool))) :
    s.domRailFault k entries trans =
      ((s.blockReset k (nth 0 entries 0) (nth [] trans 0)).domGone k).domFault k := by
  have hcross : domCrossings k = [k] := by
    obtain rfl | rfl | rfl | rfl : k = 2 ∨ k = 3 ∨ k = 4 ∨ k = 5 := by omega
    all_goals rfl
  simp [domRailFault, h, hcross, show k ≠ 6 by omega, show k ≠ 7 by omega, show k ≠ 10 by omega, show k ≠ 11 by omega]

end Events

end State

/-! ### The rows -/

section Rows

variable {s t : State} {k : Fin 12}

theorem exec_domainPowerUpDone_of (h : s.domArriveOn k = t) :
    exec (.domainPowerUpDone k) s = .next t.bootCheck.admitWaiting := h ▸ rfl

theorem exec_domainShutdownDone_of (h : s.domArriveOff k = t) :
    exec (.domainShutdownDone k) s = .next t.admitWaiting := h ▸ rfl

theorem exec_domainPowerGoodTimeout_of (h : s.domTimeout k = t) :
    exec (.domainPowerGoodTimeout k) s = .next t.bootCheck.admitWaiting := h ▸ rfl

theorem exec_domainRailFault_of {entries : List Nat} {trans : List (List (Fin 32 × BitVec 40 × Bool))}
    (h : s.domRailFault k entries (trans.map fun ts => ts.map fun t => (t.1.val, t.2)) = t) :
    exec (.domainRailFault k entries trans) s = .next t.bootCheck.admitWaiting := h ▸ rfl

end Rows

/-- Settles O18: each clause is one case of a domain's command or event. -/
theorem powerDomains : Obligations.PowerDomains := by
  refine ⟨fun id c s s1 => ⟨fun h => ?_, fun h => ?_, fun h hroom => ?_⟩, fun s k => ?_⟩
  · have ends {r} (hbody : s1.domainEnable c = r) : Answers (.sysDomainEnable id) id s r :=
      answers_of_passes h rfl hbody
    exact ⟨fun hk => ends (State.domainEnable_of_unknown hk),
      fun hk hst => ends (State.domainEnable_of_on rfl hk hst),
      fun hk hst => ends (State.domainEnable_of_off rfl hk hst),
      fun hk hst hdis => ends (State.domainEnable_of_starting rfl hk hst hdis),
      fun hk hst => ends (State.domainEnable_of_leaving rfl hk hst)⟩
  · have ends {r} (hbody : s1.domainDisable c = r) : Answers (.sysDomainDisable id) id s r :=
      answers_of_passes h rfl hbody
    exact ⟨fun hk => ends (State.domainDisable_of_unknown hk),
      fun hk hst => ends (State.domainDisable_of_off rfl hk hst),
      fun hst hk hrun => ends (State.domainDisable_of_refused rfl (by omega) hst
        (State.disableRefusal_of_running hk hrun)),
      fun hst hk hsolo hother => ends (State.domainDisable_of_refused hk (by decide) (hk ▸ hst)
        (State.disableRefusal_of_paired hsolo hother)),
      fun hk hst hfree hpend => ends (State.domainDisable_of_on rfl hk hfree hst hpend),
      fun hk hst hfree hpend => ends (State.domainDisable_of_starting rfl hk hfree hst hpend),
      fun hk hst hfree hpend => ends (State.domainDisable_of_stopping rfl hk hfree hst hpend)⟩
  · exact answers_of_passes h rfl (State.domainStatus_of_room hroom)
  · exact ⟨fun hst => ⟨State.domArriveOn_of_other hst, exec_domainPowerUpDone_of (State.domArriveOn_of_other hst)⟩,
      fun hst _ hstays => exec_domainPowerUpDone_of (State.domArriveOn_of_starting hst hstays),
      fun hst => exec_domainShutdownDone_of (State.domArriveOff_of_other hst),
      fun hst => exec_domainShutdownDone_of (State.domArriveOff_of_stopping hst),
      fun hst hlate => exec_domainPowerGoodTimeout_of (State.domTimeout_of_overdue hst hlate),
      fun entries trans hoff => exec_domainRailFault_of (State.domRailFault_of_off hoff entries _),
      fun entries trans hon hhi hlo => exec_domainRailFault_of (State.domRailFault_of_solver hon hlo hhi entries _)⟩

end Sys2Proof.Machine
end

section
/-! What the increments that wait for a record write leave of memory: the record itself is written when its write is
done (R386 to R389). -/

namespace Sys2Proof.Machine

namespace SameMemory

variable {s t : State} {n : Nat}

/-! ### One operation more -/

theorem ite {u : State} {c : Prop} [Decidable c] (ht : SameMemory s t) (hu : SameMemory s u) :
    SameMemory s (if c then t else u) := by
  split
  · exact ht
  · exact hu

theorem foldl {α : Type} {f : State → α → State} (hf : ∀ {t x}, SameMemory s t → SameMemory s (f t x)) (l : List α)
    (h : SameMemory s t) : SameMemory s (l.foldl f t) := by
  induction l generalizing t with
  | nil => exact h
  | cons x l ih => exact ih (hf h)

section

variable (h : SameMemory s t)
include h

theorem setReg {a : Nat} {v : Word} : SameMemory s (t.setReg a v) := h

theorem raise {src code a b : Nat} : SameMemory s (t.raise src code a b) := h.trans (SameMemory.of_eq (raise_mem ..))

theorem met {m : MetSt} : SameMemory s { t with met := m } := h

theorem setMetCh {c : MetCh} : SameMemory s (t.setMetCh n c) := h

theorem modMetCh {f : MetCh → MetCh} : SameMemory s (t.modMetCh n f) := h

theorem windowFlag {i : Nat} : SameMemory s (t.windowFlag n i) := h

theorem rebase {cf cr : Nat} {m : MeterSample} : SameMemory s (t.rebase n cf cr m) := h

theorem metShow : SameMemory s t.metShow := h

theorem startRecord : SameMemory s (t.startRecord n) := h

theorem roundFree {tag d : Nat} {x : Int} : SameMemory s (t.roundFree tag x d).2 := by
  rcases roundFree_cases t tag x d with ⟨-, heq⟩ | ⟨-, -, hstate⟩
  · rw [heq]
    exact h
  · rw [hstate]
    exact h

/-! ### Closing records, demand and pulses -/

theorem latchClosing {regs : List Int} {incomplete : Bool} : SameMemory s (t.latchClosing n regs incomplete) := by
  unfold State.latchClosing
  extract_lets c fl
  split
  rename_i secs rounded heq
  have hrounded : SameMemory s (secs, rounded).2 := by
    rw [← heq]
    exact h.roundFree
  exact ite hrounded.setMetCh.met.metShow.raise hrounded.setMetCh.met.metShow

theorem closeReached {t0 t1 : Instant} {before : List Int} {parts : List (Nat × Int)} {fault fuel done : Nat} :
    SameMemory s (t.closeReached n t0 t1 before parts fault fuel done).1 := by
  induction fuel generalizing done t with
  | zero => exact h
  | succ fuel ih =>
    rw [State.closeReached]
    extract_lets
    split
    · exact h
    · exact ih h.modMetCh.latchClosing

theorem demandAdd {t0 t1 : Instant} {x : Int} : SameMemory s (t.demandAdd n t0 t1 x) := ite h.setMetCh h.setMetCh

theorem startPulse : SameMemory s (t.startPulse n) := by
  unfold State.startPulse
  split
  · exact ite h.met h
  · exact h

theorem pulseAdd {c : PulseCfg} {x : Nat} : SameMemory s (t.pulseAdd n c x) := by
  unfold State.pulseAdd
  split
  · exact h
  · exact (ite (ite h.met.setReg h.met).raise (ite h.met.setReg h.met)).startPulse

theorem pulseFeed {parts : List (Nat × Int)} : SameMemory s (t.pulseFeed n parts) :=
  foldl (fun h => ite (foldl (fun h => ite h.pulseAdd h) parts h) h) _ h

/-! ### Increments

The bodies of `setBlock` and `meterSample` are put in place of the functions, not of their applications: to compare an
application with its body, the kernel would run `closeReached`. -/

theorem setBlock {T : Nat} {b : SetBlock} : SameMemory s (t.setBlock n T b) := by
  suffices ∀ f, f = State.setBlock → SameMemory s (f n T b t) from this _ rfl
  delta State.setBlock
  rintro _ rfl
  dsimp -zeta -iota only
  extract_lets parts before marked clipped demanded
  have hclipped : SameMemory s clipped := ite h.modMetCh.modMetCh h.modMetCh
  split
  rename_i closed done heq
  have hclosed : SameMemory s (closed, done).1 := by
    rw [← heq]
    exact hclipped.demandAdd.closeReached
  extract_lets p
  split
  exact ite hclosed.setMetCh.pulseFeed.startRecord hclosed.setMetCh.pulseFeed

theorem meterSample {c : MeterCfg} {m : MeterSample} : SameMemory s (t.meterSample n c m) := by
  suffices ∀ f, f = State.meterSample → SameMemory s (f n c m t) from this _ rfl
  delta State.meterSample
  rintro _ rfl
  dsimp -zeta -iota only
  extract_lets ch fresh w good paired pair
  have hpaired : SameMemory s paired := by
    clear_value good
    cases good with
    | none => exact h
    | some g => exact h.modMetCh
  split
  · extract_lets b span from_ df dr limit jumpF jump df' dr' energy parts fault late
    have hlate : SameMemory s late := hpaired.modMetCh
    refine ite h.closeReached.rebase (ite h ?_)
    split
    rename_i closed done heq
    have hclosed : SameMemory s (closed, done).1 := by
      rw [← heq]
      exact hlate.closeReached
    extract_lets faulted jumped gapped logged flagged sensed
    have hjumped : SameMemory s jumped := ite hclosed.modMetCh.windowFlag.setReg.raise hclosed.modMetCh
    have hgapped : SameMemory s gapped := ite hjumped.roundFree.windowFlag.raise hjumped
    have hflagged : SameMemory s flagged := hgapped.windowFlag
    have hsensed : SameMemory s sensed := ite (ite hflagged hflagged.raise) hgapped
    split
    exact ite hsensed.setMetCh.rebase.pulseFeed.startRecord hsensed.setMetCh.rebase.pulseFeed
  · exact h

/-- The increments that wait for a record write change no byte when they are added. -/
theorem drainMet {fuel : Nat} : SameMemory s (t.drainMet n fuel) := by
  induction fuel generalizing t with
  | zero => exact h
  | succ fuel ih =>
    unfold State.drainMet
    refine ite h ?_
    split
    · refine ih ?_
      split
      · exact h.setMetCh.meterSample
      · exact h.setMetCh
    · exact ih h.setMetCh.setBlock
    · exact h

end

end SameMemory

end Sys2Proof.Machine
end

section
/-! Metering events and pulse outputs: record writes, windows, closing records, demand windows, and the phases of a
pulse (R127, R389, R391, R394, R404, R405, R408). -/

namespace Sys2Proof.Machine

/-- A list whose element `i` is known has it changed in place. -/
theorem modNth_eq_set {α : Type} (f : α → α) {l : List α} {i : Nat} {x : α} (h : l[i]? = some x) :
    modNth f l i = l.set i (f x) := by
  induction l generalizing i with
  | nil => simp at h
  | cons y l ih =>
    cases i with
    | zero =>
      obtain rfl : y = x := by simpa using h
      rfl
    | succ i => simp [modNth, ih (by simpa using h)]

namespace State

variable {s : State}

/-! ### Channels and bytes -/

theorem metCh_modMetCh (n : Nat) (f : MetCh → MetCh) (s : State) : (s.modMetCh n f).metCh n = f (s.metCh n) := by
  simp [metCh, modMetCh, setMetCh, tget_tput_self]

@[simp] theorem setBytes_met (a : Nat) (bs : List Byte) (s : State) : (s.setBytes a bs).met = s.met := by
  induction bs generalizing a s with
  | nil => rfl
  | cons b bs ih => exact ih (a + 1) (s.setByte a b)

theorem setBytes_byteAt_outside {a x : Nat} (bs : List Byte) (s : State) (h : x < a ∨ a + bs.length ≤ x) :
    (s.setBytes a bs).byteAt x = s.byteAt x := by
  rcases h with hbelow | habove
  · exact setBytes_byteAt_before bs s hbelow
  · exact setBytes_byteAt_after bs s habove

theorem bytesAt_congr {t : State} {a n : Nat} (h : ∀ x, a ≤ x → x < a + n → t.byteAt x = s.byteAt x) :
    t.bytesAt a n = s.bytesAt a n := by
  induction n generalizing a with
  | zero => rfl
  | succ n ih =>
    rw [bytesAt, bytesAt, h a (Nat.le_refl a) (by omega), ih fun x hlo hhi => h x (by omega) (by omega)]

/-! ### Record writes (R389, R394) -/

section Records

variable {n : Nat}

theorem recordDone_of_idle (good : Bool) (h : (s.metCh n).writing = none ∨ s.pwr.feramHold = true) :
    s.recordDone n good = s := by
  unfold recordDone
  split
  · rfl
  · rename_i hw
    exact if_pos (h.resolve_left (by simp [hw]))

variable {k : Nat} {bytes : List Byte}

/-- The channel's record write is over, and its bytes are in FeRAM. -/
def recordStored (n k : Nat) (bytes : List Byte) (s : State) : State :=
  (s.modMetCh n fun x => { x with writing := none }).setBytes (metRec n k) bytes

theorem recordDone_of_written (h : (s.metCh n).writing = some (k, bytes)) (hopen : s.pwr.feramHold = false) :
    s.recordDone n true = (s.recordStored n k bytes).drainMet n 8 := by
  simp [recordDone, endRecord, recordStored, h, hopen]

theorem recordStored_metCh : (s.recordStored n k bytes).metCh n = { s.metCh n with writing := none } := by
  rw [metCh, recordStored, setBytes_met]
  exact metCh_modMetCh ..

theorem recordStored_byteAt_outside {a : Nat} (h : a < metRec n k ∨ metRec n k + bytes.length ≤ a) :
    (s.recordStored n k bytes).byteAt a = s.byteAt a := setBytes_byteAt_outside bytes _ h

/-- A channel without waiting increments has nothing to add. -/
theorem drainMet_of_idle (hsamples : (s.metCh n).samples = []) (hblocks : (s.metCh n).blocks = []) (fuel : Nat) :
    s.drainMet n fuel = s := by
  cases fuel with
  | zero => rfl
  | succ fuel => simp [drainMet, hsamples, hblocks]

end Records

/-! ### Windows and closing records (R404, R405) -/

theorem blockEndDue_of_open (h : s.blockDue = false) : s.blockEndDue = s := by simp [blockEndDue, h]

theorem windowBoundary_of_idle (h : s.openEnd = 0 ∨ s.domOn 8 = false ∨ s.now < s.openEnd * 2 ^ 32) :
    s.windowBoundary = s :=
  if_pos (by simpa using h)

theorem windowBoundary_of_due (hend : s.openEnd ≠ 0) (hdom : s.domOn 8 = true) (hdue : s.openEnd * 2 ^ 32 ≤ s.now)
    (hblock : s.blockDue = false) : ∃ moved, s.windowBoundary = State.metShow { s with met := { s.met with
      ends := lastN 8 (s.met.ends ++ [(s.endAfter s.openEnd, moved)]), grid := s.nvNext.met.tariff,
      pulses := s.met.pulses.map fun p => { p with logged := false } } } := by
  have hgo : ¬ (s.openEnd = 0 ∨ (!s.domOn 8) = true ∨ s.now < s.openEnd * 2 ^ 32) := by
    simpa using ⟨hend, hdom, hdue⟩
  simp only [windowBoundary, blockEndDue_of_open hblock, if_neg hgo]
  exact ⟨_, rfl⟩

section Closing

variable {m n : Nat}

theorem closeWait_of_idle (h : s.meterCfg m = none ∨ s.metRuns = false ∨ (s.metCh m).winEnd = 0) :
    s.closeWait m = s := by
  unfold closeWait
  split
  · rename_i hcfg _
    refine if_pos ?_
    rcases h with hnone | hstopped | hclosed
    · simp [hnone] at hcfg
    · simp [hstopped]
    · simp [hclosed]
  · rfl

theorem closeWait_of_open {k : MeterCfg} {g : Tariff} (hcfg : s.meterCfg m = some k)
    (hgrid : s.nvNext.met.tariff = some g)
    (hruns : s.metRuns = true) (hwin : (s.metCh m).winEnd ≠ 0) : s.closeWait m =
      if s.now < (s.metCh m).winEnd * 2 ^ 32 + usToUnits (1000 * g.closeWait) then s
      else s.latchClosing m (s.metCh m).acc true := by
  simp [closeWait, metCfg, hcfg, hgrid, hruns, hwin]

theorem closingWrite_of_idle (good : Bool)
    (h : s.met.closeQ = [] ∨ s.pwr.feramHold = true ∨ ∃ x ∈ s.met.chs, x.2.writing.isSome = true) :
    s.closingWrite good = s := by
  unfold closingWrite
  split
  · rfl
  · rename_i hq
    refine if_pos ?_
    simpa [hq] using h

theorem closingWrite_of_waiting {rest : List Nat} (hq : s.met.closeQ = n :: rest) (hopen : s.pwr.feramHold = false)
    (hidle : ∀ x ∈ s.met.chs, x.2.writing = none) :
    let t := s.setBytes (metClose n) ((tget s.met.snap n).getD [])
    s.closingWrite true = ({ t with met := { t.met with closeQ := rest } } : State).metShow := by
  have hnone : (s.met.chs.any fun x => x.2.writing.isSome) = false := by simpa using hidle
  simp [closingWrite, hq, hopen, hnone]

end Closing

/-! ### Demand windows (R408) -/

section Demand

/-- The demand record of a set whose maximum RESET_MAX has cleared at the end `e` of a window. -/
def demandCleared (e : Nat) : List Byte :=
  withCrc16 0x3E (leBytes 4 0 ++ zeros 4 ++ leBytes 8 0 ++ leBytes 8 e ++ zeros 40)

theorem demandCleared_length (e : Nat) : (demandCleared e).length = 64 := by simp [demandCleared, withCrc16, zeros]

/-- The records of the sets below `n`, cleared. -/
def demandsCleared (e n : Nat) (s : State) : State := (List.range n).foldl (fun s i => s.writeDemand i 0 0 e) s

variable {e : Nat}

theorem demandsCleared_succ (n : Nat) :
    s.demandsCleared e (n + 1) = (s.demandsCleared e n).setBytes (metDemand n) (demandCleared e) := by
  simp [demandsCleared, List.range_succ, writeDemand, demandCleared]

theorem metDemand_eq (i : Nat) : metDemand i = 0x317C800 + 64 * i := rfl

theorem demandsCleared_met (n : Nat) : (s.demandsCleared e n).met = s.met := by
  induction n with
  | zero => rfl
  | succ n ih => rw [demandsCleared_succ, setBytes_met, ih]

theorem demandsCleared_bytesAt {i n : Nat} (h : i < n) :
    (s.demandsCleared e n).bytesAt (metDemand i) 64 = demandCleared e := by
  induction n with
  | zero => omega
  | succ n ih =>
    rw [demandsCleared_succ]
    rcases Nat.lt_succ_iff_lt_or_eq.1 h with hlt | rfl
    · have hbelow : metDemand i + 64 ≤ metDemand n := by simp only [metDemand_eq]; omega
      rw [← ih hlt]
      exact bytesAt_congr fun x _ hx => setBytes_byteAt_before _ _ (by omega)
    · have hread := (s.demandsCleared e i).setBytes_bytesAt (metDemand i) (demandCleared e)
      rwa [demandCleared_length] at hread

theorem demandsCleared_byteAt_outside {a n : Nat} (h : a < metDemand 0 ∨ metDemand n ≤ a) :
    (s.demandsCleared e n).byteAt a = s.byteAt a := by
  induction n with
  | zero => rfl
  | succ n ih =>
    simp only [metDemand_eq] at h
    rw [demandsCleared_succ, setBytes_byteAt_outside, ih]
    · simp only [metDemand_eq]; omega
    · rw [demandCleared_length, metDemand_eq]; omega

theorem demandEnd_of_held (h : s.pwr.feramHold = true ∨ s.domOn 8 = false) : s.demandEnd = s :=
  if_pos (by simpa using h)

/-- Steps that each leave a state leave it together. -/
theorem foldl_eq_self {α : Type} {f : State → α → State} {l : List α} (h : ∀ x ∈ l, f s x = s) : l.foldl f s = s := by
  induction l with
  | nil => rfl
  | cons x l ih =>
    rw [List.foldl_cons, h x (List.mem_cons_self ..)]
    exact ih fun y hy => h y (List.mem_cons_of_mem _ hy)

/-- With no demand window waiting for its evaluation, only RESET_MAX is left. -/
theorem demandEnd_of_evaluated (hopen : s.pwr.feramHold = false) (hdom : s.domOn 8 = true) (hblock : s.blockDue = false)
    (hdone : ∀ i < 32, (s.metCh (2048 + i)).demDone = []) : s.demandEnd =
      match s.met.resetMax with
      | none => s
      | some e => if s.now < e * 2 ^ 32 then s
        else demandsCleared e 32 { s with met := { s.met with resetMax := none } } := by
  have hskip : (List.range 32).foldl (fun s i =>
      if (s.metCh (2048 + i)).demDone.isEmpty then s else s.evalDemand i) s = s :=
    foldl_eq_self fun i hi => if_pos (by rw [hdone i (List.mem_range.1 hi)]; rfl)
  have hgo : ¬ (s.pwr.feramHold = true ∨ (!s.domOn 8) = true) := by simp [hopen, hdom]
  simp only [demandEnd, blockEndDue_of_open hblock, hskip, if_neg hgo]
  rfl

end Demand

/-! ### Pulse outputs (R391) -/

section Pulses

variable {p : Nat} {x : Pulse} {c : PulseCfg}

/-- Output `p` with another state. -/
def putPulse (p : Nat) (y : Pulse) (s : State) : State :=
  { s with met := { s.met with pulses := s.met.pulses.set p y } }

/-- The output of a waiting pulse as it goes high at a raw count. -/
def pulseHigh (c : PulseCfg) (raw : Nat) (y : Pulse) : Pulse :=
  { y with phase := 1, waiting := y.waiting - 1, until_ := raw + 250000 * c.width }

theorem putPulse_pulses (hx : s.met.pulses[p]? = some x) (y : Pulse) : (s.putPulse p y).met.pulses[p]? = some y := by
  obtain ⟨hlt, -⟩ := List.getElem?_eq_some_iff.1 hx
  simp [putPulse, hlt]

theorem putPulse_putPulse (y z : Pulse) : (s.putPulse p y).putPulse p z = s.putPulse p z := by simp [putPulse]

theorem startPulse_of_waiting (hc : tget s.nvNext.met.pulses p = some c) (hx : s.met.pulses[p]? = some x)
    (hdom : s.domOn 7 = true) (hidle : x.phase = 0) (hwait : 0 < x.waiting) :
    s.startPulse p = s.putPulse p (pulseHigh c s.raw x) := by
  have hms : rawUs (1000 * c.width) = 250000 * c.width := by unfold rawUs; omega
  simp [startPulse, metCfg, hc, hx, hdom, hidle, hwait, modNth_eq_set _ hx, putPulse, pulseHigh, hms]

theorem startPulse_of_unbound (hc : tget s.nvNext.met.pulses p = none) : s.startPulse p = s := by
  simp [startPulse, metCfg, hc]

theorem startPulse_of_idle (hx : s.met.pulses[p]? = some x)
    (hno : ¬ (x.phase = 0 ∧ 0 < x.waiting ∧ s.domOn 7 = true)) : s.startPulse p = s := by
  unfold startPulse
  split
  · rename_i hx'
    obtain rfl : x = _ := Option.some.inj (hx.symm.trans hx')
    exact if_neg hno
  · rfl

/-- Starting a pulse takes it from those that wait, and leaves the divider. -/
theorem startPulse_pulse (hx : s.met.pulses[p]? = some x) : ∃ y, (s.startPulse p).met.pulses[p]? = some y ∧
    y.div = x.div ∧ y.waiting + (if x.phase = 0 ∧ y.phase = 1 then 1 else 0) = x.waiting := by
  have stays (h : s.startPulse p = s) : ∃ y, (s.startPulse p).met.pulses[p]? = some y ∧
      y.div = x.div ∧ y.waiting + (if x.phase = 0 ∧ y.phase = 1 then 1 else 0) = x.waiting :=
    ⟨x, by rw [h, hx], rfl, by rw [if_neg (by omega), Nat.add_zero]⟩
  by_cases hgo : x.phase = 0 ∧ 0 < x.waiting ∧ s.domOn 7 = true
  · cases hc : tget s.nvNext.met.pulses p with
    | none => exact stays (startPulse_of_unbound hc)
    | some c =>
      obtain ⟨hidle, hwait, hdom⟩ := hgo
      refine ⟨pulseHigh c s.raw x, ?_, rfl, ?_⟩
      · rw [startPulse_of_waiting hc hx hdom hidle hwait, putPulse_pulses hx]
      · rw [if_pos ⟨hidle, rfl⟩]
        exact Nat.sub_add_cancel hwait
  · exact stays (startPulse_of_idle hx hgo)

/-- An output whose divider has taken an increment, with the pulses that it makes waiting. -/
def pulseFed (c : PulseCfg) (d : Nat) (x : Pulse) : Pulse :=
  let made := (x.div + d) / pulseUnits c
  { x with div := (x.div + d) % pulseUnits c, waiting := x.waiting + min made (65535 - x.waiting),
           logged := x.logged || decide (65535 - x.waiting < made) }

/-- An overflow changes only its register and the recorder. -/
theorem pulseAdd_eq_startPulse (hx : s.met.pulses[p]? = some x) (d : Nat) :
    ∃ u : State, s.pulseAdd p c d = u.startPulse p ∧ u.met = (s.putPulse p (pulseFed c d x)).met := by
  simp only [pulseAdd, hx, modNth_eq_set _ hx]
  refine ⟨_, rfl, ?_⟩
  split
  · rw [raise_met]
    split <;> rfl
  · split <;> rfl

/-- An increment of an output's register: its pulses wait, up to 65,535, and its rest stays in the divider. -/
theorem pulseAdd_pulse (hx : s.met.pulses[p]? = some x) (hle : x.waiting ≤ 65535) (d : Nat) :
    ∃ y, (s.pulseAdd p c d).met.pulses[p]? = some y ∧ y.div = (x.div + d) % pulseUnits c ∧
      y.waiting + (if x.phase = 0 ∧ y.phase = 1 then 1 else 0) =
        min 65535 (x.waiting + (x.div + d) / pulseUnits c) := by
  obtain ⟨u, hadd, hmet⟩ := pulseAdd_eq_startPulse (c := c) hx d
  have hfed : u.met.pulses[p]? = some (pulseFed c d x) := by rw [hmet, putPulse_pulses hx]
  obtain ⟨y, hy, hdiv, hwait⟩ := startPulse_pulse hfed
  refine ⟨y, hadd ▸ hy, hdiv, hwait.trans ?_⟩
  simp only [pulseFed]
  omega

/-! ### The timer of an output -/

theorem pulseOutput_of_unbound
    (h : s.met.pulses[p]? = none ∨ tget s.nvNext.met.pulses p = none ∨ s.domOn 7 = false) : s.pulseOutput p = s := by
  unfold pulseOutput
  split
  · rename_i hx hc
    refine if_pos ?_
    rcases h with hnone | hnone | hoff
    · simp [hnone] at hx
    · simp [metCfg, hnone] at hc
    · simp [hoff]
  · rfl

section Bound

variable (hx : s.met.pulses[p]? = some x) (hc : tget s.nvNext.met.pulses p = some c) (hdom : s.domOn 7 = true)
include hx hc hdom

theorem pulseOutput_of_idle (hidle : x.phase = 0) : s.pulseOutput p = s.startPulse p := by
  simp [pulseOutput, metCfg, hx, hc, hdom, hidle]

theorem pulseOutput_of_early (hbusy : x.phase ≠ 0) (hearly : s.raw < x.until_) : s.pulseOutput p = s := by
  simp [pulseOutput, metCfg, hx, hc, hdom, hbusy, hearly]

theorem pulseOutput_of_width_over (hhigh : x.phase = 1) (hover : x.until_ ≤ s.raw) :
    s.pulseOutput p = s.putPulse p { x with phase := 2, until_ := s.raw + 250000 * c.pause } := by
  have hms : rawUs (1000 * c.pause) = 250000 * c.pause := by unfold rawUs; omega
  simp [pulseOutput, metCfg, hx, hc, hdom, hhigh, Nat.not_lt.2 hover, modNth_eq_set _ hx, putPulse, hms]

theorem pulseOutput_of_pause_over (hpause : 2 ≤ x.phase) (hover : x.until_ ≤ s.raw) : s.pulseOutput p =
    s.putPulse p (if 0 < x.waiting then pulseHigh c s.raw { x with phase := 0 } else { x with phase := 0 }) := by
  have hlow : s.pulseOutput p = (s.putPulse p { x with phase := 0 }).startPulse p := by
    simp [pulseOutput, metCfg, hx, hc, hdom, Nat.not_lt.2 hover, modNth_eq_set _ hx, putPulse,
      show x.phase ≠ 0 by omega, show x.phase ≠ 1 by omega]
  rw [hlow]
  split
  · rename_i hwait
    rw [startPulse_of_waiting (s := s.putPulse p { x with phase := 0 }) hc (putPulse_pulses hx _) hdom rfl hwait,
      putPulse_putPulse]
    rfl
  · rename_i hnone
    exact startPulse_of_idle (putPulse_pulses hx _) fun hgo => hnone hgo.2.1

end Bound

end Pulses

end State

/-! ### The rows -/

section Rows

variable (s : State)

theorem exec_recordWriteDone (n : Fin 2080) (good : Bool) :
    exec (.recordWriteDone n good) s = .next (s.recordDone n good) := rfl

theorem exec_windowBoundary : exec .windowBoundary s = .next s.windowBoundary := rfl

theorem exec_closeWaitExpiry (m : Fin 2048) : exec (.closeWaitExpiry m) s = .next (s.closeWait m) := rfl

theorem exec_closingRecordWrite (good : Bool) : exec (.closingRecordWrite good) s = .next (s.closingWrite good) := rfl

theorem exec_demandWindowEnd : exec .demandWindowEnd s = .next s.demandEnd := rfl

theorem exec_pulseOutput (p : Fin 16) : exec (.pulseOutput p) s = .next (s.pulseOutput p) := rfl

end Rows

/-- Settles O45: each clause is one case of a row; the increments that follow a record write change no byte. -/
theorem meteringEventsAndPulses : Obligations.MeteringEventsAndPulses := by
  refine ⟨fun s => ⟨fun n good h => ?_, fun n k bytes hw hopen => ?_, fun h => ?_, fun hend hdom hdue hblock => ?_,
    fun m h => ?_, fun m k g hcfg hgrid hruns hwin => ⟨fun hearly => ?_, fun hdue => ?_⟩, fun good h => ?_,
    fun n rest hq hopen hidle => ?_, fun h => ?_,
    fun hopen hdom hblock hdone => ⟨fun h => ?_, fun e hreset hdue => ?_⟩⟩,
    fun s p => ⟨fun h => ?_, fun x c hx hc hdom => ⟨fun hidle hnone => ?_, fun hidle hwait => ?_,
      fun hbusy hearly => ?_, fun hhigh hover => ?_, fun hpause hover => ?_, fun d _ => ?_⟩⟩⟩
  · rw [exec_recordWriteDone, State.recordDone_of_idle good h]
  · have hsame : SameMemory (s.recordStored n k bytes) ((s.recordStored n k bytes).drainMet n 8) :=
      (SameMemory.refl _).drainMet
    refine ⟨(s.recordStored n k bytes).drainMet n 8, ?_, ?_, fun a ha => ?_, fun hsamples hblocks => ?_⟩
    · rw [exec_recordWriteDone, State.recordDone_of_written hw hopen]
    · exact (State.bytesAt_congr fun x _ _ => hsame x).trans (State.setBytes_bytesAt ..)
    · rw [hsame, State.recordStored_byteAt_outside ha]
    · exact State.drainMet_of_idle (by rw [State.recordStored_metCh, hsamples])
        (by rw [State.recordStored_metCh, hblocks]) 8
  · rw [exec_windowBoundary, State.windowBoundary_of_idle h]
  · obtain ⟨moved, hmoved⟩ := State.windowBoundary_of_due hend hdom hdue hblock
    exact ⟨moved, by rw [exec_windowBoundary, hmoved]⟩
  · rw [exec_closeWaitExpiry, State.closeWait_of_idle h]
  · rw [exec_closeWaitExpiry, State.closeWait_of_open hcfg hgrid hruns hwin, if_pos hearly]
  · rw [exec_closeWaitExpiry, State.closeWait_of_open hcfg hgrid hruns hwin, if_neg (Nat.not_lt.2 hdue)]
  · rw [exec_closingRecordWrite, State.closingWrite_of_idle good h]
  · rw [exec_closingRecordWrite, State.closingWrite_of_waiting hq hopen hidle]
  · rw [exec_demandWindowEnd, State.demandEnd_of_held h]
  · rw [exec_demandWindowEnd, State.demandEnd_of_evaluated hopen hdom hblock hdone]
    rcases h with hnone | ⟨e, hreset, hearly⟩
    · rw [hnone]
    · rw [hreset]
      exact congrArg _ (if_pos hearly)
  · refine ⟨State.demandsCleared e 32 { s with met := { s.met with resetMax := none } }, ?_, ?_,
      fun i hi => State.demandsCleared_bytesAt hi, fun a ha => State.demandsCleared_byteAt_outside ha⟩
    · rw [exec_demandWindowEnd, State.demandEnd_of_evaluated hopen hdom hblock hdone, hreset]
      exact congrArg _ (if_neg (Nat.not_lt.2 hdue))
    · rw [State.demandsCleared_met]
  · rw [exec_pulseOutput, State.pulseOutput_of_unbound h]
  · rw [exec_pulseOutput, State.pulseOutput_of_idle hx hc hdom hidle, State.startPulse_of_idle hx (by omega)]
  · rw [exec_pulseOutput, State.pulseOutput_of_idle hx hc hdom hidle,
      State.startPulse_of_waiting hc hx hdom hidle hwait]
    rfl
  · rw [exec_pulseOutput, State.pulseOutput_of_early hx hc hdom hbusy hearly]
  · rw [exec_pulseOutput, State.pulseOutput_of_width_over hx hc hdom hhigh hover]
    rfl
  · rw [exec_pulseOutput, State.pulseOutput_of_pause_over hx hc hdom hpause hover]
    rfl
  · by_cases hle : x.waiting ≤ 65535
    · obtain ⟨y, hy, hdiv, hwait⟩ := State.pulseAdd_pulse (c := c) hx hle d
      exact ⟨y, .inl ⟨hy, hdiv, hwait⟩⟩
    · exact ⟨x, .inr (Nat.lt_of_not_le hle)⟩

end Sys2Proof.Machine
end

section
/-! Status, forces and signals: what the commands reply, store and log, and what they refuse (R217 to R221, R243). -/

namespace Sys2Proof.Machine

variable {c : Cmd} {s : State}

/-- SOLO, PRIMARY and MAINTENANCE pass the role gate (R517). -/
theorem roleGate_of_claiming (hrole : s.role = 0 ∨ s.role = 1 ∨ s.role = 4) (k : State × CmdEnd) :
    roleGate s k = k := by
  have hpass : ¬(s.role = 2 ∨ s.role = 3) := by omega
  exact if_neg hpass

/-! ### Forces -/

/-- Without a change, no force is in conflict with one. -/
theorem pendingConflict_of_no_change (h : s.cyc.change = none) (f : Force) : pendingConflict s f = false := by
  rw [pendingConflict, h]

section Forces

variable (hrole : s.role = 0 ∨ s.role = 1 ∨ s.role = 4)
include hrole

theorem cycForceSet_of_unknown (hsym : s.symById (c.p 0 4) = none) : cycForceSet c s = (s, .st .symbolUnknown) := by
  rw [cycForceSet, roleGate_of_claiming hrole]
  simp only [hsym]

theorem cycForceSet_of_unforceable {y : Sym} (hsym : s.symById (c.p 0 4) = some y) (hkind : y.kind < 1 ∨ 3 < y.kind) :
    cycForceSet c s = (s, .st .badParam) := by
  rw [cycForceSet, roleGate_of_claiming hrole]
  simp only [hsym, if_pos hkind]

/-- A new force of an input is kept for the next copy-in: no entry is written (R219). -/
theorem cycForceSet_of_new_input {y : Sym} (hsym : s.symById (c.p 0 4) = some y) (hkind : y.kind = 1)
    (hreserved : c.p 5 3 = 0) (hchange : s.cyc.change = none) (hroom : s.cyc.forces.length < 4096)
    (hnew : (s.cyc.forces.any fun f => f.id == c.p 0 4) = false) :
    cycForceSet c s =
      let f : Force := ⟨c.p 0 4, BitVec.ofNat 8 (c.p 4 1), BitVec.ofNat 8 y.type, slice c.params 8 (typeSize y.type)⟩
      (({ s with cyc := { s.cyc with forces := s.cyc.forces ++ [f] } }).raise srcCyc Ev.CYC_FORCE_SET (c.p 0 4)
        (c.p 8 4), .st .ok) := by
  rw [cycForceSet, roleGate_of_claiming hrole]
  simp only [hsym, hkind, Nat.lt_irrefl, Nat.reduceLT, or_self, ↓reduceIte, hreserved, ne_eq, not_true_eq_false,
    pendingConflict_of_no_change hchange, Bool.false_eq_true, hnew, Bool.not_false, Nat.not_le.2 hroom, and_false]

theorem cycForceRelease_of_unknown (hone : c.p 0 4 ≠ 0xFFFFFFFF) (hsym : s.symById (c.p 0 4) = none) :
    cycForceRelease c s = (s, .st .symbolUnknown) := by
  rw [cycForceRelease, roleGate_of_claiming hrole]
  simp only [Bool.not_eq_eq_eq_not, Bool.not_true, beq_eq_false_iff_ne, ne_eq, hone, not_false_eq_true, hsym,
    Option.isNone_none, and_self, ↓reduceIte]

theorem cycForceRelease_of_all (hall : c.p 0 4 = 0xFFFFFFFF) :
    cycForceRelease c s =
      (s.cyc.forces.foldl (fun s f => s.raise srcCyc Ev.CYC_FORCE_RELEASED f.id 0)
        { s with cyc := { s.cyc with forces := [] } }, .st .ok s.cyc.forces.length) := by
  have hgone : (s.cyc.forces.filter fun _ => true) = s.cyc.forces := List.filter_eq_self.2 fun _ _ => rfl
  have hkept : (s.cyc.forces.filter fun _ => false) = [] := List.filter_eq_nil_iff.2 fun _ _ => Bool.false_ne_true
  rw [cycForceRelease, roleGate_of_claiming hrole]
  simp only [hall, beq_self_eq_true, Bool.not_true, Bool.false_eq_true, false_and, if_false, Bool.true_or, hgone, hkept]

end Forces

/-! ### Signals -/

theorem cycReadSignals_of_bad_count (hn : c.p 0 4 = 0 ∨ 4096 < c.p 0 4) :
    cycReadSignals c s = (s, .st .badParam 0xFFFF) := if_pos hn

section ReadOne

variable (hn : c.p 0 4 = 1) (hlen : c.params.length = 8)
include hn hlen

theorem cycReadSignals_of_unknown (hsym : s.symById (c.p 4 4) = none) :
    cycReadSignals c s = (s, .st .symbolUnknown) := by
  have hcount : ¬((1 : Nat) = 0 ∨ 4096 < 1) := by decide
  simp only [cycReadSignals, hn, hlen, if_neg hcount, Nat.reduceMul, Nat.reduceAdd, ne_eq, not_true_eq_false, if_false,
    List.range_one, List.map_cons, List.map_nil, List.mapIdx_cons, List.mapIdx_nil, Nat.add_zero, hsym,
    List.findSome?_cons]

/-- The reply to one read is the signal's entry, with byte 10 telling whether the signal is forced. -/
theorem cycReadSignals_of_signal {y : Sym} (hsym : s.symById (c.p 4 4) = some y) (hlo : 1 ≤ y.kind)
    (hhi : y.kind ≤ 3) :
    cycReadSignals c s =
      let e := s.bytesAt (s.entryAddr y.loc) 16
      (s, replyOr c (e.take 10 ++ [if s.cyc.forces.any (·.id == c.p 4 4) then 1 else 0, 0] ++ e.drop 12)) := by
  have hcount : ¬((1 : Nat) = 0 ∨ 4096 < 1) := by decide
  simp only [cycReadSignals, hn, hlen, if_neg hcount, Nat.reduceMul, Nat.reduceAdd, ne_eq, not_true_eq_false, if_false,
    List.range_one, List.map_cons, List.map_nil, List.mapIdx_cons, List.mapIdx_nil, Nat.add_zero, hsym,
    if_pos (And.intro hlo hhi), List.findSome?_cons, List.findSome?_nil, Option.elim_some, List.flatten_cons,
    List.flatten_nil, List.append_nil]

end ReadOne

section Write

variable (hrole : s.role = 0 ∨ s.role = 1 ∨ s.role = 4)
include hrole

theorem cycWriteSignals_of_running (hmode : s.mode = 1) : cycWriteSignals c s = (s, .st .mode) := by
  rw [cycWriteSignals, roleGate_of_claiming hrole]
  exact if_pos hmode

/-- One output or internal signal that no force holds takes the value bytes of its type (R221). -/
theorem cycWriteSignals_of_signal (hmode : s.mode ≠ 1) (hn : c.p 0 4 = 1) (hlen : c.params.length = 20)
    (hreserved : c.p 8 4 = 0) {y : Sym} (hsym : s.symById (c.p 4 4) = some y) (hlo : 2 ≤ y.kind) (hhi : y.kind ≤ 3)
    (hfree : (s.cyc.forces.any fun f => f.id == c.p 4 4) = false) :
    cycWriteSignals c s =
      (s.setBytes (s.entryAddr y.loc) (padTo 8 (slice c.params 12 (typeSize y.type))), .st .ok) := by
  have hgood : ¬(y.kind < 2 ∨ 3 < y.kind ∨ (s.cyc.forces.any fun f => f.id == c.p 4 4) = true ∨ c.p 8 4 ≠ 0) := by
    rintro (hlow | hhigh | hforced | hset)
    · exact Nat.not_lt.2 hlo hlow
    · exact Nat.not_lt.2 hhi hhigh
    · exact Bool.false_ne_true (hfree.symm.trans hforced)
    · exact hset hreserved
  have hcount : ¬((1 : Nat) = 0 ∨ 1024 < 1) := by decide
  rw [cycWriteSignals, roleGate_of_claiming hrole]
  simp only [hn, hlen, if_neg hmode, if_neg hcount, List.range_one, List.findSome?_cons, List.findSome?_nil,
    List.foldl_cons, List.foldl_nil, Nat.mul_one, Nat.mul_zero, Nat.add_zero, hsym, if_neg hgood, ne_eq,
    not_true_eq_false, if_false]

end Write

/-- Settles O32: each clause is one case of a command. -/
theorem forceAndSignalCommands : Obligations.ForceAndSignalCommands := by
  refine fun id c s s1 => ⟨fun h _ => answers_of_passes h rfl rfl, fun h hrole => ?_, fun h hrole => ?_,
    fun h => answers_of_passes h rfl rfl, fun h => ?_, fun h hrole => ?_⟩
  · have ends {r} (hbody : cycForceSet c s1 = r) : Answers (.cycForceSet id) id s r := answers_of_passes h rfl hbody
    exact ⟨fun hsym => ends (cycForceSet_of_unknown hrole hsym), fun y hsym =>
      ⟨fun hkind => ends (cycForceSet_of_unforceable hrole hsym hkind), fun hkind hreserved hchange hroom hnew =>
        ends (cycForceSet_of_new_input hrole hsym hkind hreserved hchange hroom hnew)⟩⟩
  · exact ⟨fun hone hsym => answers_of_passes h rfl (cycForceRelease_of_unknown hrole hone hsym),
      fun hall => answers_of_passes h rfl (cycForceRelease_of_all hrole hall)⟩
  · have ends {r} (hbody : cycReadSignals c s1 = r) : Answers (.cycReadSignals id) id s r :=
      answers_of_passes h rfl hbody
    exact ⟨fun hn => ends (cycReadSignals_of_bad_count hn), fun hn hlen =>
      ⟨fun hsym => ends (cycReadSignals_of_unknown hn hlen hsym),
        fun y hsym hlo hhi => ends (cycReadSignals_of_signal hn hlen hsym hlo hhi)⟩⟩
  · exact ⟨fun hmode => answers_of_passes h rfl (cycWriteSignals_of_running hrole hmode),
      fun hmode hn hlen hreserved y hsym hlo hhi hfree => answers_of_passes h rfl
        (cycWriteSignals_of_signal hrole hmode hn hlen hreserved hsym hlo hhi hfree)⟩

end Sys2Proof.Machine
end

section
/-! Online change: loading a package, applying it, a change of values, and cancelling (R222 to R231, R243, R524). -/

namespace Sys2Proof.Machine

variable {c : Cmd} {s : State}

/-! ### Loading a package (R222, R223, R524) -/

/-- The chunk at offset 0 starts a new load, whatever was loaded before. -/
theorem takeChunk_first (old : Option Chunks) {total : Nat} {chunk : List Byte} (h : chunk.length ≤ total) :
    takeChunk old 0 total chunk = some ⟨total, chunk⟩ := by
  simp only [takeChunk, ↓reduceIte, ne_eq, not_true_eq_false, List.length_nil, List.nil_append, Nat.not_lt.2 h,
    or_self]

/-- A package that passes its checks is placed in the other half, sent to the peer by a primary whose link is up, and
kept as the change to apply. -/
theorem loadChange_of_valid {pkg : List Byte} (hsize : hLen pkg ≤ 0x400000)
    (hvalid : changeFault s.imageEnv s.progImage (pkg.take (hLen pkg)) (pkg.drop (hLen pkg)) = none) :
    loadChange pkg s =
      let img := pkg.take (hLen pkg)
      let v := (s.placeCode img (State.halfBase (if s.regBit R.CYC_MODE 4 then 0 else 1))).placeTables img
      let v := if v.role = 1 ∧ v.linkUpNow = true then v.emit (.changePackage img) else v
      let w := { v with cyc := { v.cyc with change := some ⟨false, img, pkg.drop (hLen pkg), false, 0⟩ } }
      ((w.setRegField R.CYC_CHANGE_STATUS 2 0 1).setRegBit R.CYC_CHANGE_STATUS 3 false, .st .ok) := by
  rw [loadChange, if_neg (Nat.not_lt.2 hsize)]
  simp only [hvalid]
  rfl

section Commands

variable (hrole : s.role = 0 ∨ s.role = 1 ∨ s.role = 4)
include hrole

theorem cycChangeLoad_of_unloaded (hloaded : s.loaded = false) :
    cycChangeLoad c s = (s, .st .imageInvalid 9) := by
  rw [cycChangeLoad, roleGate_of_claiming hrole, hloaded]
  rfl

section Load

variable (hloaded : s.loaded = true)
include hloaded

theorem cycChangeLoad_of_active (hstate : s.changeState ≠ 0) : cycChangeLoad c s = (s, .st .changeActive) := by
  rw [cycChangeLoad, roleGate_of_claiming hrole]
  simp only [hloaded, Bool.not_true, Bool.false_eq_true, if_false, if_pos hstate]

section First

variable (hstate : s.changeState = 0) (hold : hLen s.progImage ≤ 0x400000) (hoff : c.p 0 4 = 0)
include hstate hold hoff

/-- The first chunk of a longer package is kept. -/
theorem cycChangeLoad_of_part (hpart : (c.params.drop 8).length < c.p 4 4) :
    cycChangeLoad c s =
      ({ s with cyc := { s.cyc with changeLoad := some ⟨c.p 4 4, c.params.drop 8⟩ } }, .st .ok) := by
  rw [cycChangeLoad, roleGate_of_claiming hrole, hoff, takeChunk_first _ (Nat.le_of_lt hpart)]
  simp only [hloaded, hstate, Nat.not_lt.2 hold, if_pos hpart]
  rfl

/-- A package of one chunk is loaded at once. -/
theorem cycChangeLoad_of_whole (hwhole : (c.params.drop 8).length = c.p 4 4) :
    cycChangeLoad c s =
      loadChange (c.params.drop 8) { s with cyc := { s.cyc with changeLoad := none } } := by
  rw [cycChangeLoad, roleGate_of_claiming hrole, hoff, takeChunk_first _ (Nat.le_of_eq hwhole)]
  simp only [hloaded, hstate, Nat.not_lt.2 hold, if_neg (Nat.not_lt.2 (Nat.le_of_eq hwhole.symm))]
  rfl

end First

end Load

/-! ### Applying a change (R224) -/

theorem cycChangeApply_of_hold (hmode : s.mode = 2) : cycChangeApply c s = (s, .st .mode) := by
  rw [cycChangeApply, roleGate_of_claiming hrole, if_pos hmode]

section Apply

variable (hmode : s.mode ≠ 2)
include hmode

theorem cycChangeApply_of_none (hchange : s.cyc.change = none) :
    cycChangeApply c s = (s, .st .badParam 0xFFFF) := by
  rw [cycChangeApply, roleGate_of_claiming hrole, if_neg hmode, hchange]

section Change

variable {ch : Change} (hchange : s.cyc.change = some ch)
include hchange

theorem cycChangeApply_of_active (hstate : 2 ≤ s.changeState) : cycChangeApply c s = (s, .st .changeActive) := by
  rw [cycChangeApply, roleGate_of_claiming hrole, if_neg hmode, hchange]
  exact if_pos hstate

variable (hstate : s.changeState < 2)
include hstate

/-- Without the release of forces, the first force in conflict with the change is named. -/
theorem cycChangeApply_of_conflict (hkeep : c.p 0 4 = 0) (hfull : ch.values = false) {f : Force}
    (hforce : s.cyc.forces.find? (State.forceConflict (symbols ch.image)) = some f) :
    cycChangeApply c s = (s, .st .forceConflict (f.id % 65536) (f.id / 65536)) := by
  rw [cycChangeApply, roleGate_of_claiming hrole, if_neg hmode, hchange]
  simp only [Nat.not_le.2 hstate, if_false, hkeep, Nat.reduceLeDiff, Nat.reduceBEq, Bool.false_eq_true, hfull, hforce]

/-- With the release of forces, no force stands in the way: the change waits from now on. -/
theorem cycChangeApply_of_release (hrelease : c.p 0 4 = 1) :
    cycChangeApply c s =
      (({ s with cyc := { s.cyc with
          change := some { ch with releaseForces := true, waitFrom := s.raw } } }).setRegField
        R.CYC_CHANGE_STATUS 2 0 2, .st .pending) := by
  rw [cycChangeApply, roleGate_of_claiming hrole, if_neg hmode, hchange]
  simp only [Nat.not_le.2 hstate, if_false, hrelease, Nat.reduceLeDiff, BEq.rfl, if_true]

end Change

end Apply

/-! ### A change of values (R231) -/

section Values

variable (hloaded : s.loaded = true) (hstate : s.changeState = 0) (hprogram : c.p 0 4 = hProgramId s.progImage)
  (hbuild : c.p 4 8 = hBuildId s.progImage) (hsome : 0 < c.p 12 4) (hmax : c.p 12 4 ≤ 4096)
  {items : List (Nat × List Byte)} (hitems : splitValues (c.p 12 4) (c.params.drop 16) = some items)
include hloaded hstate hprogram hbuild hsome hmax hitems

theorem cycChangeValues_of_bad_item {i : Nat} (hbad : badItem s.syms items = some i) :
    cycChangeValues c s = (s, .st .badParam i) := by
  rw [cycChangeValues, roleGate_of_claiming hrole]
  simp only [hloaded, Bool.not_true, Bool.false_eq_true, if_false, hstate, ne_eq, not_true_eq_false, hprogram, hbuild,
    Nat.ne_of_gt hsome, Nat.not_lt.2 hmax, or_self, hitems, hbad]

/-- A list of values that fits the overlay waits for its switch from now on. -/
theorem cycChangeValues_of_fitting (hgood : badItem s.syms items = none) (hfit : s.valuesFit c.params = true) :
    cycChangeValues c s =
      ((({ s with cyc := { s.cyc with change := some ⟨true, [], c.params, false, s.raw⟩ } }).setRegField
        R.CYC_CHANGE_STATUS 2 0 2).setRegBit R.CYC_CHANGE_STATUS 3 true, .st .pending) := by
  rw [cycChangeValues, roleGate_of_claiming hrole]
  simp only [hloaded, Bool.not_true, Bool.false_eq_true, if_false, hstate, ne_eq, not_true_eq_false, hprogram, hbuild,
    Nat.ne_of_gt hsome, Nat.not_lt.2 hmax, or_self, hitems, hgood, hfit]

end Values

/-! ### Cancelling a change (R230) -/

theorem cycChangeCancel_of_switching (hstate : s.changeState = 3) : cycChangeCancel c s = (s, .st .changeActive) := by
  rw [cycChangeCancel, roleGate_of_claiming hrole, if_pos hstate]

theorem cycChangeCancel_of_waiting (hstate : s.changeState ≠ 3) :
    cycChangeCancel c s =
      (((({ s with cyc := { s.cyc with change := none } }).setRegField R.CYC_CHANGE_STATUS 2 0 0).setRegBit
        R.CYC_CHANGE_STATUS 3 false).flushDelayed, .st .ok) := by
  rw [cycChangeCancel, roleGate_of_claiming hrole, if_neg hstate]

end Commands

/-- Settles O33: each clause is one case of a command. -/
theorem onlineChangeCommands : Obligations.OnlineChangeCommands := by
  refine fun id c s s1 hrole => ⟨fun h => ?_, fun h => ?_,
    fun h hloaded hstate hprogram hbuild hsome hmax items hitems => ?_, fun h => ?_⟩
  · have ends {r} (hbody : cycChangeLoad c s1 = r) : Answers (.cycChangeLoad id) id s r :=
      answers_of_passes h rfl hbody
    refine ⟨fun hloaded => ends (cycChangeLoad_of_unloaded hrole hloaded),
      fun hloaded hstate => ends (cycChangeLoad_of_active hrole hloaded hstate),
      fun hloaded hstate hold hoff => ⟨fun hpart => ends (cycChangeLoad_of_part hrole hloaded hstate hold hoff hpart),
        fun hwhole hsize hvalid => ends ?_⟩⟩
    rw [cycChangeLoad_of_whole hrole hloaded hstate hold hoff hwhole]
    exact loadChange_of_valid hsize hvalid
  · have ends {r} (hbody : cycChangeApply c s1 = r) : Answers (.cycChangeApply id) id s r :=
      answers_of_passes h rfl hbody
    exact ⟨fun hmode => ends (cycChangeApply_of_hold hrole hmode),
      fun hmode hchange => ends (cycChangeApply_of_none hrole hmode hchange), fun ch hmode hchange =>
      ⟨fun hstate => ends (cycChangeApply_of_active hrole hmode hchange hstate),
        fun hstate hkeep hfull f hforce =>
          ends (cycChangeApply_of_conflict hrole hmode hchange hstate hkeep hfull hforce),
        fun hstate hrelease => ends (cycChangeApply_of_release hrole hmode hchange hstate hrelease)⟩⟩
  · have ends {r} (hbody : cycChangeValues c s1 = r) : Answers (.cycChangeValues id) id s r :=
      answers_of_passes h rfl hbody
    exact ⟨fun i hbad =>
        ends (cycChangeValues_of_bad_item hrole hloaded hstate hprogram hbuild hsome hmax hitems hbad),
      fun hgood hfit =>
        ends (cycChangeValues_of_fitting hrole hloaded hstate hprogram hbuild hsome hmax hitems hgood hfit)⟩
  · exact ⟨fun hstate => answers_of_passes h rfl (cycChangeCancel_of_switching hrole hstate),
      fun hstate => answers_of_passes h rfl (cycChangeCancel_of_waiting hrole hstate)⟩

end Sys2Proof.Machine
end

section
/-! Commands on segments and stations: the gates they share, and what each stores and answers (R245 to R271, R284, R292,
R293, R517). -/

namespace Sys2Proof.Machine

variable {c : Cmd} {s : State}

/-! ### What leaves the segments and their contexts -/

namespace State

@[simp] theorem updNv_segState (f : Nv → Nv) (k : Nat) : (s.updNv f).segState k = s.segState k := rfl

@[simp] theorem updNv_regBit (f : Nv → Nv) (a i : Nat) : (s.updNv f).regBit a i = s.regBit a i := rfl

@[simp] theorem updNv_ctx (f : Nv → Nv) (pos : Nat) : (s.updNv f).ctx pos = s.ctx pos := rfl

@[simp] theorem modSeg_ctx (f : SegSt → SegSt) (k pos : Nat) : (s.modSeg k f).ctx pos = s.ctx pos := rfl

/-- Stop means no mode that runs tasks, and no drain (R214). -/
theorem stopped_of_idle (hmode : s.mode = 0) (hdrain : s.isDraining = false) : s.stopped = true := by
  unfold isDraining at hdrain
  simp [stopped, hmode, hdrain]

theorem not_stopped_of_busy (hruns : s.mode ≠ 0 ∨ s.isDraining = true) : s.stopped = false := by
  unfold isDraining at hruns
  rcases hruns with hmode | hdrain
  · simp [stopped, hmode]
  · simp [stopped, hdrain]

end State

/-! ### The gates of a command -/

theorem roleGate_of_refusing (hrole : s.role = 2 ∨ s.role = 3) (r : State × CmdEnd) : roleGate s r = (s, .st .role) :=
  if_pos hrole

theorem roleGate_of_active (h2 : s.role ≠ 2) (h3 : s.role ≠ 3) (r : State × CmdEnd) : roleGate s r = r :=
  if_neg (not_or.2 ⟨h2, h3⟩)

theorem withSeg_of_above (h : 19 < c.p 0 4) (f : Nat → State × CmdEnd) : withSeg c s f = (s, .st .badParam 0) :=
  if_pos h

theorem withSeg_of_le (h : c.p 0 4 ≤ 19) (f : Nat → State × CmdEnd) : withSeg c s f = f (c.p 0 4) :=
  if_neg (Nat.not_lt.2 h)

/-- A unit that is not in STANDBY or SILENT executes the command on a segment that there is. -/
theorem gates_open (h2 : s.role ≠ 2) (h3 : s.role ≠ 3) (hk : c.p 0 4 ≤ 19) (f : Nat → State × CmdEnd) :
    roleGate s (withSeg c s f) = f (c.p 0 4) := by
  rw [roleGate_of_active h2 h3, withSeg_of_le hk]

theorem feramGate_of_open (h : s.pwr.feramHold = false) (r : State × CmdEnd) : feramGate s r = r :=
  if_neg (Bool.eq_false_iff.1 h)

/-- No parameter is refused when every check passes. -/
theorem firstBad_eq_none_iff (checks : List (Bool × Nat)) : firstBad checks = none ↔ ∀ x ∈ checks, x.1 = false := by
  induction checks with
  | nil => simp [firstBad]
  | cons x rest ih => obtain ⟨_ | _, off⟩ := x <;> simp [firstBad, ih]

/-- The commands that change a segment or a station pass the gate of the role, then that of the segment number. -/
theorem exec_of_gated {op id : Nat} {i : Instr}
    (h : (op, i) ∈ [(Op.STN_SEGMENT_CONFIG, Instr.stnSegmentConfig id), (Op.STN_SEGMENT_ENABLE, .stnSegmentEnable id),
      (Op.STN_SEGMENT_DISABLE, .stnSegmentDisable id), (Op.STN_ADMIT, .stnAdmit id), (Op.STN_REMOVE, .stnRemove id),
      (Op.STN_TOKEN_ISSUE, .stnTokenIssue id), (Op.STN_BOXWOOD_SET, .stnBoxwoodSet id)]) :
    ∃ f : Cmd → State → Nat → State × CmdEnd,
      ∀ s, exec i s = hostRow op id (fun c s => roleGate s (withSeg c s (f c s))) s := by
  simp only [List.mem_cons, Prod.mk.injEq, List.not_mem_nil, or_false] at h
  rcases h with ⟨rfl, rfl⟩ | ⟨rfl, rfl⟩ | ⟨rfl, rfl⟩ | ⟨rfl, rfl⟩ | ⟨rfl, rfl⟩ | ⟨rfl, rfl⟩ | ⟨rfl, rfl⟩ <;>
    exact ⟨_, fun _ => rfl⟩

/-- An admission record without input and output signals takes no room in the frames of its segment. -/
theorem layout_runTypes_zero (s : State) (first : Nat) : layout (s.runTypes first 0) 0 = ([], 0) := rfl

theorem rangesMeet_of_empty (first : Nat) (r : Nat × Nat) : rangesMeet (first, 0) r = false := by simp [rangesMeet]

/-! ### The queries -/

section Status

variable (hk : c.p 0 4 ≤ 19)
include hk

theorem stationStatus_of_unknown (hadm : s.adm (64 * c.p 0 4 + c.p 4 4) = none) :
    stationStatus c s = (s, .st .stationUnknown) := by
  simp only [stationStatus, withSeg_of_le hk, hadm]

theorem stationStatus_of_known {a : Adm} {x : Ctx} (hadm : s.adm (64 * c.p 0 4 + c.p 4 4) = some a)
    (hctx : s.ctx (64 * c.p 0 4 + c.p 4 4) = some x) (hn : c.p 4 4 ≤ 63) :
    stationStatus c s = (s, replyOr c (padTo 48 (leBytes 4 x.state ++ leBytes 4 x.ix ++ a.serial ++
      leBytes 4 x.claim ++ leBytes 4 x.delayUs ++ leBytes 4 x.absentCount ++ leBytes 4 x.joinCount ++
      leBytes 4 (a.boxCrc.getD 0)))) := by
  simp only [stationStatus, withSeg_of_le hk, hadm, hctx, if_neg (Nat.not_lt.2 hn)]

theorem stationList_eq :
    stationList c s = (s, replyOr c (((List.range 64).map fun n => leBytes 4
      (match s.ctx (64 * c.p 0 4 + n) with
        | some x => x.state + (if x.boxActive then 8 else 0) + 16 * (x.delayUs % 2 ^ 28)
        | none => 7)).flatten)) :=
  withSeg_of_le hk _

end Status

/-! ### Segments (R292, R293) -/

/-- The configuration that STN_SEGMENT_CONFIG carries. -/
def segCfgParam (c : Cmd) : SegCfg :=
  ⟨c.p 4 1, c.p 5 1 == 1, c.p 6 2, c.p 8 2, c.p 0xA 2, c.p 0xC 4, c.p 0x10 4, c.p 0x14 4⟩

/-- The ranges of the fields of a segment's configuration (R292). -/
structure SegCfg.InRange (g : SegCfg) : Prop where
  stations : 1 ≤ g.n ∧ g.n ≤ 64
  window : 1 ≤ g.w ∧ g.w ≤ 64
  input : 8 ≤ g.bIn ∧ g.bIn ≤ 4096 ∧ g.bIn % 8 = 0
  output : 4 ≤ g.bOut ∧ g.bOut ≤ 1448 ∧ g.bOut % 4 = 0
  delay : 1 ≤ g.dmax ∧ g.dmax ≤ 2000
  period : g.unbound ≤ 240000
  session : 100 ≤ g.sessionMs ∧ g.sessionMs ≤ 3700000

section Active

variable (h2 : s.role ≠ 2) (h3 : s.role ≠ 3) (hk : c.p 0 4 ≤ 19)
include h2 h3 hk

theorem segmentConfig_of_enabled (hstate : s.segState (c.p 0 4) ≠ 0) : segmentConfig c s = (s, .st .mode) := by
  rw [segmentConfig, gates_open h2 h3 hk]
  exact if_pos hstate

/-- A configuration in range is stored for a DISABLED segment without admission records. -/
theorem segmentConfig_of_inRange (hstate : s.segState (c.p 0 4) = 0) (hempty : s.segPositions (c.p 0 4) = [])
    (hopen : s.pwr.feramHold = false) (hflag : c.p 5 1 ≤ 1) (hrange : (segCfgParam c).InRange) :
    segmentConfig c s = ((s.setSegCfg (c.p 0 4) (segCfgParam c)).rebind, .st .ok) := by
  obtain ⟨⟨hn, hn'⟩, ⟨hw, hw'⟩, ⟨hin, hin', hin8⟩, ⟨hout, hout', hout4⟩, ⟨hd, hd'⟩, hper, hses, hses'⟩ := hrange
  simp only [segCfgParam] at hn hn' hw hw' hin hin' hin8 hout hout' hout4 hd hd' hper hses hses'
  rw [segmentConfig, gates_open h2 h3 hk]
  simp only [hempty, List.filterMap_nil, List.any_nil, Bool.or_false, hstate, ne_eq, not_true_eq_false, if_false,
    List.length_nil, Nat.not_lt_zero, feramGate_of_open hopen]
  rw [(firstBad_eq_none_iff _).2 (by simp; omega)]
  rfl


section Enable

variable (hcfg : s.segCfg (c.p 0 4) ≠ none)
include hcfg

/-- An ACTIVE segment is only noted as enabled. -/
theorem segmentEnable_of_active (hstate : s.segState (c.p 0 4) = 2) :
    segmentEnable c s = (s.updNv fun n => { n with segOn := setBit n.segOn (c.p 0 4) true }, .st .ok) := by
  rw [segmentEnable, gates_open h2 h3 hk, if_neg (by simpa using hcfg)]
  simp only [State.updNv_segState, hstate]

theorem segmentEnable_of_disabled (hstate : s.segState (c.p 0 4) = 0) :
    segmentEnable c s =
      ((s.updNv fun n => { n with segOn := setBit n.segOn (c.p 0 4) true }).segStart (c.p 0 4) false,
        .st .pending) := by
  rw [segmentEnable, gates_open h2 h3 hk, if_neg (by simpa using hcfg)]
  simp only [State.updNv_segState, hstate]

/-- The enabling of a STOPPING segment is held pending. -/
theorem segmentEnable_of_stopping (hstate : s.segState (c.p 0 4) = 3) :
    segmentEnable c s =
      ((s.updNv fun n => { n with segOn := setBit n.segOn (c.p 0 4) true }).setRegBit (R.STN_SEG_STATE (c.p 0 4)) 2
        true, .st .pending) := by
  rw [segmentEnable, gates_open h2 h3 hk, if_neg (by simpa using hcfg)]
  simp only [State.updNv_segState, hstate]

end Enable

/-- A segment that a task is bound to is not disabled before the tasks have stopped. -/
theorem segmentDisable_of_bound (hbound : (s.boundTask (c.p 0 4)).isSome = true)
    (hruns : s.mode ≠ 0 ∨ s.isDraining = true) : segmentDisable c s = (s, .st .mode) := by
  rw [segmentDisable, gates_open h2 h3 hk,
    if_pos ⟨hbound, by rw [State.not_stopped_of_busy hruns]; rfl⟩]

section Disable

variable (hmode : s.mode = 0) (hdrain : s.isDraining = false)
  (hpend : s.regBit (R.STN_SEG_STATE (c.p 0 4)) 2 = false)
include hmode hdrain hpend

theorem segmentDisable_of_disabled (hstate : s.segState (c.p 0 4) = 0) :
    segmentDisable c s = (s.updNv fun n => { n with segOn := setBit n.segOn (c.p 0 4) false }, .st .ok) := by
  rw [segmentDisable, gates_open h2 h3 hk, State.stopped_of_idle hmode hdrain]
  simp [hstate, hpend]

/-- An ACTIVE segment stops, and the command waits for it. -/
theorem segmentDisable_of_active (hstate : s.segState (c.p 0 4) = 2) :
    segmentDisable c s =
      ((s.updNv fun n => { n with segOn := setBit n.segOn (c.p 0 4) false }).segStop (c.p 0 4),
        .later (.segmentOff (c.p 0 4))) := by
  rw [segmentDisable, gates_open h2 h3 hk, State.stopped_of_idle hmode hdrain]
  simp [hstate, hpend]

/-- A STARTING segment stops once it has started. -/
theorem segmentDisable_of_starting (hstate : s.segState (c.p 0 4) = 1) :
    segmentDisable c s =
      ((s.updNv fun n => { n with segOn := setBit n.segOn (c.p 0 4) false }).modSeg (c.p 0 4) fun g =>
        { g with wantOff := true }, .later (.segmentOff (c.p 0 4))) := by
  rw [segmentDisable, gates_open h2 h3 hk, State.stopped_of_idle hmode hdrain]
  simp [hstate, hpend]

end Disable

/-! ### Tokens and stations (R265, R266, R271, R284) -/

/-- Where no token is, a valid request draws one for its position. -/
theorem tokenIssue_of_no_token (hn : c.p 4 4 ≤ 63) (hlo : 1 ≤ c.p 0x18 4) (hhi : c.p 0x18 4 ≤ 2592000)
    (htokens : s.nvNext.tokens = []) (hdrbg : s.drbgOk = true) (hopen : s.pwr.feramHold = false) :
    tokenIssue c s =
      let r := s.issueToken (64 * c.p 0 4 + c.p 4 4)
        (if allZero (slice c.params 8 16) then none else some (slice c.params 8 16))
        (some (s.now + c.p 0x18 4 * 2 ^ 32)) true
      (r.2, replyOr c (leBytes 4 r.1.1 ++ r.1.2)) := by
  rw [tokenIssue, gates_open h2 h3 hk]
  simp only [htokens, List.any_nil, hdrbg, feramGate_of_open hopen, Bool.not_true, Bool.false_eq_true, if_false]
  rw [(firstBad_eq_none_iff _).2 (by simp; omega)]

theorem stationAdmit_of_unconfigured (hcfg : s.segCfg (c.p 0 4) = none) : stationAdmit c s = (s, .st .segmentFull) := by
  rw [stationAdmit, gates_open h2 h3 hk]
  simp only [hcfg]

/-- A station without signals and groups is admitted into a free position. -/
theorem stationAdmit_of_free {cfg : SegCfg} (hcfg : s.segCfg (c.p 0 4) = some cfg)
    (hroom : (s.segPositions (c.p 0 4)).length < cfg.n) (hn : c.p 4 4 ≤ 63) (hgroups : c.p 0x5C 4 = 0)
    (hlen : c.params.length = 0x60) (hfree : s.adm (64 * c.p 0 4 + c.p 4 4) = none) (hins : c.p 0x4C 4 = 0)
    (houts : c.p 0x54 4 = 0) (hlo : 10 ≤ c.p 0x58 4) (hhi : c.p 0x58 4 ≤ 3600000) (hhold : c.p 0x58 4 < cfg.sessionMs)
    (hctx : s.stn.ctxs.length < 1024) (hopen : s.pwr.feramHold = false) :
    stationAdmit c s =
      let pos := 64 * c.p 0 4 + c.p 4 4
      let a : Adm := ⟨slice c.params 8 16, slice c.params 0x18 48, c.p 0x48 4, 0, c.p 0x50 4, 0, c.p 0x58 4, [], none⟩
      (((((s.updNv fun nv => { nv with adms := tput nv.adms pos a }).setCtx pos (s.newCtx a)).countContexts).segCounts
        (c.p 0 4)).offlineSegs, .st .ok (s.newCtx a).ix) := by
  rw [stationAdmit, gates_open h2 h3 hk]
  simp only [hcfg, hgroups, hins, houts, if_neg (Nat.not_le.2 hroom), if_neg (Nat.not_le.2 hctx),
    feramGate_of_open hopen, hlen, List.range_zero, List.map_nil, List.mapIdx_nil, List.append_nil, Nat.mul_zero,
    Nat.add_zero, Nat.not_lt_zero, layout_runTypes_zero, rangesMeet_of_empty, hfree]
  rw [(firstBad_eq_none_iff _).2 (by simp [rangesMeet_of_empty, roundUp, hn, hlo, hhi, hhold])]
  rfl

theorem stationRemove_of_unknown (hadm : s.adm (64 * c.p 0 4 + c.p 4 4) = none) :
    stationRemove c s = (s, .st .stationUnknown) := by
  rw [stationRemove, gates_open h2 h3 hk]
  simp only [hadm]

section Remove

variable {a : Adm} (hadm : s.adm (64 * c.p 0 4 + c.p 4 4) = some a) (hn : c.p 4 4 ≤ 63)
include hadm hn

/-- A segment key in use cannot be renewed without random data. -/
theorem stationRemove_of_no_drbg (hkey : (s.seg (c.p 0 4)).key ≠ []) (hdrbg : s.drbgOk = false) :
    stationRemove c s = (s, .st .internal) := by
  rw [stationRemove, gates_open h2 h3 hk]
  simp only [hadm, if_neg (Nat.not_lt.2 hn), hdrbg, Bool.not_false]
  exact if_pos ⟨hkey, trivial⟩

/-- A station without a context leaves no session behind. -/
theorem stationRemove_of_no_context (hctx : s.ctx (64 * c.p 0 4 + c.p 4 4) = none)
    (hrenew : (s.seg (c.p 0 4)).key = [] ∨ s.drbgOk = true) (hopen : s.pwr.feramHold = false) :
    stationRemove c s =
      let k := c.p 0 4
      let pos := 64 * k + c.p 4 4
      let u := s.modSeg k fun g => { g with svcq := g.svcq.filter fun x => x.1 != pos % 64 }
      let u := (u.setQualities a.inFirst a.inCount 0x06).updNv fun nv =>
        { nv with adms := tdel nv.adms pos, tokens := nv.tokens.filter fun t => t.2.pos != pos }
      let u := ({ u with stn := { u.stn with ctxs := tdel u.stn.ctxs pos } }).modSeg k fun g =>
        { g with joins := tdel g.joins (pos % 64) }
      let v := ((u.countContexts).segCounts k).raise srcStn Ev.STN_REMOVED (State.stnParam pos) 0
      (v.renewKey k, .st .ok) := by
  have hready : ¬((s.seg (c.p 0 4)).key ≠ [] ∧ (!s.drbgOk) = true) := by
    rintro ⟨hkey, hdrbg⟩
    rcases hrenew with h | h
    · exact hkey h
    · rw [h] at hdrbg
      exact Bool.false_ne_true hdrbg
  rw [stationRemove, gates_open h2 h3 hk]
  simp only [hadm, if_neg (Nat.not_lt.2 hn), if_neg hready, feramGate_of_open hopen, State.modSeg_ctx, hctx]

end Remove

theorem boxwoodSet_of_unknown (hadm : s.adm (64 * c.p 0 4 + c.p 4 4) = none) :
    boxwoodSet c s = (s, .st .stationUnknown) := by
  rw [boxwoodSet, gates_open h2 h3 hk]
  simp only [hadm]

/-- Boxwood data of a station without a context only leaves its sum in the record. -/
theorem boxwoodSet_of_no_context {a : Adm} {g : SegCfg} (hadm : s.adm (64 * c.p 0 4 + c.p 4 4) = some a)
    (hcfg : s.segCfg (c.p 0 4) = some g) (hn : c.p 4 4 ≤ 63) (hlen : c.params.length = 8 + g.bOut)
    (hopen : s.pwr.feramHold = false) (hctx : s.ctx (64 * c.p 0 4 + c.p 4 4) = none) :
    boxwoodSet c s = (s.updNv fun nv => { nv with
      adms := tput nv.adms (64 * c.p 0 4 + c.p 4 4) { a with boxCrc := some (crc32 (c.params.drop 8)).toNat } },
      .st .ok) := by
  rw [boxwoodSet, gates_open h2 h3 hk]
  simp only [hadm, hcfg, if_neg (Nat.not_lt.2 hn), hlen, ne_eq, not_true_eq_false, if_false, feramGate_of_open hopen,
    State.updNv_ctx, hctx]

end Active

/-- Settles O35: each clause is one case of a command. -/
theorem segmentAndStationCommands : Obligations.SegmentAndStationCommands := by
  refine ⟨fun id c s s1 => ⟨fun op i hmem h => ?_, fun h2 h3 hk => ⟨fun h => ?_, fun h hcfg => ?_, fun h => ?_, ?_⟩⟩,
    fun id c s s1 hk => ⟨fun h2 h3 => ⟨fun h => ?_, fun h => ?_, fun h => ?_⟩, fun h => ?_, fun h => ?_⟩⟩
  · obtain ⟨f, hrow⟩ := exec_of_gated hmem
    exact ⟨fun hrole => answers_of_passes h (hrow s) (roleGate_of_refusing hrole _), fun h2 h3 habove =>
      answers_of_passes h (hrow s) ((roleGate_of_active h2 h3 _).trans (withSeg_of_above habove _))⟩
  · have ends {r} (hbody : segmentConfig c s1 = r) : Answers (.stnSegmentConfig id) id s r :=
      answers_of_passes h rfl hbody
    refine ⟨fun hstate => ends (segmentConfig_of_enabled h2 h3 hk hstate), ?_⟩
    intro g hstate hempty hopen hn hn' hflag hw hw' hin hin' hin8 hout hout' hout4 hd hd' hper hses hses'
    exact ends (segmentConfig_of_inRange h2 h3 hk hstate hempty hopen hflag
      ⟨⟨hn, hn'⟩, ⟨hw, hw'⟩, ⟨hin, hin', hin8⟩, ⟨hout, hout', hout4⟩, ⟨hd, hd'⟩, hper, hses, hses'⟩)
  · have hcfg := Option.isSome_iff_ne_none.1 hcfg
    exact ⟨fun hstate => answers_of_passes h rfl (segmentEnable_of_active h2 h3 hk hcfg hstate),
      fun hstate => answers_of_passes h rfl (segmentEnable_of_disabled h2 h3 hk hcfg hstate),
      fun hstate => answers_of_passes h rfl (segmentEnable_of_stopping h2 h3 hk hcfg hstate)⟩
  · have ends {r} (hbody : segmentDisable c s1 = r) : Answers (.stnSegmentDisable id) id s r :=
      answers_of_passes h rfl hbody
    exact ⟨fun hbound hruns => ends (segmentDisable_of_bound h2 h3 hk hbound hruns), fun hmode hdrain hpend =>
      ⟨fun hstate => ends (segmentDisable_of_disabled h2 h3 hk hmode hdrain hpend hstate),
        fun hstate => ends (segmentDisable_of_active h2 h3 hk hmode hdrain hpend hstate),
        fun hstate => ends (segmentDisable_of_starting h2 h3 hk hmode hdrain hpend hstate)⟩⟩
  · exact fun h hn hlo hhi htokens hdrbg hopen =>
      answers_of_passes h rfl (tokenIssue_of_no_token h2 h3 hk hn hlo hhi htokens hdrbg hopen)
  · refine ⟨fun hcfg => answers_of_passes h rfl (stationAdmit_of_unconfigured h2 h3 hk hcfg), ?_⟩
    intro a cfg hcfg hroom hn hgroups hlen hfree hins houts hlo hhi hhold _ hctx hopen
    exact answers_of_passes h rfl
      (stationAdmit_of_free h2 h3 hk hcfg hroom hn hgroups hlen hfree hins houts hlo hhi hhold hctx hopen)
  · have ends {r} (hbody : stationRemove c s1 = r) : Answers (.stnRemove id) id s r := answers_of_passes h rfl hbody
    exact ⟨fun hadm => ends (stationRemove_of_unknown h2 h3 hk hadm),
      fun a hadm hn hkey hdrbg => ends (stationRemove_of_no_drbg h2 h3 hk hadm hn hkey hdrbg),
      fun a hadm hn hctx hrenew hopen => ends (stationRemove_of_no_context h2 h3 hk hadm hn hctx hrenew hopen)⟩
  · exact ⟨fun hadm => answers_of_passes h rfl (boxwoodSet_of_unknown h2 h3 hk hadm),
      fun a g hadm hcfg hn hlen hopen hctx =>
        answers_of_passes h rfl (boxwoodSet_of_no_context h2 h3 hk hadm hcfg hn hlen hopen hctx)⟩
  · exact ⟨fun hadm => answers_of_passes h rfl (stationStatus_of_unknown hk hadm),
      fun a x hadm hctx hn => answers_of_passes h rfl (stationStatus_of_known hk hadm hctx hn)⟩
  · exact answers_of_passes h rfl (stationList_eq hk)

end Sys2Proof.Machine
end

section
/-! The bus cycle of a segment: the order of its phases, the commit decision and the commit (R249, R258 to R262, R267,
R272 to R279, R286, R291, R294). -/

namespace Sys2Proof.Machine

namespace State

variable {s : State} {k : Nat}

/-! ### What a change of a segment leaves, and what it reads back -/

section ModSeg

variable (f : SegSt → SegSt) (j t : Nat)

@[simp] theorem modSeg_segPositions : (s.modSeg k f).segPositions j = s.segPositions j := rfl

@[simp] theorem modSeg_boundTask : (s.modSeg k f).boundTask j = s.boundTask j := rfl

@[simp] theorem modSeg_claiming : (s.modSeg k f).claiming = s.claiming := rfl

@[simp] theorem modSeg_task : (s.modSeg k f).task t = s.task t := rfl

@[simp] theorem modSeg_finalMarked : (s.modSeg k f).finalMarked t = s.finalMarked t := rfl

@[simp] theorem modSeg_reg (a : Nat) : (s.modSeg k f).reg a = s.reg a := rfl

theorem seg_modSeg (hk : k < s.stn.segs.length) : (s.modSeg k f).seg k = f (s.seg k) := nth_modNth_self _ _ _ hk

end ModSeg

theorem RED_ROLE_ne_STN_SEG_DMEAS (k : Nat) : R.RED_ROLE ≠ R.STN_SEG_DMEAS k := by
  unfold R.RED_ROLE R.STN_SEG_DMEAS
  omega

/-- A register beside the role does not decide whether the unit claims. -/
theorem setReg_claiming {a : Nat} (h : R.RED_ROLE ≠ a) (v : Word) : (s.setReg a v).claiming = s.claiming := by
  rw [claiming, claiming, role, role, regField, regField, s.setReg_reg_ne h]

/-! ### The input phase (R249, R272, R274, R291) -/

theorem inputPhaseStart_of_inactive (hstate : s.segState k ≠ 2) : s.inputPhaseStart k = s := by
  unfold inputPhaseStart
  cases s.nextBoundary k with
  | none => rfl
  | some next => exact if_pos (.inl hstate)

/-- The classes hold for the whole phase as they stand when it begins. -/
theorem inputPhaseStart_of_no_stations (hstate : s.segState k = 2)
    (hphase : (s.seg k).phase = .idle ∨ (s.seg k).phase = .service) {b p : Instant}
    (hnext : s.nextBoundary k = some (b, p)) (hempty : s.segPositions k = []) :
    s.inputPhaseStart k = s.modSeg k fun g =>
      { g with phase := .input, boundary := b, period := p, staged := none, classes := s.classRegs,
               newKey := g.newKey.map fun w => { w with cycles := w.cycles + 1 } } := by
  have hopen : ¬(s.segState k ≠ 2 ∨ (s.seg k).phase ≠ .idle ∧ (s.seg k).phase ≠ .service) := by
    rintro (hstate' | ⟨hidle, hservice⟩)
    · exact hstate' hstate
    · exact hphase.elim hidle hservice
  simp only [inputPhaseStart, hnext, if_neg hopen, modSeg_segPositions, hempty, List.foldl_nil]

theorem inputPhaseEnd_of_other (hphase : (s.seg k).phase ≠ .input) : s.inputPhaseEnd k = s := if_pos hphase

theorem inputPhaseEnd_of_input (hphase : (s.seg k).phase = .input) :
    s.inputPhaseEnd k = (if s.loaded then s.ageSegment k else s).modSeg k fun g => { g with phase := .inputDone } :=
  if_neg (not_not_intro hphase)

/-! ### The stage phase (R249, R259, R277, R278, R285) -/

/-- The stage phase of a bound segment has begun, and an overrun that its boundary finds is counted. -/
def stageBegun (s : State) (k t : Nat) : State :=
  ((s.modSeg k fun g => { g with phase := .stage, staged := none }).setReg (R.STN_SEG_DMEAS k) 0).checkOverrun t

theorem stagePhaseStart_of_inactive (hstate : s.segState k ≠ 2) : s.stagePhaseStart k = s := by
  unfold stagePhaseStart
  cases s.boundTask k with
  | none => rfl
  | some t => exact if_pos (.inl hstate)

theorem checkOverrun_of_idle {t : Nat} (h : (s.task t).phase = .idle) : s.checkOverrun t = s :=
  if_neg fun hover => hover.1 h

section Stage

variable {t : Nat} (hbound : s.boundTask k = some t) (hstate : s.segState k = 2)
  (hphase : (s.seg k).phase = .inputDone)
include hbound hstate hphase

/-- A unit that does not claim stages nothing. -/
theorem stagePhaseStart_of_idle (hclaim : s.claiming = false) (hidle : (s.task t).phase = .idle) :
    s.stagePhaseStart k =
      (s.modSeg k fun g => { g with phase := .stage, staged := none }).setReg (R.STN_SEG_DMEAS k) 0 := by
  have hsame := setReg_claiming (s := s.modSeg k fun g => { g with phase := .stage, staged := none })
    (RED_ROLE_ne_STN_SEG_DMEAS k) 0
  have hnone := checkOverrun_of_idle (t := t)
    (s := (s.modSeg k fun g => { g with phase := .stage, staged := none }).setReg (R.STN_SEG_DMEAS k) 0) hidle
  simp only [stagePhaseStart, hbound, hstate, hphase, ne_eq, not_true_eq_false, or_self, if_false, hnone, hsame,
    modSeg_claiming, hclaim, Bool.not_false, if_true]

/-- The outputs of the cycle that the boundary stages go out to every station of the stage. -/
theorem stagePhaseStart_of_source {cycle : Nat} (hclaim : (s.stageBegun k t).claiming = true)
    (hsettle : ((s.stageBegun k t).seg k).settle = 0)
    (hsource : (s.stageBegun k t).stageSource t (s.seg k).boundary = some cycle)
    (hfinal : (s.stageBegun k t).finalMarked t = false) :
    s.stagePhaseStart k =
      let u := s.stageBegun k t
      let frames := u.stageFrames k (u.stageNums k)
      (u.modSeg k fun g => { g with staged := some ⟨cycle, (u.reg R.RED_CLAIM).toNat, u.stageNums k, u.now % 2 ^ 32,
        sendOffsets k 0 frames, 0⟩ }).sendStages k cycle
          (applyTime (s.seg k).boundary (u.reg (R.STN_APPLY_DELAY t)).toNat) frames := by
  unfold stageBegun at *
  simp only [stagePhaseStart, hbound, hstate, hphase, ne_eq, not_true_eq_false, or_self, if_false, hclaim,
    Bool.not_true, Bool.false_eq_true, hsettle, hsource, hfinal]

end Stage

/-! ### The commit decision (R260, R279, R286) -/

theorem commitDecision_of_other (hphase : (s.seg k).phase ≠ .stage) : s.commitDecision k = s := if_pos hphase

section Decide

variable (hphase : (s.seg k).phase = .stage)
include hphase

/-- Nothing was staged, so nothing is decided. -/
theorem commitDecision_of_unbound (hbound : s.boundTask k = none) (hstaged : (s.seg k).staged = none)
    (hk : k < s.stn.segs.length) :
    s.commitDecision k = s.modSeg k fun g => { g with phase := .decided } := by
  simp only [commitDecision, hphase, ne_eq, not_true_eq_false, if_false, hbound, seg_modSeg _ hk, hstaged]

theorem commitDecision_of_staged {t : Nat} (hbound : s.boundTask k = some t) {g : Staged}
    (hstaged : (((s.checkOverrun t).modSeg k fun g => { g with phase := .decided }).seg k).staged = some g) :
    s.commitDecision k = g.nums.foldl (fun s n => s.decideStation k g.cycle n)
      ((s.checkOverrun t).modSeg k fun g => { g with phase := .decided }) := by
  simp only [commitDecision, hphase, ne_eq, not_true_eq_false, if_false, hbound, hstaged]

end Decide

section Station

variable {c : Ctx} {n : Nat} (hctx : s.ctx (64 * k + n) = some c)
include hctx

section Decision

variable (cycle : Nat)

/-- An acknowledgement sets the commit bit of the station. -/
theorem decideStation_of_acked (hacked : c.acked = true) (hlo : 3 ≤ c.state) (hhi : c.state ≤ 5) :
    s.decideStation k cycle n =
      s.modSeg k fun g => { g with staged := g.staged.map fun x => { x with bitmap := x.bitmap ||| 2 ^ n } } := by
  simp only [decideStation, hctx, hacked, hlo, hhi, and_self, if_true]

theorem decideStation_of_out (h : c.state < 3 ∨ 5 < c.state ∨ (c.acked = false ∧ c.state = 5)) :
    s.decideStation k cycle n = s := by
  have hbit : ¬(c.acked = true ∧ 3 ≤ c.state ∧ c.state ≤ 5) := by
    rintro ⟨hacked, hlo, hhi⟩
    rcases h with h | h | ⟨h, -⟩
    · omega
    · omega
    · exact Bool.false_ne_true (h.symm.trans hacked)
  have hout : c.state < 3 ∨ 4 < c.state := by omega
  simp only [decideStation, hctx, if_neg hbit, if_pos hout]

/-- A station of the stage that has not acknowledged becomes ABSENT. -/
theorem decideStation_of_missing (hacked : c.acked = false) (hstate : c.state = 3 ∨ c.state = 4) :
    s.decideStation k cycle n =
      segCounts k (((((s.modCtx (64 * k + n) fun c => { c with
        state := 5, absentAt := s.raw, absentCount := c.absentCount + 1, away := 0 }).bump (R.STN_SEG_ABSENT k) 1).raise
        srcStn Ev.STN_ABSENT (stnParam (64 * k + n)) cycle).notify 25)) := by
  have hin : ¬(c.state < 3 ∨ 4 < c.state) := by omega
  simp only [decideStation, hctx, hacked, Bool.false_eq_true, false_and, if_false, if_neg hin]

end Decision

/-! ### The commit (R262, R267, R279, R286, R294) -/

/-- A station becomes ACTIVE, as its segment's counts and vector 25 show. -/
def becomeActive (k n : Nat) (s : State) : State :=
  notify 25 (segCounts k (s.modCtx (64 * k + n) fun c => { c with state := 4, fresh := false, away := 0 }))

variable {g : Staged}

theorem commitStation_of_out (h : g.bitmap.testBit n = false ∨ c.state < 3 ∨ 5 < c.state) :
    s.commitStation k g n = s := by
  have hout : g.bitmap / 2 ^ n % 2 = 0 ∨ c.state < 3 ∨ 5 < c.state := by
    rw [Nat.testBit_eq_decide_div_mod_eq, decide_eq_false_iff_not] at h
    omega
  simp only [commitStation, hctx, if_pos hout]

section Committed

variable (hbit : g.bitmap.testBit n = true)
include hbit

/-- A station whose bit is set takes the claim, and one that was not ACTIVE its event. -/
theorem commitStation_of_committed (hlo : 3 ≤ c.state) (hhi : c.state ≤ 5) :
    s.commitStation k g n =
      let u := s.modCtx (64 * k + n) fun c => { c with claim := g.claim }
      if c.state = 4 then u
      else becomeActive k n (if c.fresh = true ∧ c.state = 3 then
          u.raise srcStn Ev.STN_ADMITTED (stnParam (64 * k + n)) c.ix
        else u.raise srcStn Ev.STN_REJOINED (stnParam (64 * k + n)) c.away) := by
  have hin : ¬(g.bitmap / 2 ^ n % 2 = 0 ∨ c.state < 3 ∨ 5 < c.state) := by
    rw [Nat.testBit_eq_decide_div_mod_eq, decide_eq_true_eq] at hbit
    omega
  simp only [commitStation, hctx, if_neg hin]
  rfl

end Committed

end Station

theorem commitSend_of_other (hphase : (s.seg k).phase ≠ .decided) : s.commitSend k = s := if_pos hphase

section Commit

variable (hphase : (s.seg k).phase = .decided) (hk : k < s.stn.segs.length)
include hphase hk

/-- Nothing was staged, so nothing is committed. -/
theorem commitSend_of_unstaged (hstaged : (s.seg k).staged = none) :
    s.commitSend k = s.modSeg k fun g => { g with phase := .commit } := by
  simp only [commitSend, hphase, ne_eq, not_true_eq_false, if_false, seg_modSeg _ hk, hstaged]

theorem commitSend_of_staged {t : Nat} {g : Staged} (hbound : s.boundTask k = some t)
    (hstaged : (s.seg k).staged = some g) (hclaim : s.claiming = true) (hfinal : s.finalMarked t = false)
    (hgood : (s.task t).faultBoundary ≠ some (s.seg k).boundary) (hsame : (s.reg R.RED_CLAIM).toNat = g.claim) :
    s.commitSend k =
      let u := (s.modSeg k fun g => { g with phase := .commit }).sendGroup k 0x13 0 0
        (leBytes 8 g.cycle ++ leBytes 4 g.claim ++ leBytes 8 g.bitmap)
      g.nums.foldl (fun s n => s.commitStation k g n)
        (u.gapEnd ((u.seg k).boundary + usToUnits (u.reg (R.STN_APPLY_DELAY t)).toNat)) := by
  simp only [commitSend, hphase, ne_eq, not_true_eq_false, if_false, seg_modSeg _ hk, hstaged, modSeg_boundTask, hbound,
    modSeg_claiming, hclaim, Bool.not_true, Bool.false_eq_true, modSeg_finalMarked, hfinal, modSeg_task, hgood,
    modSeg_reg, hsame, or_self]

end Commit

end State

/-! ### The rows -/

section Rows

variable (s : State) (k : Fin 20)

theorem exec_inputPhaseStart : exec (.inputPhaseStart k) s = .next (s.inputPhaseStart k) := rfl

theorem exec_inputPhaseEnd : exec (.inputPhaseEnd k) s = .next (s.inputPhaseEnd k) := rfl

theorem exec_stagePhaseStart : exec (.stagePhaseStart k) s = .next (s.stagePhaseStart k) := rfl

theorem exec_commitDecision : exec (.commitDecision k) s = .next (s.commitDecision k) := rfl

theorem exec_commitSend : exec (.commitSend k) s = .next (s.commitSend k) := rfl

end Rows

/-- Settles O36: each clause is one case of a phase's row, of the decision or of the commit. -/
theorem busCyclesAndCommits : Obligations.BusCyclesAndCommits := by
  constructor
  · intro s k
    simp only [exec_inputPhaseStart, exec_inputPhaseEnd, exec_stagePhaseStart, exec_commitDecision, exec_commitSend]
    refine ⟨fun hstate => ?_, fun hstate hphase b p hnext hempty => ?_, fun hphase => ?_, fun hphase => ?_,
      fun t c hbound _ hstate hphase hclaim hidle => ?_, fun hphase => ?_, fun hphase hbound hstaged hk => ?_,
      fun hphase => ?_, fun hphase hstaged hk => ?_,
      fun t cycle hbound hstate hphase hclaim hsettle hsource hfinal => ?_, fun t g hbound hphase hstaged => ?_,
      fun t g hbound hphase hstaged hk hclaim hfinal hgood hsame => ?_⟩
    · rw [State.inputPhaseStart_of_inactive hstate, State.stagePhaseStart_of_inactive hstate]
      exact ⟨rfl, rfl⟩
    · rw [State.inputPhaseStart_of_no_stations hstate hphase hnext hempty]
    · rw [State.inputPhaseEnd_of_other hphase]
    · rw [State.inputPhaseEnd_of_input hphase]
    · rw [State.stagePhaseStart_of_idle hbound hstate hphase hclaim hidle]
    · rw [State.commitDecision_of_other hphase]
    · rw [State.commitDecision_of_unbound hphase hbound hstaged hk]
    · rw [State.commitSend_of_other hphase]
    · rw [State.commitSend_of_unstaged hphase hk hstaged]
    · exact congrArg _ (State.stagePhaseStart_of_source hbound hstate hphase hclaim hsettle hsource hfinal)
    · exact congrArg _ (State.commitDecision_of_staged hphase hbound hstaged)
    · exact congrArg _ (State.commitSend_of_staged hphase hk hbound hstaged hclaim hfinal hgood hsame)
  · intro s k cycle n c hctx
    refine ⟨State.decideStation_of_acked hctx cycle, State.decideStation_of_out hctx cycle,
      State.decideStation_of_missing hctx cycle, fun g => ⟨State.commitStation_of_out hctx, fun hbit => ?_⟩⟩
    refine ⟨fun hstate => ?_, fun hstate hfresh => ?_, fun hstate => ?_⟩
    · rw [State.commitStation_of_committed hctx hbit (by omega) (by omega)]
      exact if_pos hstate
    · rw [State.commitStation_of_committed hctx hbit (by omega) (by omega), if_neg (by omega), if_pos ⟨hfresh, hstate⟩]
      rfl
    · have hback : ¬(c.fresh = true ∧ c.state = 3) := by
        rintro ⟨hfresh, hthree⟩
        rcases hstate with hfive | ⟨-, hold⟩
        · omega
        · exact Bool.false_ne_true (hold.symm.trans hfresh)
      rw [State.commitStation_of_committed hctx hbit (by omega) (by omega), if_neg (by omega), if_neg hback]
      rfl

end Sys2Proof.Machine
end

section
/-! Frames from stations: when they are ignored, when they count as bad, and what an accepted one does (R258, R260,
R261, R264, R268, R272, R285, R288, R510). -/

namespace Sys2Proof.Machine

namespace State

variable {s : State} {k : Nat} {p : List Byte}

/-! ### A segment that does not listen (R510) -/

section Deaf

variable (hdeaf : s.segListens k = false)
include hdeaf

theorem inputFrame_of_deaf : s.inputFrame k p = s := by simp [inputFrame, hdeaf]

theorem stageAck_of_deaf : s.stageAck k p = s := by simp [stageAck, hdeaf]

theorem joinReq_of_deaf (mac : Nat) : s.joinReq k mac p = s := by simp [joinReq, hdeaf]

theorem joinProof_of_deaf : s.joinProof k p = s := by simp [joinProof, hdeaf]

theorem configAck_of_deaf : s.configAck k p = s := by simp [configAck, hdeaf]

end Deaf

/-! ### A frame out of its phase (R258) -/

section Listening

variable (hears : s.segListens k = true)
include hears

theorem inputFrame_of_other_phase (hphase : (s.seg k).phase ≠ .input) : s.inputFrame k p = s.badFrame := by
  simp [inputFrame, hears, hphase]

theorem stageAck_of_other_phase (hstage : (s.seg k).phase ≠ .stage) (hdecided : (s.seg k).phase ≠ .decided) :
    s.stageAck k p = s.badFrame := by
  simp [stageAck, hears, hstage, hdecided]

section NotService

variable (hphase : (s.seg k).phase ≠ .service)
include hphase

theorem joinReq_of_other_phase (mac : Nat) : s.joinReq k mac p = s.badFrame := by simp [joinReq, hears, hphase]

theorem joinProof_of_other_phase : s.joinProof k p = s.badFrame := by simp [joinProof, hears, hphase]

theorem configAck_of_other_phase : s.configAck k p = s.badFrame := by simp [configAck, hears, hphase]

end NotService

end Listening

/-! ### Well-formed frames (R258) -/

theorem acceptStation_of_no_context (hctx : s.ctx (64 * k + fieldAt p 5 1) = none) :
    s.acceptStation k p = (s.tagFail, none) := by
  simp only [acceptStation, hctx]

/-- What an accepted STAGE_ACK with only the flag of the stage leaves: the measured delay and, for the cycle and the
claim that were staged, the acknowledgement (R260, R279). -/
def ackTaken (k : Nat) (p : List Byte) (u : State) (pos : Nat) : State :=
  match (u.seg k).staged with
  | some g =>
    let b := bodyOf p
    let sent := g.sendFrac + (tget g.sentAt (pos % 64)).getD 0
    let us := (fieldAt b 12 4 + 2 ^ 32 - sent % 2 ^ 32) % 2 ^ 32 * 1000000 / 2 ^ 32
    let v := if g.nums.contains (pos % 64) then
        (u.regMax (R.STN_SEG_DMEAS k) (satTo 12 us)).modCtx pos fun c => { c with delayUs := us }
      else u
    v.modCtx pos fun c => { c with
      boxActive := false, acked := c.acked || (fieldAt b 0 8 == g.cycle && fieldAt b 8 4 == g.claim) }
  | none => u

section StageAck

variable (hphase : (s.seg k).phase = .stage ∨ (s.seg k).phase = .decided) (hform : frameOk k 0x12 true p = true)
  (hlen : fieldAt p 2 2 = 16) (hears : s.segListens k = true)
include hphase hform hlen hears

theorem stageAck_of_refused {u : State} (hacc : s.acceptStation k p = (u, none)) : s.stageAck k p = u := by
  rcases hphase with hphase | hphase <;> simp [stageAck, hears, hphase, hform, hlen, hacc]

theorem stageAck_of_accepted (hflags : fieldAt p 7 1 = 1) {u : State} {pos : Nat}
    (hacc : s.acceptStation k p = (u, some pos)) : s.stageAck k p = ackTaken k p u pos := by
  have hopen : ¬((((s.seg k).phase ≠ .stage ∧ (s.seg k).phase ≠ .decided) ∨ (!frameOk k 0x12 true p) = true ∨
      fieldAt p 2 2 ≠ 16)) := by
    rcases hphase with hphase | hphase <;> simp [hphase, hform, hlen]
  rw [stageAck, if_neg (by simp [hears]), if_neg hopen]
  simp only [hacc, hflags, ackTaken]
  cases (u.seg k).staged with
  | none => rfl
  | some g => rfl

end StageAck

/-- What an accepted INPUT leaves: once its last fragment is in, its values are taken (R261, R272, R285). -/
def inputTaken (k : Nat) (p : List Byte) (u : State) (pos : Nat) : State :=
  match u.adm pos, u.ctx pos with
  | some a, some c =>
    let b := bodyOf p
    let v := u.modCtx pos fun c => { c with boxActive := fieldAt b 12 4 / 4 % 2 == 1 }
    if v.loaded = false ∨ (c.state ≠ 4 ∧ (c.state ≠ 3 ∨ (u.boundTask k).isSome = true)) then v
    else
      let fs := tput c.frags (fieldAt p 6 1 % 16) (b.drop 16)
      match allFrags (fieldAt p 6 1 / 16 + 1) fs with
      | none => v.modCtx pos fun c => { c with frags := fs }
      | some data => (v.modCtx pos fun c => { c with frags := [] }).takeInput k pos a (instantOf b) data
  | _, _ => u

section Input

variable (hphase : (s.seg k).phase = .input) (hform : frameOk k 0x10 true p = true) (hlo : 16 ≤ fieldAt p 2 2)
  (hhi : fieldAt p 2 2 ≤ 1476) (hfrag : fieldAt p 6 1 % 16 ≤ fieldAt p 6 1 / 16)
include hphase hform hlo hhi hfrag

theorem inputFrame_passes_checks : ¬((s.seg k).phase ≠ .input ∨ (!frameOk k 0x10 true p) = true ∨
    fieldAt p 2 2 < 16 ∨ 1476 < fieldAt p 2 2 ∨ fieldAt p 6 1 / 16 < fieldAt p 6 1 % 16) := by
  rintro (hother | hbad | hshort | hlong | hcount)
  · exact hother hphase
  · rw [hform] at hbad
    exact Bool.false_ne_true hbad
  · exact Nat.not_lt.2 hlo hshort
  · exact Nat.not_lt.2 hhi hlong
  · exact Nat.not_lt.2 hfrag hcount

variable (hears : s.segListens k = true)
include hears

theorem inputFrame_of_refused {u : State} (hacc : s.acceptStation k p = (u, none)) : s.inputFrame k p = u := by
  rw [inputFrame, if_neg (by simp [hears]), if_neg (inputFrame_passes_checks hphase hform hlo hhi hfrag)]
  simp only [hacc]

theorem inputFrame_of_accepted {u : State} {pos : Nat} (hacc : s.acceptStation k p = (u, some pos)) :
    s.inputFrame k p = inputTaken k p u pos := by
  rw [inputFrame, if_neg (by simp [hears]), if_neg (inputFrame_passes_checks hphase hform hlo hhi hfrag)]
  simp only [hacc, inputTaken]
  cases u.adm pos with
  | none => rfl
  | some a =>
    cases u.ctx pos with
    | none => rfl
    | some c => exact ite_congr (by simp) (fun _ => rfl) fun _ => rfl

end Input

/-- What an accepted CONFIG_ACK leaves: the wait for its CONFIG ends, and a good result counts the station as holding
the new segment key, or its Boxwood data as loaded (R264, R271, R284). -/
def configTaken (k : Nat) (p : List Byte) (u : State) (pos : Nat) : State :=
  let b := bodyOf p
  match (u.seg k).cfgWait.find? fun x => x.1 == fieldAt b 0 4 && x.2.1 == pos % 64 with
  | some w =>
    let v := u.modSeg k fun g => { g with
      cfgWait := g.cfgWait.filter fun x => !(x.1 == fieldAt b 0 4 && x.2.1 == pos % 64) }
    if fieldAt b 4 4 ≠ 0 then v
    else if w.2.2 = 3 then
      v.modSeg k fun g => { g with newKey := g.newKey.map fun x => { x with left := x.left.filter (· != pos % 64) } }
    else
      (v.raise srcStn Ev.STN_BOXWOOD_LOADED (stnParam pos) (((v.adm pos).bind (·.boxCrc)).getD 0)).modCtx pos
        fun c => { c with state := if c.state = 2 then 3 else c.state }
  | none => u

section ConfigAck

variable (hphase : (s.seg k).phase = .service) (hform : frameOk k 0x07 true p = true) (hlen : fieldAt p 2 2 = 8)
  (hears : s.segListens k = true)
include hphase hform hlen hears

theorem configAck_of_refused {u : State} (hacc : s.acceptStation k p = (u, none)) : s.configAck k p = u := by
  simp [configAck, hears, hphase, hform, hlen, hacc]

theorem configAck_of_accepted {u : State} {pos : Nat} (hacc : s.acceptStation k p = (u, some pos)) :
    s.configAck k p = configTaken k p u pos := by
  have hopen : ¬((s.seg k).phase ≠ .service ∨ (!frameOk k 0x07 true p) = true ∨ fieldAt p 2 2 ≠ 8) := by
    simp [hphase, hform, hlen]
  rw [configAck, if_neg (by simp [hears]), if_neg hopen]
  simp only [hacc, configTaken]
  cases (u.seg k).cfgWait.find? fun x => x.1 == fieldAt (bodyOf p) 0 4 && x.2.1 == pos % 64 with
  | none => rfl
  | some w => rfl

end ConfigAck

end State

/-! ### The rows -/

section Rows

variable (s : State) (k : Fin 20) (p : List Byte)

theorem exec_inputFrame : exec (.inputFrame k p) s = .next (s.inputFrame k p) := rfl

theorem exec_stageAckFrame : exec (.stageAckFrame k p) s = .next (s.stageAck k p) := rfl

theorem exec_joinReqFrame (mac : Nat) : exec (.joinReqFrame k mac p) s = .next (s.joinReq k mac p) := rfl

theorem exec_joinProofFrame : exec (.joinProofFrame k p) s = .next (s.joinProof k p) := rfl

theorem exec_configAckFrame : exec (.configAckFrame k p) s = .next (s.configAck k p) := rfl

end Rows

/-- Settles O37: a frame is ignored, counted as bad, refused by its station or accepted. -/
theorem stationFrames : Obligations.StationFrames := by
  constructor
  · intro s k p
    refine ⟨fun hdeaf i hi => ?_, fun hears => ⟨fun hphase => ?_, fun hstage hdecided => ?_, fun hphase i hi => ?_,
      fun hctx => ?_⟩⟩
    · rcases hi with rfl | rfl | ⟨mac, rfl⟩ | rfl | rfl
      · rw [exec_inputFrame, State.inputFrame_of_deaf hdeaf]
      · rw [exec_stageAckFrame, State.stageAck_of_deaf hdeaf]
      · rw [exec_joinReqFrame, State.joinReq_of_deaf hdeaf]
      · rw [exec_joinProofFrame, State.joinProof_of_deaf hdeaf]
      · rw [exec_configAckFrame, State.configAck_of_deaf hdeaf]
    · rw [exec_inputFrame, State.inputFrame_of_other_phase hears hphase, State.badFrame]
    · rw [exec_stageAckFrame, State.stageAck_of_other_phase hears hstage hdecided, State.badFrame]
    · rcases hi with ⟨mac, rfl⟩ | rfl | rfl
      · rw [exec_joinReqFrame, State.joinReq_of_other_phase hears hphase, State.badFrame]
      · rw [exec_joinProofFrame, State.joinProof_of_other_phase hears hphase, State.badFrame]
      · rw [exec_configAckFrame, State.configAck_of_other_phase hears hphase, State.badFrame]
    · have hacc := State.acceptStation_of_no_context hctx
      refine ⟨fun hphase hform hlo hhi hfrag => ?_, fun hphase hform hlen => ?_, fun hphase hform hlen => ?_⟩
      · rw [exec_inputFrame, State.inputFrame_of_refused hphase hform hlo hhi hfrag hears hacc, State.tagFail]
      · rw [exec_stageAckFrame, State.stageAck_of_refused hphase hform hlen hears hacc, State.tagFail]
      · rw [exec_configAckFrame, State.configAck_of_refused hphase hform hlen hears hacc, State.tagFail]
  · intro s k p hears
    refine ⟨fun hphase hform hlen hflags => ?_, fun hphase hform hlo hhi hfrag => ?_, fun hphase hform hlen => ?_⟩ <;>
      rcases hacc : s.acceptStation k p with ⟨u, _ | pos⟩
    · exact congrArg _ (State.stageAck_of_refused hphase hform hlen hears hacc)
    · exact congrArg _ (State.stageAck_of_accepted hphase hform hlen hears hflags hacc)
    · exact congrArg _ (State.inputFrame_of_refused hphase hform hlo hhi hfrag hears hacc)
    · exact congrArg _ (State.inputFrame_of_accepted hphase hform hlo hhi hfrag hears hacc)
    · exact congrArg _ (State.configAck_of_refused hphase hform hlen hears hacc)
    · exact congrArg _ (State.configAck_of_accepted hphase hform hlen hears hacc)

end Sys2Proof.Machine
end

section
/-! Joining, the service window, the timers of the stations and the states of a segment (R263, R266 to R269, R271, R287,
R293, R294). -/

namespace Sys2Proof.Machine

namespace State

variable {s : State} {k : Nat} {p : List Byte}

/-! ### JOIN_REQ (R266, R268, R269) -/

/-- A JOIN_REQ is counted in its service window. -/
def joinCounted (s : State) (k : Nat) : State :=
  s.modSeg k fun g => { g with joinReqs := (s.seg k).joinReqs + 1 }

/-- The join is kept and its challenge goes out; a LOST station is JOINING (R267, R268). -/
def joinAsked (k mac n : Nat) (j : Join) (answer : List Byte) (s : State) : State :=
  sendCelkin k mac (celkinHeader 0x03 answer.length k n 0 0 0 0 ++ answer)
    ((s.modSeg k fun g => { g with joins := tput g.joins n j }).modCtx (64 * k + n) fun c =>
      { c with state := if c.state = 0 then 1 else c.state })

section Service

variable (hphase : (s.seg k).phase = .service)
include hphase

section Request

variable {mac : Nat} (hform : frameOk k 0x02 false p = true)
  (hbody : (fieldAt (bodyOf p) 16 1 = 0 ∧ (bodyOf p).length = 156) ∨
    (fieldAt (bodyOf p) 16 1 = 1 ∧ (bodyOf p).length = 60))
include hform hbody

/-- The body of a request has the size of its mode. -/
theorem joinReq_passes_checks : ¬((s.seg k).phase ≠ .service ∨ (!frameOk k 0x02 false p) = true ∨
    1 < fieldAt (bodyOf p) 16 1 ∨ (bodyOf p).length ≠ if fieldAt (bodyOf p) 16 1 = 0 then 156 else 60) := by
  rcases hbody with ⟨hmode, hlen⟩ | ⟨hmode, hlen⟩ <;> simp [hphase, hform, hmode, hlen]

variable (hears : s.segListens k = true)
include hears

/-- The ninth and later requests of a window are ignored. -/
theorem joinReq_of_ninth (hcount : 8 ≤ (s.seg k).joinReqs) :
    s.joinReq k mac p = (s.joinCounted k).bump (R.STN_SEG_JOINS_DEFERRED k) 1 := by
  rw [joinReq, if_neg (by simp [hears]), if_neg (joinReq_passes_checks hphase hform hbody)]
  exact if_pos hcount

section Taken

variable (hcount : (s.seg k).joinReqs < 8)
include hcount

theorem joinReq_of_locked (hlocked : (s.joinCounted k).serialLocked ((bodyOf p).take 16) = true) :
    s.joinReq k mac p = (s.joinCounted k).joinFail k ((bodyOf p).take 16) 4 := by
  rw [joinReq, if_neg (by simp [hears]), if_neg (joinReq_passes_checks hphase hform hbody)]
  exact (if_neg (Nat.not_le.2 hcount)).trans (if_pos hlocked)

variable (hfree : (s.joinCounted k).serialLocked ((bodyOf p).take 16) = false)
include hfree

theorem joinReq_of_no_position {cause : Nat} (hpos : (s.joinCounted k).joinPosition k (bodyOf p) = .inr cause) :
    s.joinReq k mac p = (s.joinCounted k).joinFail k ((bodyOf p).take 16) cause := by
  unfold joinCounted at *
  rw [joinReq, if_neg (by simp [hears]), if_neg (joinReq_passes_checks hphase hform hbody)]
  simp only [if_neg (Nat.not_le.2 hcount), hfree, Bool.false_eq_true, if_false, hpos]

variable (hdrbg : s.drbgOk = true) {n : Nat} (hpos : (s.joinCounted k).joinPosition k (bodyOf p) = .inl n)
include hdrbg hpos

/-- In mode 1 the challenge is a nonce. -/
theorem joinReq_of_token (htoken : fieldAt (bodyOf p) 16 1 = 1) :
    s.joinReq k mac p =
      let b := bodyOf p
      let r := (s.joinCounted k).drawBytes 32
      joinAsked k mac n ⟨1, b.take 16, mac, fieldAt b 24 4, some (fieldAt b 20 4), b, r.1, r.1, [], none⟩ r.1
        (r.2.draw 6).2 := by
  have hrandom : (s.joinCounted k).drbgOk = true := hdrbg
  unfold joinCounted at *
  rw [joinReq, if_neg (by simp [hears]), if_neg (joinReq_passes_checks hphase hform hbody)]
  simp only [if_neg (Nat.not_le.2 hcount), hfree, Bool.false_eq_true, if_false, hpos, hrandom, Bool.not_true, htoken,
    Nat.one_ne_zero, List.append_nil]
  rfl

/-- In mode 0 the challenge names an ephemeral key too, and is signed with the identity key. -/
theorem joinReq_of_certificate (hcert : fieldAt (bodyOf p) 16 1 = 0) :
    s.joinReq k mac p =
      let b := bodyOf p
      let r := (s.joinCounted k).drawBytes 32
      let e := r.2.drawBytes 48
      let ch := r.1 ++ Config.p384Pub e.1
      joinAsked k mac n ⟨0, b.take 16, mac, fieldAt b 24 4, none, b, ch, r.1, e.1, none⟩
        (ch ++ Config.ecdsaSign (e.2.identity.getD []) (b ++ ch) (e.2.draw 6).1) (e.2.draw 6).2 := by
  have hrandom : (s.joinCounted k).drbgOk = true := hdrbg
  unfold joinCounted at *
  rw [joinReq, if_neg (by simp [hears]), if_neg (joinReq_passes_checks hphase hform hbody)]
  simp only [if_neg (Nat.not_le.2 hcount), hfree, Bool.false_eq_true, if_false, hpos, hrandom, Bool.not_true, hcert,
    if_true, List.append_assoc, joinAsked]
  rfl

end Taken

end Request

/-! ### JOIN_PROOF (R267) -/

section Proof

variable (hform : frameOk k 0x04 false p = true) (hears : s.segListens k = true)
include hform hears

theorem joinProof_of_unasked (hjoin : tget (s.seg k).joins (fieldAt p 5 1) = none) : s.joinProof k p = s := by
  simp [joinProof, hears, hphase, hform, hjoin]

/-- The proof of a join in mode 1 is kept for its verification. -/
theorem joinProof_of_token {j : Join} (hjoin : tget (s.seg k).joins (fieldAt p 5 1) = some j) (hmode : j.mode = 1)
    (hlen : fieldAt p 2 2 = 16) :
    s.joinProof k p = s.modSeg k fun g =>
      { g with joins := tput g.joins (fieldAt p 5 1) { j with proof := some (bodyOf p) } } := by
  simp [joinProof, hears, hphase, hform, hjoin, hmode, hlen]

end Proof

end Service

/-! ### The verification of a join (R247, R267, R269, R537) -/

theorem hasContext_iff (s : State) (pos : Nat) :
    s.hasContext pos = true ↔ (s.adm pos).isSome = true ∨ s.stn.ctxs.length < 1024 := by
  rw [hasContext, Bool.or_eq_true, decide_eq_true_iff]

theorem joinVerified_of_none {n : Nat} (hjoin : tget (s.seg k).joins n = none) : s.joinVerified k n = s := by
  simp only [joinVerified, hjoin]

section Verified

variable {n : Nat} {j : Join} {c : SegCfg} {proof : List Byte} (hjoin : tget (s.seg k).joins n = some j)
  (hcfg : s.segCfg k = some c) (hproof : j.proof = some proof) (hears : s.segListens k = true)
  (hphase : (s.seg k).phase = .service) (hmgt : s.pwr.mgtRuns = true) (hdrbg : s.drbgOk = true)
include hjoin hcfg hproof hears hphase hmgt hdrbg

/-- A proof that verifies admits the station where a context is free. -/
theorem joinVerified_of_good {secret : List Byte} (hcheck : s.checkProof (64 * k + n) j proof = .inl secret) :
    s.joinVerified k n =
      let u := s.modSeg k fun g => { g with joins := tdel g.joins n }
      if (s.adm (64 * k + n)).isSome = true ∨ s.stn.ctxs.length < 1024 then u.admitStation k n j secret c
      else u.joinFail k j.serial 1 := by
  simp only [joinVerified, hjoin, hcfg, hproof, hears, hphase, hmgt, hdrbg, hcheck, Bool.not_true, Bool.false_eq_true,
    ne_eq, not_true_eq_false, or_self, if_false]
  exact ite_congr (propext (hasContext_iff ..)) (fun _ => rfl) fun _ => rfl

theorem joinVerified_of_bad {cause : Nat} (hcheck : s.checkProof (64 * k + n) j proof = .inr cause) :
    s.joinVerified k n =
      ((s.modSeg k fun g => { g with joins := tdel g.joins n }).modCtx (64 * k + n) fun c =>
        { c with state := if c.state = 1 then 0 else c.state }).joinFail k j.serial cause := by
  simp only [joinVerified, hjoin, hcfg, hproof, hears, hphase, hmgt, hdrbg, hcheck, Bool.not_true, Bool.false_eq_true,
    ne_eq, not_true_eq_false, or_self, if_false]

end Verified

/-! ### The service window (R256, R263, R268, R420) -/

theorem serviceStart_of_unconfigured (hcfg : s.segCfg k = none) : s.serviceStart k = s := by
  simp only [serviceStart, hcfg]

/-- With nothing waiting, the window opens with W adjusted and the ANNOUNCE sent; a segment key near the end of its
sequence numbers is renewed. -/
theorem serviceStart_of_idle {c : SegCfg} (hcfg : s.segCfg k = some c) (hstate : s.segState k = 2)
    (hphase : (s.seg k).phase = .commit ∨ (s.seg k).phase = .idle) (hqueue : (s.seg k).svcq = []) :
    s.serviceStart k =
      let w := adjustW c (s.seg k).joinReqs (s.seg k).w
      let u := (s.modSeg k fun g => { g with phase := .service, w := w, joinReqs := 0, svcq := [] }).setReg
        (R.STN_SEG_JOIN_WINDOW k) (BitVec.ofNat 32 w)
      let v := u.sendGroup k 0x01 0 0 (u.announceBody k c)
      if 2 ^ 31 - 2 ^ 20 ≤ (v.seg k).txSeq ∧ (v.seg k).newKey = none then v.renewKey k else v := by
  have hopen : ¬(s.segState k ≠ 2 ∨ (s.seg k).phase = .input ∨ (s.seg k).phase = .stage ∨
      (s.seg k).phase = .decided) := by
    rcases hphase with hphase | hphase <;> simp [hstate, hphase]
  simp only [serviceStart, hcfg, if_neg hopen, hqueue, List.foldl_nil]

/-- Once the window is open, the egress queues of the port are served. -/
theorem openService_of_closed (hphase : (s.seg k).phase ≠ .service) :
    s.openService k =
      if ((s.serviceStart k).seg k).phase = .service then
        ((s.serviceStart k).modSeg k fun g => { g with lineFree := (s.serviceStart k).now }).drainPort k
      else s.serviceStart k := by
  simp only [openService, ne_eq, hphase, not_false_eq_true, and_true]

theorem openService_of_unconfigured (hcfg : s.segCfg k = none) : s.openService k = s := by
  have hsame : ¬((s.seg k).phase = .service ∧ (s.seg k).phase ≠ .service) := fun h => h.2 h.1
  simp only [openService, serviceStart_of_unconfigured hcfg, if_neg hsame]

/-! ### A segment starts and stops (R149, R293, R294) -/

theorem seg_raise (src code a b : Nat) : (s.raise src code a b).seg k = s.seg k := by
  rw [(s.raise_only src code a b).2]
  rfl

/-- A part of a segment that a change keeps reads as before. -/
theorem seg_modSeg_part {α : Type} (part : SegSt → α) {f : SegSt → SegSt} (hf : ∀ g, part (f g) = part g) :
    part ((s.modSeg k f).seg k) = part (s.seg k) := by
  rcases Nat.lt_or_ge k s.stn.segs.length with hk | hk
  · rw [seg_modSeg f hk, hf]
  · have hnone : (modNth f s.stn.segs k)[k]? = none := List.getElem?_eq_none (by rwa [modNth_length])
    simp [seg, modSeg, nth, hnone, List.getElem?_eq_none hk]

theorem segStartDone_of_other (hstate : s.segState k ≠ 1) : s.segStartDone k = s := if_pos hstate

/-- A starting segment is ACTIVE, with the window of its configuration and its event. -/
def segUp (s : State) (k : Nat) : State :=
  let w := ((s.segCfg k).map (·.w)).getD 1
  raise srcStn Ev.STN_SEGMENT_UP k (if (s.seg k).pended then 1 else 0)
    (((s.modSeg k fun g => { g with phase := .idle, w := w, joinReqs := 0, pended := false }).setRegField
      (R.STN_SEG_STATE k) 1 0 2).setReg (R.STN_SEG_JOIN_WINDOW k) (BitVec.ofNat 32 w))

theorem segUp_wantOff : ((s.segUp k).seg k).wantOff = (s.seg k).wantOff := by
  rw [segUp, seg_raise]
  exact seg_modSeg_part (·.wantOff) fun _ => rfl

/-- A disable that waits stops the segment at once. -/
theorem segStartDone_of_starting (hstate : s.segState k = 1) :
    s.segStartDone k = if (s.seg k).wantOff then (s.segUp k).segStop k else s.segUp k := by
  rw [← segUp_wantOff]
  exact if_neg (not_not_intro hstate)

theorem segStopDone_of_other (hstate : s.segState k ≠ 3) : s.segStopDone k = s := if_pos hstate

/-- A stopped segment starts again where an enable is pending. -/
theorem segStopDone_of_stopping (hstate : s.segState k = 3) :
    s.segStopDone k =
      let u := ((s.setRegField (R.STN_SEG_STATE k) 1 0 0).raise srcStn Ev.STN_SEGMENT_DOWN k 0).completeWaiting
        (.segmentOff k) .ok 0
      if s.regBit (R.STN_SEG_STATE k) 2 then u.segStart k true else u :=
  if_neg (not_not_intro hstate)

end State

/-! ### The rows -/

section Rows

variable (s : State) (k : Fin 20)

theorem exec_joinReqFrame_of {s t : State} {k : Fin 20} {mac : Nat} {p : List Byte} (h : s.joinReq k mac p = t) :
    exec (.joinReqFrame k mac p) s = .next t := congrArg _ h

theorem exec_joinVerifyDone (n : Fin 64) : exec (.joinVerifyDone k n) s = .next (s.joinVerified k n) := rfl

theorem exec_serviceWindowStart : exec (.serviceWindowStart k) s = .next (s.openService k) := rfl

theorem exec_segmentStartDone : exec (.segmentStartDone k) s = .next (s.segStartDone k).admitWaiting := rfl

theorem exec_segmentStopDone : exec (.segmentStopDone k) s = .next (s.segStopDone k).admitWaiting := rfl

/-! ### The timers (R269, R271, R287) -/

variable {s : State} {k : Fin 20}

section Session

variable {n : Fin 64} {c : Ctx} {g : SegCfg} (hctx : s.ctx (64 * k + n) = some c) (hcfg : s.segCfg k = some g)
include hctx hcfg

theorem exec_stationSessionTimeout_of_due (hstate : c.state = 5)
    (hdue : c.absentAt + 250 * (1000 * g.sessionMs) ≤ s.raw) :
    exec (.stationSessionTimeout k n) s = .next (s.loseStation (64 * k + n)) := by
  show execStationSessionTimeout k n s = _
  simp only [execStationSessionTimeout, hctx, hcfg, State.rawUs, hstate, hdue, and_self, if_true]

theorem exec_stationSessionTimeout_of_early
    (hearly : c.state ≠ 5 ∨ s.raw < c.absentAt + 250 * (1000 * g.sessionMs)) :
    exec (.stationSessionTimeout k n) s = .next s := by
  have hnot : ¬(c.state = 5 ∧ c.absentAt + State.rawUs (1000 * g.sessionMs) ≤ s.raw) := by
    unfold State.rawUs
    omega
  show execStationSessionTimeout k n s = _
  simp only [execStationSessionTimeout, hctx, hcfg, if_neg hnot]

end Session

theorem exec_segmentKeySwitch_of_none (hkey : (s.seg k).newKey = none) : exec (.segmentKeySwitch k) s = .next s := by
  show execSegmentKeySwitch k s = _
  simp only [execSegmentKeySwitch, hkey]

section KeySwitch

variable {w : KeyWait} (hkey : (s.seg k).newKey = some w)
include hkey

/-- The key that every station has acknowledged comes into use. -/
theorem exec_segmentKeySwitch_of_acknowledged (hall : w.left = []) :
    exec (.segmentKeySwitch k) s = .next (s.modSeg k fun g =>
      { g with key := w.key, epoch := w.epoch, txSeq := 0, peerSeq := 0, newKey := none }) := by
  show execSegmentKeySwitch k s = _
  simp only [execSegmentKeySwitch, hkey, hall, List.isEmpty_nil, true_or, if_true, List.foldl_nil]

theorem exec_segmentKeySwitch_of_early (hleft : w.left ≠ []) (hcycles : w.cycles < 64) :
    exec (.segmentKeySwitch k) s = .next s := by
  have hnot : ¬(w.left.isEmpty = true ∨ 64 ≤ w.cycles) := by simp [hleft, hcycles]
  show execSegmentKeySwitch k s = _
  simp only [execSegmentKeySwitch, hkey, if_neg hnot]

end KeySwitch

theorem exec_joinLockoutExpiry_of_locked {serial : List Byte} {t : Nat}
    (hlock : tget s.stn.locks (leNat serial) = some t) :
    exec (.joinLockoutExpiry serial) s = .next
      (if t ≤ s.raw then { s with stn := { s.stn with locks := tdel s.stn.locks (leNat serial) } } else s) := by
  show execJoinLockoutExpiry serial s = _
  simp only [execJoinLockoutExpiry, hlock]

end Rows

/-- Settles O38: each clause is one case of a frame, of a verification, of a timer or of a segment's state. -/
theorem joiningAndStationTimers : Obligations.JoiningAndStationTimers := by
  constructor
  · intro s k mac p
    refine ⟨?_, ?_, fun hears hphase hform => ⟨fun hjoin => ?_, fun j hjoin hmode hlen => ?_⟩, fun hcfg => ?_,
      fun c hcfg hstate hphase hqueue _ => ?_, fun n => ⟨fun hjoin => ?_,
      fun j c proof hjoin hcfg hproof hears hphase hmgt hdrbg => ?_⟩⟩
    · intro hears hphase hform hmode hlen
      refine ⟨fun hcount => exec_joinReqFrame_of ?_, fun hcount hlocked => exec_joinReqFrame_of ?_,
        fun cause hcount hfree hpos => exec_joinReqFrame_of ?_⟩
      · exact State.joinReq_of_ninth hphase hform (.inr ⟨hmode, hlen⟩) hears hcount
      · exact State.joinReq_of_locked hphase hform (.inr ⟨hmode, hlen⟩) hears hcount hlocked
      · exact State.joinReq_of_no_position hphase hform (.inr ⟨hmode, hlen⟩) hears hcount hfree hpos
    · intro hears hphase hform hcount hdrbg u ask r hfree n hpos
      refine ⟨fun hmode hlen => exec_joinReqFrame_of ?_, fun hmode hlen => exec_joinReqFrame_of ?_⟩
      · exact State.joinReq_of_token hphase hform (.inr ⟨hmode, hlen⟩) hears hcount hfree hdrbg hpos hmode
      · exact State.joinReq_of_certificate hphase hform (.inl ⟨hmode, hlen⟩) hears hcount hfree hdrbg hpos hmode
    · rw [exec_joinProofFrame, State.joinProof_of_unasked hphase hform hears hjoin]
    · rw [exec_joinProofFrame, State.joinProof_of_token hphase hform hears hjoin hmode hlen]
    · rw [exec_serviceWindowStart, State.openService_of_unconfigured hcfg]
    · have hclosed : (s.seg k).phase ≠ .service := by rcases hphase with h | h <;> simp [h]
      have hstart := State.serviceStart_of_idle hcfg hstate hphase hqueue
      refine ⟨hstart, ?_⟩
      rw [exec_serviceWindowStart, State.openService_of_closed hclosed, hstart]
    · rw [exec_joinVerifyDone, State.joinVerified_of_none hjoin]
    · cases hcheck : s.checkProof (64 * k + n) j proof with
      | inl secret => exact congrArg _ (State.joinVerified_of_good hjoin hcfg hproof hears hphase hmgt hdrbg hcheck)
      | inr cause => exact congrArg _ (State.joinVerified_of_bad hjoin hcfg hproof hears hphase hmgt hdrbg hcheck)
  · intro s k
    simp only [exec_segmentStartDone, exec_segmentStopDone]
    refine ⟨fun n c g hctx hcfg => ⟨exec_stationSessionTimeout_of_due hctx hcfg,
        exec_stationSessionTimeout_of_early hctx hcfg⟩,
      exec_segmentKeySwitch_of_none, fun w hkey => ⟨exec_segmentKeySwitch_of_acknowledged hkey,
        exec_segmentKeySwitch_of_early hkey⟩,
      fun serial t hlock => ⟨fun hdue => ?_, fun hearly => ?_⟩, fun hstate => ?_,
      fun hstate => ⟨fun hoff => ?_, fun hoff => ?_⟩, fun hstate => ?_, fun hstate => ?_⟩
    · rw [exec_joinLockoutExpiry_of_locked hlock, if_pos hdue]
    · rw [exec_joinLockoutExpiry_of_locked hlock, if_neg (Nat.not_le.2 hearly)]
    · rw [State.segStartDone_of_other hstate]
    · rw [State.segStartDone_of_starting hstate, hoff]
      rfl
    · rw [State.segStartDone_of_starting hstate, hoff]
      rfl
    · rw [State.segStopDone_of_other hstate]
    · rw [State.segStopDone_of_stopping hstate]

end Sys2Proof.Machine
end

section
/-! What the increments of metering leave of the configuration: no value that a command has set (R367, R409). The lemmas
follow those of `SameMemory` about the same operations. -/

namespace Sys2Proof.Machine

/-- The configuration that commands have set is the same. -/
def SameConfig (s t : State) : Prop := t.nvNext = s.nvNext

namespace SameConfig

variable {s t : State} {n : Nat}

theorem refl (s : State) : SameConfig s s := rfl

/-! ### One operation more -/

theorem ite {u : State} {c : Prop} [Decidable c] (ht : SameConfig s t) (hu : SameConfig s u) :
    SameConfig s (if c then t else u) := by
  split
  · exact ht
  · exact hu

theorem foldl {α : Type} {f : State → α → State} (hf : ∀ {t x}, SameConfig s t → SameConfig s (f t x))
    (l : List α) (h : SameConfig s t) : SameConfig s (l.foldl f t) :=
  List.foldlRecOn l f h fun _ ht _ _ => hf ht

section

variable (h : SameConfig s t)
include h

theorem setReg {a : Nat} {v : Word} : SameConfig s (t.setReg a v) := h

theorem met {m : MetSt} : SameConfig s { t with met := m } := h

theorem setMetCh {c : MetCh} : SameConfig s (t.setMetCh n c) := h

theorem modMetCh {f : MetCh → MetCh} : SameConfig s (t.modMetCh n f) := h

theorem windowFlag {i : Nat} : SameConfig s (t.windowFlag n i) := h

theorem rebase {cf cr : Nat} {m : MeterSample} : SameConfig s (t.rebase n cf cr m) := h

theorem metShow : SameConfig s t.metShow := h

theorem startRecord : SameConfig s (t.startRecord n) := h

theorem raise {src code a b : Nat} : SameConfig s (t.raise src code a b) := by
  rw [(t.raise_only src code a b).2]
  exact h

theorem roundFree {tag d : Nat} {x : Int} : SameConfig s (t.roundFree tag x d).2 := ite h h

/-! ### Closing records, demand and pulses -/

theorem latchClosing {regs : List Int} {incomplete : Bool} : SameConfig s (t.latchClosing n regs incomplete) :=
  ite h.roundFree.setMetCh.met.metShow.raise h.roundFree.setMetCh.met.metShow

theorem closeReached {t0 t1 : Instant} {before : List Int} {parts : List (Nat × Int)} {fault fuel done : Nat} :
    SameConfig s (t.closeReached n t0 t1 before parts fault fuel done).1 := by
  induction fuel generalizing done t with
  | zero => exact h
  | succ fuel ih =>
    rw [State.closeReached]
    extract_lets
    split
    · exact h
    · exact ih h.modMetCh.latchClosing

theorem demandAdd {t0 t1 : Instant} {x : Int} : SameConfig s (t.demandAdd n t0 t1 x) := ite h.setMetCh h.setMetCh

theorem startPulse : SameConfig s (t.startPulse n) := by
  unfold State.startPulse
  split
  · exact ite h.met h
  · exact h

theorem pulseAdd {c : PulseCfg} {x : Nat} : SameConfig s (t.pulseAdd n c x) := by
  unfold State.pulseAdd
  split
  · exact h
  · exact (ite (ite h.met.setReg h.met).raise (ite h.met.setReg h.met)).startPulse

theorem pulseFeed {parts : List (Nat × Int)} : SameConfig s (t.pulseFeed n parts) :=
  foldl (fun h => ite (foldl (fun h => ite h.pulseAdd h) parts h) h) _ h

/-! ### Increments

`setBlock` and `meterSample` themselves are replaced by their bodies, not their applications: see `SameMemory`. -/

theorem setBlock {T : Nat} {b : SetBlock} : SameConfig s (t.setBlock n T b) := by
  suffices ∀ f, f = State.setBlock → SameConfig s (f n T b t) from this _ rfl
  delta State.setBlock
  rintro _ rfl
  dsimp -zeta -iota only
  extract_lets parts before marked clipped demanded
  have hdemanded : SameConfig s demanded := (ite h.modMetCh.modMetCh h.modMetCh : SameConfig s clipped).demandAdd
  split
  rename_i closed _ heq
  have hclosed : SameConfig s closed := (congrArg (SameConfig s ·.1) heq).mp hdemanded.closeReached
  extract_lets
  split
  exact ite hclosed.setMetCh.pulseFeed.startRecord hclosed.setMetCh.pulseFeed

theorem meterSample {c : MeterCfg} {m : MeterSample} : SameConfig s (t.meterSample n c m) := by
  suffices ∀ f, f = State.meterSample → SameConfig s (f n c m t) from this _ rfl
  delta State.meterSample
  rintro _ rfl
  dsimp -zeta -iota only
  extract_lets _ _ _ good paired
  have hpaired : SameConfig s paired := by
    clear_value good
    cases good <;> exact h
  split
  · extract_lets
    refine ite h.closeReached.rebase (ite h ?_)
    split
    rename_i closed done heq
    have hclosed : SameConfig s closed := (congrArg (SameConfig s ·.1) heq).mp hpaired.modMetCh.closeReached
    extract_lets faulted jumped gapped _ flagged sensed
    have hjumped : SameConfig s jumped := ite hclosed.modMetCh.windowFlag.setReg.raise hclosed.modMetCh
    have hgapped : SameConfig s gapped := ite hjumped.roundFree.windowFlag.raise hjumped
    have hsensed : SameConfig s sensed := ite (ite hgapped.windowFlag hgapped.windowFlag.raise) hgapped
    split
    exact ite hsensed.setMetCh.rebase.pulseFeed.startRecord hsensed.setMetCh.rebase.pulseFeed
  · exact h

theorem drainMet {fuel : Nat} : SameConfig s (t.drainMet n fuel) := by
  induction fuel generalizing t with
  | zero => exact h
  | succ fuel ih =>
    unfold State.drainMet
    refine ite h ?_
    split
    · refine ih ?_
      split
      · exact h.setMetCh.meterSample
      · exact h.setMetCh
    · exact ih h.setMetCh.setBlock
    · exact h

end

end SameConfig
end Sys2Proof.Machine
end

section
/-! The readings of a set and the end of a block (R367, R372, R374). -/

namespace Sys2Proof.Machine

namespace State

variable {s : State}

/-! ### The readings of a set (R374) -/

section Readings

/-- The mean square of a set's voltage over the last 20 blocks. -/
def meanV2 (k : SetCfg) (s : State) : Q :=
  ((s.codeScale k.v).mul (s.codeScale k.v)).mul (overBlocks (s.anCh k.v).hist)

/-- The mean square of a set's current over the last 20 blocks. -/
def meanI2 (k : SetCfg) (s : State) : Q :=
  ((s.codeScale k.i).mul (s.codeScale k.i)).mul (overBlocks (s.anCh k.i).hist)

/-- The mean active power of a set over the last 20 blocks. -/
def meanP (i : Nat) (k : SetCfg) (s : State) : Q :=
  ((s.codeScale k.v).mul (s.codeScale k.i)).mul (overBlocks (nth [] s.met.viHist i))

/-- The voltage of a set lies below a tenth of nominal. -/
def lowVoltage (k : SetCfg) (s : State) : Bool :=
  let n := Q.ofFp fp32 (s.anCfg k.v).nominal
  ((s.meanV2 k).mul (Q.ofInt 100)).lt (n.mul n)

/-- The power factor, with the sign of the active power. -/
def powerFactor (i : Nat) (k : SetCfg) (s : State) : Nat :=
  let p := s.meanP i k
  let s2 := (s.meanV2 k).mul (s.meanI2 k)
  if s2.n = 0 then 0 else (if p.n < 0 then 2 ^ 31 else 0) + Q.sqrtFp fp32 ((p.mul p).div s2)

/-- The registers of a set hold these readings: active, reactive and apparent power, voltage, current, frequency, power
factor, and whether the voltage is low. -/
def putReadings (i p q a v c f pf : Nat) (low : Bool) (s : State) : State :=
  (((((((s.setReg (R.MET_SET_P i) (BitVec.ofNat 32 p)).setReg (R.MET_SET_Q i) (BitVec.ofNat 32 q)).setReg
    (R.MET_SET_S i) (BitVec.ofNat 32 a)).setReg (R.MET_SET_VRMS i) (BitVec.ofNat 32 v)).setReg
    (R.MET_SET_IRMS i) (BitVec.ofNat 32 c)).setReg (R.MET_SET_FREQ i) (BitVec.ofNat 32 f)).setReg
    (R.MET_SET_PF i) (BitVec.ofNat 32 pf)).setRegBit (R.MET_SET_STATE i) 3 low

theorem overBlocks_eq (h : List (Int × Nat)) :
    overBlocks h = ⟨(h.map (·.1)).sum, max 1 ((h.map (·.2)).sum)⟩ := by
  simp [overBlocks, List.sum_eq_foldl, List.foldl_map]

/-- The reactive power and the frequency are free values. -/
theorem setReadings_eq (i : Nat) (k : SetCfg) (s : State) : ∃ q f, s.setReadings i k =
    putReadings i (Q.toFp fp32 (s.meanP i k)) q (Q.sqrtFp fp32 ((s.meanV2 k).mul (s.meanI2 k)))
      (Q.sqrtFp fp32 (s.meanV2 k)) (Q.sqrtFp fp32 (s.meanI2 k)) (if s.lowVoltage k then 0 else f) (s.powerFactor i k)
      (s.lowVoltage k) { s with draws := s.draws + 2 } := ⟨_, _, rfl⟩

theorem bit_setBit_self {n : Nat} (w : BitVec n) {i : Nat} (hi : i < n) (b : Bool) : bit (setBit w i b) i = b := by
  rw [bit, setBit, getLsbD_setField w hi, if_pos ⟨Nat.le_refl i, Nat.le_refl i⟩, Nat.sub_self]
  cases b <;> rfl

section Put

variable {i p q a v c f pf : Nat} {low : Bool} {t : State} (ht : t = s.putReadings i p q a v c f pf low)
include ht

theorem putReadings_regs : t.reg (R.MET_SET_P i) = BitVec.ofNat 32 p ∧ t.reg (R.MET_SET_S i) = BitVec.ofNat 32 a ∧
    t.reg (R.MET_SET_VRMS i) = BitVec.ofNat 32 v ∧ t.reg (R.MET_SET_IRMS i) = BitVec.ofNat 32 c ∧
    t.reg (R.MET_SET_FREQ i) = BitVec.ofNat 32 f ∧ t.reg (R.MET_SET_PF i) = BitVec.ofNat 32 pf ∧
    t.regBit (R.MET_SET_STATE i) 3 = low := by
  simp [ht, putReadings, setRegBit, modReg, reg_setReg, regBit, bit_setBit_self]

theorem putReadings_others : SameRegs [R.MET_SET_P i, R.MET_SET_Q i, R.MET_SET_S i, R.MET_SET_VRMS i, R.MET_SET_IRMS i,
    R.MET_SET_FREQ i, R.MET_SET_PF i, R.MET_SET_STATE i] s t := by
  intro k hk
  simp only [List.mem_cons, List.not_mem_nil, or_false, not_or] at hk
  simp [ht, putReadings, setRegBit, modReg, reg_setReg, hk]

end Put

/-- The readings of a set, register by register. -/
theorem setReadings_regs (i : Nat) (k : SetCfg) (s : State) : let t := s.setReadings i k
    t.reg (R.MET_SET_P i) = BitVec.ofNat 32 (Q.toFp fp32 (s.meanP i k)) ∧
    t.reg (R.MET_SET_S i) = BitVec.ofNat 32 (Q.sqrtFp fp32 ((s.meanV2 k).mul (s.meanI2 k))) ∧
    t.reg (R.MET_SET_VRMS i) = BitVec.ofNat 32 (Q.sqrtFp fp32 (s.meanV2 k)) ∧
    t.reg (R.MET_SET_IRMS i) = BitVec.ofNat 32 (Q.sqrtFp fp32 (s.meanI2 k)) ∧
    t.regBit (R.MET_SET_STATE i) 3 = s.lowVoltage k ∧ (s.lowVoltage k = true → t.reg (R.MET_SET_FREQ i) = 0) ∧
    t.reg (R.MET_SET_PF i) = BitVec.ofNat 32 (s.powerFactor i k) ∧ SameMemory s t ∧
    SameRegs [R.MET_SET_P i, R.MET_SET_Q i, R.MET_SET_S i, R.MET_SET_VRMS i, R.MET_SET_IRMS i, R.MET_SET_FREQ i,
      R.MET_SET_PF i, R.MET_SET_STATE i] s t := by
  obtain ⟨q, f, heq⟩ := setReadings_eq i k s
  obtain ⟨hp, hs, hv, hi, hfreq, hpf, hlow⟩ := putReadings_regs heq
  refine ⟨hp, hs, hv, hi, hlow, fun hl => ?_, hpf, ?_, fun a ha => putReadings_others heq a ha⟩
  · rw [hfreq, if_pos hl]
    rfl
  · rw [heq]
    exact fun _ => rfl

end Readings

/-! ### The end of a block (R367, R372) -/

section BlockEnd

/-- What the end of a block leaves: memory, and the configuration that it brings into force. -/
def SameStores (s t : State) : Prop := SameMemory s t ∧ SameConfig s t

theorem SameStores.refl (s : State) : SameStores s s := ⟨SameMemory.refl s, SameConfig.refl s⟩

theorem SameStores.trans {t u : State} (h : SameStores s t) (k : SameStores t u) : SameStores s u :=
  ⟨h.1.trans k.1, k.2.trans h.2⟩

theorem SameStores.foldl {α : Type} {f : State → α → State} (hf : ∀ t x, SameStores t (f t x)) (l : List α)
    (s : State) : SameStores s (l.foldl f s) :=
  List.foldlRecOn l f (SameStores.refl s) fun t h x _ => h.trans (hf t x)

theorem roundFree_stores (tag : Nat) (x : Int) (d : Nat) (s : State) : SameStores s (s.roundFree tag x d).2 :=
  ⟨(SameMemory.refl s).roundFree, (SameConfig.refl s).roundFree⟩

theorem setReadings_stores (i : Nat) (k : SetCfg) (s : State) : SameStores s (s.setReadings i k) := by
  obtain ⟨q, f, heq⟩ := setReadings_eq i k s
  rw [heq]
  exact SameStores.refl s

theorem feedSet_stores (i : Nat) (b : SetBlock) (s : State) : SameStores s (s.feedSet i b) := by
  unfold feedSet
  extract_lets n
  split
  · exact ⟨(SameMemory.refl s).modMetCh.drainMet, (SameConfig.refl s).modMetCh.drainMet⟩
  · split <;> exact SameStores.refl s

theorem closeSet_stores (i : Nat) (k : SetCfg) (s : State) : SameStores s (s.closeSet i k) := by
  unfold closeSet
  extract_lets
  split
  rename_i eP rounded heq
  have hrounded : SameStores s rounded := (congrArg (SameStores s ·.2) heq).mp (roundFree_stores ..)
  simp only [draw]
  refine .trans (.trans ?_ (feedSet_stores i _ _)) (setReadings_stores i k _)
  exact hrounded

/-- Steps that each write a register change nothing but registers. -/
theorem foldl_setReg {α : Type} {f : State → α → State} (hf : ∀ t x, ∃ a v, f t x = t.setReg a v)
    (l : List α) (s : State) : ∃ regs, l.foldl f s = { s with regs := regs } :=
  List.foldlRecOn l f (motive := fun t => ∃ regs, t = { s with regs := regs }) ⟨s.regs, rfl⟩ fun t ht x _ => by
    obtain ⟨regs, rfl⟩ := ht
    obtain ⟨a, v, hx⟩ := hf { s with regs := regs } x
    exact ⟨_, hx⟩

/-- The configuration that commands have set is in force. -/
def inForce (s : State) : State := s.modMet fun m =>
  { m with chans := s.nvNext.met.chans, sets := s.nvNext.met.sets, cal := s.nvNext.met.cal }

/-- Registers show the kinds and enables of the configuration that comes into force. -/
theorem metSync_eq (s : State) : ∃ regs, s.metSync = { s.inForce with regs := regs } := by
  obtain ⟨kinds, hkinds⟩ := foldl_setReg
    (f := fun s (x : Nat × AnCfg) => s.setRegField (R.MET_CH_STATUS x.1) 1 0 x.2.kind) (fun _ _ => ⟨_, _, rfl⟩)
    s.nvNext.met.chans s.inForce
  obtain ⟨enables, henables⟩ := foldl_setReg
    (f := fun s (x : Nat × SetCfg) => s.setRegBit (R.MET_SET_STATE x.1) 0 x.2.enable) (fun _ _ => ⟨_, _, rfl⟩)
    s.nvNext.met.sets { s.inForce with regs := kinds }
  exact ⟨enables, (congrArg (List.foldl _ · _) hkinds).trans henables⟩

/-- The metering engine after a block: its sums start again. -/
def blockCleared (s : State) : State := s.modMet fun m =>
  { m with analog := m.analog.map fun (a : AnCh) => { a with sq := 0, clip := false }, vi := List.replicate 32 0,
           blkN := 0, blkFrom := m.blkTo }

theorem blockEnd_eq (s : State) : ∃ u, s.blockEnd = u.blockCleared.metSync ∧ SameStores s u := by
  refine ⟨_, rfl, ?_⟩
  refine .trans ?_ (SameStores.foldl (fun t i => ?_) _ _)
  · refine .trans ?_ (SameStores.foldl (fun t c => ?_) _ _)
    · exact SameStores.refl s
    · split <;> exact SameStores.refl t
  · split
    · exact closeSet_stores ..
    · exact SameStores.refl t

theorem blockDue_iff (s : State) : s.blockDue = true ↔ 160 ≤ s.met.blkN ∨ 0 < s.met.blkN ∧ ∃ e,
    (e = s.endAfter (s.met.blkFrom / 2 ^ 32) ∨ e = s.demandAfter (s.met.blkFrom / 2 ^ 32)) ∧ e ≠ 0 ∧
      e * 2 ^ 32 ≤ s.met.blkTo := by
  simp [blockDue, or_and_right, exists_or]

theorem blockEndDue_of_due (h : s.blockDue = true) : s.blockEndDue = s.blockEnd := if_pos h

end BlockEnd

end State

end Sys2Proof.Machine
end

section
/-! Samples of the analog channels (R366, R369, R370, R371), and the statement about samples, blocks and readings. -/

namespace Sys2Proof.Machine

namespace State

variable {s : State}

/-! ### Raw codes (R369, R370) -/

section RawCodes

theorem regMax_toNat {a v : Nat} (hv : v < 2 ^ 32) (s : State) :
    ((s.regMax a v).reg a).toNat = max (s.reg a).toNat v := by
  unfold regMax
  split
  · rw [setReg_reg, BitVec.toNat_ofNat, Nat.mod_eq_of_lt hv]
    omega
  · omega

theorem regMax_reg_ne {a k : Nat} (h : k ≠ a) (v : Nat) (s : State) : (s.regMax a v).reg k = s.reg k := by
  unfold regMax
  split
  · exact s.setReg_reg_ne h _
  · rfl

/-- A channel that has taken a raw code, when `was` tells whether the code before it was at a rail. -/
def takeCode (was : Bool) (x : Int) (a : AnCh) : AnCh :=
  { a with rail := atRail x, clip := a.clip || (was && atRail x) }

variable (c : Nat) (x : Int)

theorem rawCode_eq (s : State) : ∃ regs, s.rawCode c x =
    { s with regs := regs, met := { s.met with analog := modNth (takeCode (s.anCh c).rail x) s.met.analog c } } := by
  simp only [rawCode, regMax]
  split <;> split <;> exact ⟨_, rfl⟩

theorem peak_ne_status (k : Nat) : R.MET_CH_PEAK k ≠ R.MET_CH_STATUS c := by
  unfold R.MET_CH_PEAK R.MET_CH_STATUS
  omega

theorem rawCode_peak {x : Int} (hx : x.natAbs < 2 ^ 32) (s : State) :
    ((s.rawCode c x).reg (R.MET_CH_PEAK c)).toNat = max (s.reg (R.MET_CH_PEAK c)).toNat x.natAbs := by
  rw [rawCode, regMax_toNat hx]
  split
  · rw [setRegBit, modReg, setReg_reg_ne _ (peak_ne_status c c)]
    rfl
  · rfl

theorem rawCode_peak_ne {k : Nat} (h : k ≠ c) (s : State) :
    (s.rawCode c x).reg (R.MET_CH_PEAK k) = s.reg (R.MET_CH_PEAK k) := by
  rw [rawCode, regMax_reg_ne (by unfold R.MET_CH_PEAK; omega)]
  split
  · exact setReg_reg_ne _ (peak_ne_status c k) _
  · rfl

/-- The channels below `n` have taken their codes of a sample, and nothing else has changed. -/
structure CodesTaken (xs : List Int) (n : Nat) (s t : State) : Prop where
  mem : SameMemory s t
  met : t.met = { s.met with analog := t.met.analog }
  length : t.met.analog.length = s.met.analog.length
  taken : ∀ c < n, (t.reg (R.MET_CH_PEAK c)).toNat = max (s.reg (R.MET_CH_PEAK c)).toNat (nth 0 xs c).natAbs ∧
    t.anCh c = takeCode (s.anCh c).rail (nth 0 xs c) (s.anCh c)
  waiting : ∀ c, n ≤ c → t.reg (R.MET_CH_PEAK c) = s.reg (R.MET_CH_PEAK c) ∧ t.anCh c = s.anCh c

theorem CodesTaken.rawCode {xs : List Int} {n : Nat} {t : State} (h : CodesTaken xs n s t)
    (hn : n < s.met.analog.length) (hx : (nth 0 xs n).natAbs < 2 ^ 32) :
    CodesTaken xs (n + 1) s (t.rawCode n (nth 0 xs n)) := by
  obtain ⟨regs, heq⟩ := rawCode_eq n (nth 0 xs n) t
  obtain ⟨hpeak, hch⟩ := h.waiting n (Nat.le_refl n)
  have hother {c : Nat} (hc : c ≠ n) : (t.rawCode n (nth 0 xs n)).anCh c = t.anCh c := by
    rw [heq]
    exact nth_modNth_ne _ _ _ hc
  have hself : (t.rawCode n (nth 0 xs n)).anCh n = takeCode (s.anCh n).rail (nth 0 xs n) (s.anCh n) := by
    rw [← hch, heq]
    exact nth_modNth_self _ _ _ (h.length ▸ hn)
  refine ⟨?_, ?_, ?_, fun c hc => ?_, fun c hc => ?_⟩
  · rw [heq]
    exact h.mem
  · rw [heq, h.met]
  · rw [heq, ← h.length]
    exact modNth_length ..
  · rcases Nat.lt_succ_iff_lt_or_eq.1 hc with hlt | rfl
    · rw [rawCode_peak_ne _ _ (Nat.ne_of_lt hlt), hother (Nat.ne_of_lt hlt)]
      exact h.taken c hlt
    · exact ⟨by rw [rawCode_peak _ hx, hpeak], hself⟩
  · rw [rawCode_peak_ne _ _ (by omega), hother (by omega)]
    exact h.waiting c (by omega)

theorem codesTaken_foldl {xs : List Int} (hx : ∀ c, (nth 0 xs c).natAbs < 2 ^ 32) {n : Nat}
    (hn : n ≤ s.met.analog.length) :
    CodesTaken xs n s ((List.range n).foldl (fun s c => s.rawCode c (nth 0 xs c)) s) := by
  induction n with
  | zero => exact ⟨SameMemory.refl s, rfl, rfl, fun c hc => absurd hc c.not_lt_zero, fun _ _ => ⟨rfl, rfl⟩⟩
  | succ n ih =>
    rw [List.range_succ, List.foldl_append]
    exact (ih (Nat.le_of_succ_le hn)).rawCode hn (hx n)

end RawCodes

/-! ### What follows the raw codes of a sample (R366, R370, R371, R375) -/

section Delayed

/-- A change of one element gives every element what it was, or its change. -/
theorem nth_modNth_cases {α : Type} (d : α) (f : α → α) (l : List α) (i k : Nat) :
    nth d (modNth f l i) k = nth d l k ∨ nth d (modNth f l i) k = f (nth d l k) := by
  by_cases hk : k = i
  · subst hk
    by_cases hlt : k < l.length
    · exact .inr (nth_modNth_self d f l hlt)
    · left
      simp [nth, modNth_length, Nat.not_lt.1 hlt]
  · exact .inl (nth_modNth_ne d f l hk)

theorem peak_not_event (c : Nat) :
    R.MET_CH_PEAK c ∉ [R.EVR_REPEATS, R.EVR_QUEUE_PEAK, R.EVR_LOST_PENDING, R.EVR_LOST_TOTAL] := by
  simp only [List.mem_cons, List.not_mem_nil, or_false, R.MET_CH_PEAK, R.EVR_REPEATS, R.EVR_QUEUE_PEAK,
    R.EVR_LOST_PENDING, R.EVR_LOST_TOTAL]
  omega

/-- The memory, the peaks, the marks of the raw codes, and all of the metering engine but its channels' running values,
are the same. -/
structure SameCodes (s t : State) : Prop where
  mem : SameMemory s t
  met : t.met = { s.met with analog := t.met.analog }
  peak : ∀ c, t.reg (R.MET_CH_PEAK c) = s.reg (R.MET_CH_PEAK c)
  marks : ∀ c, (t.anCh c).rail = (s.anCh c).rail ∧ (t.anCh c).clip = (s.anCh c).clip

namespace SameCodes

variable {t u : State}

theorem refl (s : State) : SameCodes s s := ⟨SameMemory.refl s, rfl, fun _ => rfl, fun _ => ⟨rfl, rfl⟩⟩

theorem trans (h : SameCodes s t) (k : SameCodes t u) : SameCodes s u where
  mem := h.mem.trans k.mem
  met := by rw [k.met, h.met]
  peak c := (k.peak c).trans (h.peak c)
  marks c := ⟨(k.marks c).1.trans (h.marks c).1, (k.marks c).2.trans (h.marks c).2⟩

section

variable (h : SameCodes s t)
include h

theorem ite {c : Prop} [Decidable c] (hu : SameCodes s u) : SameCodes s (if c then t else u) := by
  split
  · exact h
  · exact hu

theorem setReg {a : Nat} (ha : ∀ c, R.MET_CH_PEAK c ≠ a) (v : Word) : SameCodes s (t.setReg a v) :=
  h.trans ⟨fun _ => rfl, rfl, fun c => t.setReg_reg_ne (ha c) v, fun _ => ⟨rfl, rfl⟩⟩

theorem setStatusBit (c i : Nat) (b : Bool) : SameCodes s (t.setRegBit (R.MET_CH_STATUS c) i b) :=
  h.setReg (peak_ne_status c) _

theorem raise (src code a b : Nat) : SameCodes s (t.raise src code a b) := by
  obtain ⟨hregs, heq⟩ := t.raise_only src code a b
  have hpeak (c : Nat) : (t.raise src code a b).reg (R.MET_CH_PEAK c) = t.reg (R.MET_CH_PEAK c) :=
    hregs _ (peak_not_event c)
  refine h.trans ⟨(SameMemory.refl t).raise, by rw [raise_met], hpeak, fun c => ?_⟩
  rw [anCh, raise_met]
  exact ⟨rfl, rfl⟩

theorem modAn (c : Nat) {f : AnCh → AnCh} (hf : ∀ a, (f a).rail = a.rail ∧ (f a).clip = a.clip) :
    SameCodes s (t.modAn c f) := by
  refine h.trans ⟨fun _ => rfl, rfl, fun _ => rfl, fun k => ?_⟩
  rcases nth_modNth_cases AnCh.empty f t.met.analog c k with hsame | hchanged
  · rw [anCh, State.modAn, hsame]
    exact ⟨rfl, rfl⟩
  · rw [anCh, State.modAn, hchanged]
    exact hf _

theorem draw (tag : Nat) : SameCodes s (t.draw tag).2 :=
  h.trans ⟨fun _ => rfl, rfl, fun _ => rfl, fun _ => ⟨rfl, rfl⟩⟩

theorem delayed (c : Nat) : SameCodes s (t.delayed c).2 := by
  unfold State.delayed
  extract_lets
  split
  · exact h
  · exact h.draw 13

theorem peakCheck (c : Nat) (y x : Int) : SameCodes s (t.peakCheck c y x) := by
  have hshown := h.setStatusBit c 4 true
  unfold State.peakCheck
  extract_lets k due shown
  split
  · exact h
  · split
    · refine raise ?_ ..
      exact hshown.modAn c fun _ => ⟨rfl, rfl⟩
    · exact hshown

theorem halfCycle (c : Nat) : SameCodes s (t.halfCycle c) := by
  unfold State.halfCycle
  extract_lets a k rms shown lim above reset marked
  have hshown : SameCodes s shown := h.setReg (fun k => by unfold R.MET_CH_PEAK R.MET_CH_HCRMS; omega) _
  have hreset : SameCodes s reset := hshown.modAn c fun _ => ⟨rfl, rfl⟩
  have hmarked : SameCodes s marked := (hreset.setStatusBit c 3 true).ite hreset
  exact (hmarked.raise ..).ite hmarked

theorem halfSample (c : Nat) (y : Int) (ys : List Int) : SameCodes s (t.halfSample c y ys) := by
  unfold State.halfSample
  extract_lets summed fixed
  have hsummed : SameCodes s summed := h.modAn c fun _ => ⟨rfl, rfl⟩
  have hfixed : SameCodes s (fixed summed) := (hsummed.halfCycle c).ite hsummed
  split
  · exact hfixed
  · split
    · exact hfixed
    · extract_lets
      split
      · exact (hsummed.halfCycle c).modAn c fun _ => ⟨rfl, rfl⟩
      · exact hsummed

end

end SameCodes

end Delayed

/-! ### A sample (R366, R371) -/

section Sample

/-- The codes of a sample as numbers. -/
def codes (raw : List (BitVec 24)) : List Int := raw.map (·.toInt)

/-- A sample is held with its stamp, which lies a free delay before now. -/
def holdSample (raw : List (BitVec 24)) (s : State) : State :=
  let (j, s) := s.draw 20
  { s with met := { s.met with hist := ((s.now - j % 192, codes raw) :: s.met.hist).take 5 } }

theorem codes_eq {raw : List (BitVec 24)} (h : raw.length = 32) :
    (List.range 32).map (fun c => (nth 0 raw c).toInt) = codes raw := by
  refine List.ext_getElem (by simp [codes, h]) fun i hi _ => ?_
  have hraw : i < raw.length := by simpa [h] using hi
  simp [codes, nth, hraw]

theorem nth_codes (raw : List (BitVec 24)) (c : Nat) : nth 0 (codes raw) c = (nth 0 raw c).toInt := by
  simp only [codes, nth, List.getElem?_map]
  cases raw[c]? <;> rfl

theorem codes_natAbs_lt (raw : List (BitVec 24)) (c : Nat) : (nth 0 (codes raw) c).natAbs < 2 ^ 32 := by
  rw [nth_codes]
  have hlo := (nth 0 raw c).le_toInt
  have hhi := (nth 0 raw c).toInt_lt
  omega

theorem analogSample_of_off (h : s.domOn 8 = false) (raw : List (BitVec 24)) : s.analogSample raw = s :=
  if_pos (by simp [h])

/-- What the rest of a sample leaves of the state after its raw codes, when it adds `n` samples to the block. -/
structure Sampled (n : Nat) (u t : State) : Prop where
  mem : SameMemory u t
  hist : t.met.hist = u.met.hist
  chs : t.met.chs = u.met.chs
  blkN : t.met.blkN = u.met.blkN + n
  peak : ∀ c, t.reg (R.MET_CH_PEAK c) = u.reg (R.MET_CH_PEAK c)
  marks : ∀ c, (t.anCh c).rail = (u.anCh c).rail ∧ (t.anCh c).clip = (u.anCh c).clip

theorem sampled_self (u : State) : Sampled 0 u u :=
  ⟨SameMemory.refl u, rfl, rfl, rfl, fun _ => rfl, fun _ => ⟨rfl, rfl⟩⟩

theorem SameCodes.blockSample {u v : State} (h : SameCodes u v) (t : Instant) (ys : List Int) :
    Sampled 1 u (v.blockSample t ys) where
  mem := h.mem
  hist := (congrArg (·.hist) h.met : v.met.hist = u.met.hist)
  chs := (congrArg (·.chs) h.met : v.met.chs = u.met.chs)
  blkN := (congrArg (·.blkN + 1) h.met : v.met.blkN + 1 = u.met.blkN + 1)
  peak := h.peak
  marks c := by
    rw [← (h.marks c).1, ← (h.marks c).2]
    simp only [State.blockSample, anCh, nth, List.getElem?_mapIdx]
    cases v.met.analog[c]? <;> exact ⟨rfl, rfl⟩

/-- The delayed sample of each channel, and the state after the checks of its peak. -/
theorem delayedFold_codes (s : State) : SameCodes s ((List.range 32).foldl (fun (p : List Int × State) c =>
    (p.1 ++ [(p.2.delayed c).1.1], (p.2.delayed c).2.peakCheck c (p.2.delayed c).1.1 (p.2.delayed c).1.2))
    ([], s)).2 :=
  List.foldlRecOn _ _ (motive := fun (p : List Int × State) => SameCodes s p.2) (SameCodes.refl s) fun _ h c _ =>
    (h.delayed c).peakCheck ..

theorem halfSamples_codes (ys : List Int) (s : State) : SameCodes s ((List.range 32).foldl (fun s c =>
    if (s.anCfg c).kind = 2 then s.halfSample c (nth 0 ys c) ys else s) s) :=
  List.foldlRecOn _ _ (SameCodes.refl s) fun _ h _ _ => (h.halfSample ..).ite h

/-- The first two samples after a start fill the filter; from the third on, a sample goes into the block. -/
theorem analogSample_of_open {raw : List (BitVec 24)} (hdom : s.domOn 8 = true) (hblock : s.blockDue = false)
    (hraw : raw.length = 32) (hch : s.met.analog.length = 32) :
    ∃ u, CodesTaken (codes raw) 32 (s.holdSample raw) u ∧
      Sampled (if s.met.hist.length < 2 then 0 else 1) u (s.analogSample raw) := by
  have hon : ¬ (!s.domOn 8) = true := by simp [hdom]
  obtain ⟨u, hu⟩ : ∃ u, (List.range 32).foldl (fun s c => s.rawCode c (nth 0 (codes raw) c))
    (s.holdSample raw) = u := ⟨_, rfl⟩
  have htaken : CodesTaken (codes raw) 32 (s.holdSample raw) u :=
    hu ▸ codesTaken_foldl (codes_natAbs_lt raw) (Nat.le_of_eq hch.symm)
  have hhist : u.met.hist[2]? = s.met.hist[1]? := by
    rw [htaken.met]
    simp [holdSample, draw]
  refine ⟨u, htaken, ?_⟩
  rw [analogSample, if_neg hon, blockEndDue_of_open hblock, codes_eq hraw]
  simp only [holdSample, draw] at hu
  simp only [draw, hu]
  cases hget : u.met.hist[2]? with
  | none =>
    have hshort : s.met.hist.length < 2 := Nat.lt_succ_of_le (List.getElem?_eq_none_iff.1 (hhist.symm.trans hget))
    rw [if_pos hshort]
    exact sampled_self u
  | some held =>
    obtain ⟨hlong, -⟩ := List.getElem?_eq_some_iff.1 (hhist.symm.trans hget)
    rw [if_neg (Nat.not_lt.2 hlong)]
    refine SameCodes.blockSample ?_ held.1 _
    exact (delayedFold_codes u).trans (halfSamples_codes ..)

end Sample

end State

/-! ### The rows -/

section Rows

variable (s : State)

theorem exec_analogSample (raw : List (BitVec 24)) : exec (.analogSample raw) s = .next (s.analogSample raw) := rfl

theorem exec_electricBlockEnd : exec .electricBlockEnd s = .next s.blockEndDue := rfl

end Rows

/-- Settles O43: a sample's raw codes settle its peaks and marks, which nothing after them touches; the end of a block
keeps memory and the configuration that it brings into force; the readings are one write of each register of the set. -/
theorem samplesBlocksAndSets : Obligations.SamplesBlocksAndSets := by
  refine ⟨fun s raw => ⟨fun hoff => ?_, fun hdom hblock hraw hch => ?_, fun hopen => ?_, fun hdue => ?_,
    s.blockDue_iff⟩, fun s i k => ?_⟩
  · rw [exec_analogSample, State.analogSample_of_off hoff]
  · obtain ⟨u, htaken, hrest⟩ := State.analogSample_of_open hdom hblock hraw hch
    refine ⟨s.analogSample raw, Config.freeValue 20 s.draws % 192, exec_analogSample s raw,
      Nat.mod_lt _ (by decide), ?_, htaken.mem.trans hrest.mem, ?_, ?_, fun c hc => ?_⟩
    · rw [hrest.hist, htaken.met]
      rfl
    · rw [hrest.chs, htaken.met]
      rfl
    · rw [hrest.blkN, htaken.met]
      rfl
    · obtain ⟨hpeak, hch⟩ := htaken.taken c hc
      rw [State.nth_codes] at hpeak hch
      obtain ⟨hrail, hclip⟩ := hrest.marks c
      rw [hrest.peak, hrail, hclip, hch]
      exact ⟨hpeak, rfl, rfl⟩
  · rw [exec_electricBlockEnd, State.blockEndDue_of_open hopen]
  · obtain ⟨u, hend, hmem, hcfg⟩ := s.blockEnd_eq
    obtain ⟨regs, hsync⟩ := u.blockCleared.metSync_eq
    refine ⟨s.blockEnd, by rw [exec_electricBlockEnd, State.blockEndDue_of_due hdue], ?_⟩
    rw [hend, hsync]
    refine ⟨rfl, rfl, rfl, fun a ha => ?_, congrArg (·.met.chans) hcfg, congrArg (·.met.sets) hcfg, hmem⟩
    obtain ⟨b, -, rfl⟩ := List.mem_map.1 ha
    exact ⟨rfl, rfl⟩
  · intro sum cnt sv si v2 i2 p n low t
    have hv2 : s.meanV2 k = v2 := congrArg _ (State.overBlocks_eq _)
    have hi2 : s.meanI2 k = i2 := congrArg _ (State.overBlocks_eq _)
    have hp : s.meanP i k = p := congrArg _ (State.overBlocks_eq _)
    have hlow : s.lowVoltage k = low := congrArg (fun q : Q => (q.mul (Q.ofInt 100)).lt (n.mul n)) hv2
    have hpf : s.powerFactor i k = if (v2.mul i2).n = 0 then 0 else
        (if p.n < 0 then 2 ^ 31 else 0) + Q.sqrtFp fp32 ((p.mul p).div (v2.mul i2)) := by
      rw [State.powerFactor, hv2, hi2, hp]
    obtain ⟨hregP, hregS, hregV, hregI, hstate, hfreq, hregPf, hmem, hregs⟩ := State.setReadings_regs i k s
    rw [hp] at hregP
    rw [hv2, hi2] at hregS
    rw [hlow] at hstate hfreq
    rw [hpf] at hregPf
    exact ⟨hregP, hregS, hv2 ▸ hregV, hi2 ▸ hregI, hstate, hfreq, fun hzero => by rw [hregPf, if_pos hzero]; rfl,
      fun hsome => by rw [hregPf, if_neg hsome], hmem, hregs⟩

end Sys2Proof.Machine
end
